-- ==== Sys2Proof/Word.lean ====
section
/-!
DEFINITION. The word types of the module's registers and memories (00_scope.md R8: bit 0 is the least significant bit,
multi-byte values are little-endian).
-/
namespace Sys2Proof

/-- One byte of a memory. -/
abbrev Byte := BitVec 8
/-- A halfword. -/
abbrev W16 := BitVec 16
/-- A 32-bit register or word. -/
abbrev W32 := BitVec 32
/-- A 64-bit register, scalar register or Octix word. -/
abbrev W64 := BitVec 64

end Sys2Proof
end

