-- ==== Sys2Proof/Syntax.lean ====
section
/-!
DEFINITION. The commands of the module: one constructor per row of the opcode table, with the row's operands.
An Octix instruction row carries the core that issues: the word it issues is the one its instruction store holds at its
pc (03_octix_core.md R78 to R82, 04_octix_isa.md R97).
-/
namespace Sys2Proof

/-- A C-die, 0 to 7 (R17). -/
abbrev Die := Fin 8
/-- A cluster of the module: 625 × die + logical cluster index (R22). -/
abbrev Cluster := Fin 5000
/-- A core by its global number 10,000 × die + 16 × cluster index + core (R22). -/
abbrev Core := Fin 80000
/-- A bay, 5 × die + bay of the die (R27). -/
abbrev Bay := Fin 40
/-- A partition (R380). -/
abbrev Part := Fin 12
/-- A context number (R387). -/
abbrev Ctx := Fin 4096
/-- A Zwison port (R313). -/
abbrev Port := Fin 6
/-- A collective stream (R334). -/
abbrev Stream := Fin 64
/-- An HBM4 stack (R18). -/
abbrev Stack := Fin 16

/-- A function of the host link: the physical function, or the virtual function of a partition (R379: VF n serves
partition n − 1). -/
inductive Fn where
  | pf
  | vf (p : Part)
  deriving DecidableEq, Repr

/-- The scope of a clapper or event (Table 4.9). -/
inductive Scope where
  | cluster | bay | part
  deriving DecidableEq, Repr

/-- The classes of telemetry events (16_reliability.md R449). -/
inductive EvClass where
  | alarm | error | warning | trace
  deriving DecidableEq, Repr

/-- A telemetry event as its source raises it: source byte ([7:4] die, [3:0] unit), code, class, detail bytes (R449,
R512). -/
structure TelemEv where
  src : Byte
  code : Byte
  cls : EvClass
  detail : List Byte
  deriving DecidableEq, Repr

/-- Where a message comes from: this module, or a port and the class it arrives in (R324). -/
inductive ArrivePort where
  | own
  | port (q : Port) (cls : Bool)
  deriving DecidableEq, Repr

/-- The eight words of a head flit (Table 12.3). -/
abbrev Head := List W64

/-- A collective partial or result as it arrives (R336, R337): the port, word 0, tag and epoch of its head flit, the run, the
dimension, the direction, the line index of the member whose part it is, its first unit (of a result: the first 64-byte
line of RBUF) and its words. -/
structure CollMsg where
  port : Port
  w0 : W64
  tag : W16
  epoch : W16
  run : Byte
  dim : Fin 3
  asc : Bool
  result : Bool
  q : Nat
  lo : Nat
  data : List W32
  deriving DecidableEq, Repr
/-- An arbiter (Table 10.1): block `b` of Table 10.5 with the channel of an HBM block (0 for the others), the arbiter of one
bank of a cluster store, or that of output port `out` of cluster `k`'s mesh node (0 local, 1 N, 2 E, 3 S, 4 W). Block 7 d + i is
of die d (0, 1 HBM; 2, 3 ring; 4, 5 hub; 6 mesh); 56 to 61 are the fabric output ports, 62 the injection and 63 the Dailies
write-back. The mesh block by itself is port 0 of its die's first node (log 36). -/
inductive ArbId where
  | block (b : Fin 64) (ch : Fin 32)
  | store (k : Cluster) (bank : Fin 16)
  | mesh (k : Cluster) (out : Fin 5)
  deriving DecidableEq, Repr

/-- The dolly channel a request comes from, with the sequence number of its descriptor and its row (R214). -/
structure DollyTag where
  k : Cluster
  ch : Fin 16
  seq : W32
  row : Nat
  deriving DecidableEq, Repr

/-- A request that has become ready at an arbiter (R263): requester number, slot owner, beats, whether it is a locked sequence
(R272), the beats for which it has been ready, the number its requester knows it by, the offset in its die of its first line
(HBM), the dies its transfer goes from and to (8 the hub die; R19), whether it is bound for an HBM arbiter of the die it goes to
(R279), and the dolly channel it comes from. -/
structure ArbReq where
  rq : Nat
  owner : Nat
  beats : Nat
  locked : Bool
  age : Nat
  id : Nat
  addr : Nat
  src : Fin 9
  dst : Fin 9
  hbm : Bool
  dolly : Option DollyTag
  deriving DecidableEq, Repr

/-- One branch's sums in a contribution (Table 12.9): samples, contributors with samples, and the exact sums SQ and NS in units
of 2^-298 (R338). -/
structure BranchSum where
  b : Nat
  m : Nat
  sq : Nat
  ns : Nat
  deriving DecidableEq, Repr

/-- Word 1 of a group message's head flit (Table 12.3): the group id and bits [15:0] of the group epoch. -/
structure MsgKey where
  tag : W16
  epoch : W16
  deriving DecidableEq, Repr

/-- A contribution, of one member or of a subtree (R286, Table 12.9), with the group id its message carries. -/
structure Contribution where
  tag : W16
  epoch : W32
  slate : W64
  attempt : Byte
  nf : Bool
  fail : Byte
  stagedOr : Bool
  stagedAnd : Bool
  members : Nat
  branches : List BranchSum
  deriving DecidableEq, Repr

/-- A verdict's kind (R287). -/
inductive VerdictKind where
  | finite | nonfinite | failed
  deriving DecidableEq, Repr

/-- One branch's sums in a verdict, SQ and NS rounded to binary64 (R339). -/
structure BranchStat where
  b : Nat
  m : Nat
  sq : W64
  ns : W64
  deriving DecidableEq, Repr

/-- A verdict (R287, R305, R339). -/
structure VerdictMsg where
  tag : W16
  epoch : W32
  slate : W64
  attempt : Byte
  kind : VerdictKind
  fail : Byte
  stagedOr : Bool
  members : Nat
  branches : List BranchStat
  deriving DecidableEq, Repr

/-- One shard's entry in a print vote (R340). -/
structure ShardVote where
  digest : W64
  count : Nat
  equal : Bool
  deriving DecidableEq, Repr

/-- A print vote, of one member, of a subtree or of the group (R340). -/
structure VoteMsg where
  tag : W16
  epoch : W32
  slate : W64
  attempt : Byte
  stagedAnd : Bool
  entries : List ShardVote
  deriving DecidableEq, Repr

/-- A namespace a controller reports (R349, R350): its number, LBA data size and metadata size, whether it has end-to-end protection,
and whether its command set is the NVM one. -/
structure NvNs where
  nsid : W32
  lba : Nat
  metadata : Nat
  protection : Bool
  nvm : Bool
  deriving DecidableEq, Repr

/-- What configuration space holds that the spec gives a value (Tables 14.1, 14.4), whichever offset its capability has: counts and
stride of the VFs, the codes of Max Payload Size and Max Read Request Size (128 bytes shifted left), MSI-X vectors, log2 of the size
of BAR 0, 2 or 4, the capabilities that are there and those that are not. -/
inductive CfgItem where
  | totalVfs | initialVfs | numVfs | vfStride
  | maxPayload | payload | readRequest
  | msixVectors
  | bar0 | bar2 | bar4
  | ari | sriov | aer | flr
  | msi | intx | ats | pri | pasid | tph | ide
  deriving DecidableEq, Repr

/-- A PCIe configuration request to a function: a read or a write of an offset or of a named item, or the write of the SR-IOV
capability that enables the first `n` VFs, none for 0 (R378, R379, R479). -/
inductive CfgReq where
  | read (fn : Fn) (off : BitVec 12)
  | write (fn : Fn) (off : BitVec 12) (val : W32)
  | readItem (fn : Fn) (item : CfgItem)
  | writeItem (fn : Fn) (item : CfgItem) (val : W32)
  | enableVfs (n : Fin 13)
  deriving DecidableEq, Repr

/-- A CXL device that reports Memory_Active: its port, volatile capacity in GiB, and the link's width code and rate (R484,
MEM_CXL_STAT). -/
structure CxlDev where
  port : Fin 4
  gib : W16
  width : BitVec 4
  rate : BitVec 4
  deriving DecidableEq, Repr

/-- What the metrology unit measures over an interval that closes (Table 17.2): energy in mWh, length, operating seconds, extremes,
and the range and self-test flags (Table 17.3). -/
structure Measure where
  energy : Nat
  ms : W32
  opSec : Nat
  vmin : W32
  vmax : W32
  imax : W32
  pmax : W32
  vRange : Bool
  iRange : Bool
  selftest : Bool
  deriving DecidableEq, Repr

/-- A fault a remote module reports in its acknowledgement of a copy: the address and the kind of Table 8.4 (R399). -/
structure VaKind where
  va : BitVec 57
  kind : BitVec 2
  deriving DecidableEq, Repr

/-- The ring registers of R395 and R400. -/
inductive RingReg where
  | sq | cq | eq | modEq
  deriving DecidableEq, Repr

/-- A store whose words of 64 bits have a check code of their own (16_reliability.md Table 16.3): a core's local store, whose word the
tensor or the vector unit may be reading, its instruction store, or its cluster's store. -/
inductive EccStore where
  | localStore (vec : Bool) | instr | cluster
  deriving DecidableEq, Repr

/-- A request at an arbiter: its requester and its number among the requester's. -/
structure ArbName where
  rq : Nat
  id : Nat
  deriving DecidableEq, Repr

/-- The head of a collective slot credit (R337): group and epoch, run, dimension and direction. -/
structure SlotCredit where
  key : MsgKey
  run : Byte
  dim : Fin 3
  asc : Bool
  deriving DecidableEq, Repr

/-- The head of a message of exchange rows (R341): group and epoch, run, the rows' source and the number of the first. -/
structure RowsHead where
  key : MsgKey
  run : Byte
  src : Nat
  first : Nat
  deriving DecidableEq, Repr

/-- The head of a group message that comes over a link (R331): the port, and group and epoch. -/
structure GroupMsg where
  port : Port
  key : MsgKey
  deriving DecidableEq, Repr

/-- The group and the epoch that a NEW_GROUP brings (R331). -/
structure GroupKey where
  tag : W16
  epoch : W32
  deriving DecidableEq, Repr

/-- The group, the epoch and the number of a census (R329). -/
structure CensusKey where
  tag : W16
  epoch : W32
  wave : W32
  deriving DecidableEq, Repr

/-- The I/O queue pairs that an NVMe controller grants, and their depth (Table 13.1). -/
structure NvQueues where
  pairs : Nat
  depth : Nat
  deriving DecidableEq, Repr

/-- The commands (opcode_table.json, one constructor a row). -/
inductive Instr where
  /-- REGISTER_WRITE (R11): A write to a control-space register that has no row of its own applies each field by its access type, as Table 0.4 states. -/
  | registerWrite (fn : Fn) (off : Nat) (size : Nat) (val : W64)
  /-- BLOCK_LATCH_READ (R404): A read of word 0 of PRINT_LAST, METER_REC or an alarm entry, or a read of METER_APP_SEQ, latches the whole block for the reading function. -/
  | blockLatchRead (fn : Fn) (off : Nat) (size : Nat)
  /-- ILLEGAL_WORD (R98): Issue of an illegal encoding raises core fault 0x01. -/
  | illegalWord (c : Core)
  /-- FETCH_OVERRUN (R81): Sequential fetch beyond word 2,047 raises core fault 0x04. -/
  | fetchOverrun (c : Core)
  /-- ADD (R106): Scalar add, modulo 2^64. -/
  | add (c : Core)
  /-- SUB (R106): Scalar subtract, modulo 2^64. -/
  | sub (c : Core)
  /-- MUL (R106): Low 64 bits of the product. -/
  | mul (c : Core)
  /-- MULH (R106): High 64 bits of the signed product. -/
  | mulh (c : Core)
  /-- MULHU (R106): High 64 bits of the unsigned product. -/
  | mulhu (c : Core)
  /-- DIV (R107): Signed division toward zero, with defined results for division by zero and for overflow. -/
  | div (c : Core)
  /-- DIVU (R107): Unsigned division. -/
  | divu (c : Core)
  /-- REM (R107): Signed remainder. -/
  | rem (c : Core)
  /-- REMU (R107): Unsigned remainder. -/
  | remu (c : Core)
  /-- MIN (R106): Signed minimum. -/
  | min (c : Core)
  /-- MAX (R106): Signed maximum. -/
  | max (c : Core)
  /-- MINU (R106): Unsigned minimum. -/
  | minu (c : Core)
  /-- MAXU (R106): Unsigned maximum. -/
  | maxu (c : Core)
  /-- ADDI (R103): Add of a sign-extended immediate. -/
  | addi (c : Core)
  /-- MULI (R103): Multiply by a sign-extended immediate. -/
  | muli (c : Core)
  /-- MINI (R103): Signed minimum with an immediate. -/
  | mini (c : Core)
  /-- MAXI (R103): Signed maximum with an immediate. -/
  | maxi (c : Core)
  /-- MOVI (R103): Load a sign-extended immediate. -/
  | movi (c : Core)
  /-- MOVHI (R103): Replace the upper 32 bits of d with the immediate. -/
  | movhi (c : Core)
  /-- MOVZ (R103): Load a zero-extended immediate. -/
  | movz (c : Core)
  /-- AND (R109): Bitwise and. -/
  | and (c : Core)
  /-- OR (R109): Bitwise or. -/
  | or (c : Core)
  /-- XOR (R109): Bitwise exclusive or. -/
  | xor (c : Core)
  /-- ANDN (R109): a and not b. -/
  | andn (c : Core)
  /-- SHL (R109): Shift left by b[5:0]. -/
  | shl (c : Core)
  /-- SHR (R109): Logical shift right by b[5:0]. -/
  | shr (c : Core)
  /-- SAR (R109): Arithmetic shift right by b[5:0]. -/
  | sar (c : Core)
  /-- ROTL (R109): Rotate left by b[5:0]. -/
  | rotl (c : Core)
  /-- POPC (R109): Count of 1 bits. -/
  | popc (c : Core)
  /-- CLZ (R109): Count of leading zero bits. -/
  | clz (c : Core)
  /-- CTZ (R109): Count of trailing zero bits. -/
  | ctz (c : Core)
  /-- SEL (R109): Select a or b by predicate q. -/
  | sel (c : Core)
  /-- ANDI (R109): And with a sign-extended immediate. -/
  | andi (c : Core)
  /-- ORI (R109): Or with a sign-extended immediate. -/
  | ori (c : Core)
  /-- XORI (R109): Exclusive or with a sign-extended immediate. -/
  | xori (c : Core)
  /-- SHLI (R109): Shift left by an immediate from 0 to 63. -/
  | shli (c : Core)
  /-- SHRI (R109): Logical shift right by an immediate. -/
  | shri (c : Core)
  /-- SARI (R109): Arithmetic shift right by an immediate. -/
  | sari (c : Core)
  /-- ROTLI (R109): Rotate left by an immediate. -/
  | rotli (c : Core)
  /-- CEQ (R110): Predicate = (a == b). -/
  | ceq (c : Core)
  /-- CNE (R110): Predicate = (a != b). -/
  | cne (c : Core)
  /-- CLT (R110): Predicate = signed a < b. -/
  | clt (c : Core)
  /-- CLTU (R110): Predicate = unsigned a < b. -/
  | cltu (c : Core)
  /-- CLE (R110): Predicate = signed a <= b. -/
  | cle (c : Core)
  /-- CLEU (R110): Predicate = unsigned a <= b. -/
  | cleu (c : Core)
  /-- CEQI (R110): Predicate = (a == sext(imm)). -/
  | ceqi (c : Core)
  /-- CNEI (R110): Predicate = (a != sext(imm)). -/
  | cnei (c : Core)
  /-- CLTI (R110): Predicate = signed a < sext(imm). -/
  | clti (c : Core)
  /-- CLTUI (R110): Predicate = unsigned a < sext(imm). -/
  | cltui (c : Core)
  /-- CLEI (R110): Predicate = signed a <= sext(imm). -/
  | clei (c : Core)
  /-- CLEUI (R110): Predicate = unsigned a <= sext(imm). -/
  | cleui (c : Core)
  /-- PAND (R110): Predicate and. -/
  | pand (c : Core)
  /-- POR (R110): Predicate or. -/
  | por (c : Core)
  /-- PXOR (R110): Predicate exclusive or. -/
  | pxor (c : Core)
  /-- PANDN (R110): pa and not pb. -/
  | pandn (c : Core)
  /-- PNOT (R110): Predicate not. -/
  | pnot (c : Core)
  /-- LD_B (R111): Load a sign-extended byte. -/
  | ldB (c : Core)
  /-- LD_BU (R111): Load a zero-extended byte. -/
  | ldBu (c : Core)
  /-- LD_H (R111): Load a sign-extended halfword. -/
  | ldH (c : Core)
  /-- LD_HU (R111): Load a zero-extended halfword. -/
  | ldHu (c : Core)
  /-- LD_W (R111): Load a sign-extended word. -/
  | ldW (c : Core)
  /-- LD_WU (R111): Load a zero-extended word. -/
  | ldWu (c : Core)
  /-- LD_D (R111): Load a doubleword. -/
  | ldD (c : Core)
  /-- ST_B (R111): Store a byte. -/
  | stB (c : Core)
  /-- ST_H (R111): Store a halfword. -/
  | stH (c : Core)
  /-- ST_W (R111): Store a word. -/
  | stW (c : Core)
  /-- ST_D (R111): Store a doubleword. -/
  | stD (c : Core)
  /-- MFSR (R113): Read a special register whole. -/
  | mfsr (c : Core)
  /-- MTSR (R113): Write a special register by its field types. -/
  | mtsr (c : Core)
  /-- CP (R115): Copy n bytes line by line between the local store and the cluster store. -/
  | cp (c : Core)
  /-- PUSH (R118): Send a range in 64-byte units to a neighbour's receive window. -/
  | push (c : Core)
  /-- HALO_UNIT_LAND (R90): A pushed unit arrives at the receiver, lands or is dropped, and increments HALO_CREDIT. -/
  | haloUnitLand (c : Core)
  /-- VLD (R116): Load 128 bytes into a vector register. -/
  | vld (c : Core)
  /-- VST (R116): Store a vector register. -/
  | vst (c : Core)
  /-- TLD (R117): Load 1 KiB into an accumulator. -/
  | tld (c : Core)
  /-- TST (R117): Store an accumulator. -/
  | tst (c : Core)
  /-- VEXT (R116): Extract one lane to a scalar register. -/
  | vext (c : Core)
  /-- VINS (R116): Insert a scalar into one lane. -/
  | vins (c : Core)
  /-- VBCAST (R116): Broadcast a scalar to every lane. -/
  | vbcast (c : Core)
  /-- SWAP (R75): Exchange stage A and stage B once no access to the old stage A is outstanding. -/
  | swap (c : Core)
  /-- MFENCE (R120): Stall until earlier copies, stores and pushes have finished. -/
  | mfence (c : Core)
  /-- CLAP (R123): Arrive at a clapper and wait for the release. -/
  | clap (c : Core)
  /-- CLAP_A (R123): Arrive at a clapper only. -/
  | clapA (c : Core)
  /-- CLAP_W (R123): Wait for the release of this core's pending arrival. -/
  | clapW (c : Core)
  /-- CLAP_ARRIVAL (R123): An arrival reaches the clapper, is counted, and releases the generation at the expected count. -/
  | clapArrival (c : Core) (scope : Scope) (id : Fin 16)
  /-- CLAP_RELEASE_REACH (R124): A release reaches a member core and completes its waiting clap or clap.w. -/
  | clapReleaseReach (c : Core) (scope : Scope) (id : Fin 16)
  /-- EV_SET (R127): Set an event flag after the fence condition. -/
  | evSet (c : Core)
  /-- EV_CLR (R127): Clear an event flag after the fence condition. -/
  | evClr (c : Core)
  /-- EV_WAIT (R127): Wait until an event flag reads 1. -/
  | evWait (c : Core)
  /-- EV_TEST (R127): Read an event flag into a predicate. -/
  | evTest (c : Core)
  /-- EV_FLAG_REACH (R127): A flag change reaches the cores of its scope and completes waiting ev.wait instructions. -/
  | evFlagReach (c : Core)
  /-- WAIT_CR (R131): Wait until a credit counter reaches the immediate count, then subtract it. -/
  | waitCr (c : Core)
  /-- WAIT_CRR (R131): Credit wait with the count taken from a register. -/
  | waitCrr (c : Core)
  /-- WAIT_VD (R132): Wait for the verdict of the current slate and write it to a predicate. -/
  | waitVd (c : Core)
  /-- NOP (R66): No operation. -/
  | nop (c : Core)
  /-- BR (R133): Branch to tgt, exiting the loop levels that the target leaves. -/
  | br (c : Core)
  /-- BRR (R133): Branch to the word index held in a register. -/
  | brr (c : Core)
  /-- CALL (R133): Write the return index and branch. -/
  | call (c : Core)
  /-- LOOP (R86): Loop entry: latch the extent and open a hardware loop level. -/
  | loop (c : Core)
  /-- HALT (R134): Stall until all issued work completes, then halt with a halt code. -/
  | halt (c : Core)
  /-- CORE_HALTED (R134): A halting core's outstanding work completes, and the core enters Halted. -/
  | coreHalted (c : Core)
  /-- FCLR (R135): Clear the non-finite flag once the tensor and vector units have drained. -/
  | fclr (c : Core)
  /-- LS_ECC_FAULT (R95): An uncorrectable local-store error met by an executing tensor or vector read raises fault 0x09. -/
  | lsEccFault (c : Core) (store : EccStore) (addr : W32)
  /-- TMMA (R142): Matrix multiply-accumulate over b blocks. -/
  | tmma (c : Core)
  /-- TZERO (R145): Set an accumulator to +0. -/
  | tzero (c : Core)
  /-- TBIAS (R145): Set every row of an accumulator from 64 bytes in memory. -/
  | tbias (c : Core)
  /-- TCVT (R146): Read out accumulators with conversion and optional block scales. -/
  | tcvt (c : Core)
  /-- TSETM (R140): Set TX_M. -/
  | tsetm (c : Core)
  /-- TSETN (R140): Set TX_N. -/
  | tsetn (c : Core)
  /-- TSETK (R140): Set TX_K. -/
  | tsetk (c : Core)
  /-- TSETH (R140): Set TX_H to 16 or 32. -/
  | tseth (c : Core)
  /-- TENSOR_COMPLETE (R148): A tensor instruction finishes its accumulator or memory writes and completes. -/
  | tensorComplete (c : Core)
  /-- VADD (R160): FP32 add. -/
  | vadd (c : Core)
  /-- VSUB (R160): FP32 subtract. -/
  | vsub (c : Core)
  /-- VMUL (R160): FP32 multiply. -/
  | vmul (c : Core)
  /-- VFMA (R160): FP32 fused multiply-add. -/
  | vfma (c : Core)
  /-- VMIN (R160): FP32 minimum. -/
  | vmin (c : Core)
  /-- VMAX (R160): FP32 maximum. -/
  | vmax (c : Core)
  /-- VABS (R160): Absolute value. -/
  | vabs (c : Core)
  /-- VNEG (R160): Negation. -/
  | vneg (c : Core)
  /-- VDIV (R160): FP32 divide. -/
  | vdiv (c : Core)
  /-- VSQRT (R160): FP32 square root. -/
  | vsqrt (c : Core)
  /-- VMOV (R157): Raw copy of a vector register. -/
  | vmov (c : Core)
  /-- VEXP2 (R164): exp2 by the reference procedure. -/
  | vexp2 (c : Core)
  /-- VLOG2 (R165): log2 by the reference procedure. -/
  | vlog2 (c : Core)
  /-- VCEQ (R161): Lane-wise equality mask. -/
  | vceq (c : Core)
  /-- VCLT (R161): Lane-wise less-than mask. -/
  | vclt (c : Core)
  /-- VCLE (R161): Lane-wise less-or-equal mask. -/
  | vcle (c : Core)
  /-- VSEL (R159): Lane-wise select by mask. -/
  | vsel (c : Core)
  /-- VAND (R159): Bitwise and of lanes. -/
  | vand (c : Core)
  /-- VOR (R159): Bitwise or of lanes. -/
  | vor (c : Core)
  /-- VANDN (R159): va and not vb. -/
  | vandn (c : Core)
  /-- VLMASK (R159): Lane mask of the lanes below s. -/
  | vlmask (c : Core)
  /-- VRSUM (R162): Tree sum across the lanes. -/
  | vrsum (c : Core)
  /-- VRMAX (R162): Maximum across the lanes. -/
  | vrmax (c : Core)
  /-- VRMIN (R162): Minimum across the lanes. -/
  | vrmin (c : Core)
  /-- VQ (R163): Convert the lanes to format f and back to FP32. -/
  | vq (c : Core)
  /-- VPK (R163): Convert and pack the lanes, with an optional block scale. -/
  | vpk (c : Core)
  /-- VNSTAT (R174): Mean and clamped variance from shifted sums. -/
  | vnstat (c : Core)
  /-- VEXP (R168): Natural exponential composed from exp2. -/
  | vexp (c : Core)
  /-- VLN (R168): Natural logarithm composed from log2. -/
  | vln (c : Core)
  /-- VPOW (R168): Power composed from exp2 and log2. -/
  | vpow (c : Core)
  /-- VSIGM (R168): Sigmoid. -/
  | vsigm (c : Core)
  /-- VSILU (R168): SiLU. -/
  | vsilu (c : Core)
  /-- VTANH (R168): Hyperbolic tangent. -/
  | vtanh (c : Core)
  /-- VTDEC (R169): Decode a T-tile into an accumulator pair. -/
  | vtdec (c : Core)
  /-- VSMAX (R171): Soft-maximum step over one score block. -/
  | vsmax (c : Core)
  /-- VRSCALE (R172): Scale accumulator rows by lane factors. -/
  | vrscale (c : Core)
  /-- VROWK (R173): Take column 0 of each row as the shift. -/
  | vrowk (c : Core)
  /-- VNSUM (R173): Accumulate the shifted sums S1 and S2 of a tile. -/
  | vnsum (c : Core)
  /-- VNAPPLY (R175): Apply the normalisation to a tile. -/
  | vnapply (c : Core)
  /-- DARM (R227): Arm a dolly channel. -/
  | darm (c : Core)
  /-- DLAUNCH (R229): Read a descriptor and enqueue it on a channel. -/
  | dlaunch (c : Core)
  /-- DSTOP (R224): Stop a dolly channel. -/
  | dstop (c : Core)
  /-- DDIS (R225): Disable a dolly channel. -/
  | ddis (c : Core)
  /-- DWAIT (R230): Wait until a channel's DONE count passes a sequence number. -/
  | dwait (c : Core)
  /-- DQ (R228): Read a channel's counts or status. -/
  | dq (c : Core)
  /-- CORE_SCRUB_DONE (R80): A 1,024-cycle core scrub completes. -/
  | coreScrubDone (c : Core)
  /-- DOLLY_CMD_ARM (R227): DOLLY_CH_CMD arm. -/
  | dollyCmdArm (fn : Fn) (k : Cluster) (ch : Fin 16)
  /-- DOLLY_CMD_STOP (R224): DOLLY_CH_CMD stop. -/
  | dollyCmdStop (fn : Fn) (k : Cluster) (ch : Fin 16)
  /-- DOLLY_CMD_DISABLE (R225): DOLLY_CH_CMD disable. -/
  | dollyCmdDisable (fn : Fn) (k : Cluster) (ch : Fin 16)
  /-- DOLLY_CMD_RESUME (R219): Resume a Faulted channel at its fault row. -/
  | dollyCmdResume (fn : Fn) (k : Cluster) (ch : Fin 16)
  /-- DOLLY_CH_CTL_WRITE (R200): Write of DOLLY_CH_CTL; ctx is ignored unless the channel is Off (Table 8.8). -/
  | dollyChCtlWrite (fn : Fn) (k : Cluster) (ch : Fin 16) (val : W32)
  /-- DOLLY_DESC_ACTIVE (R203): A queued descriptor becomes active and is checked. -/
  | dollyDescActive (k : Cluster) (ch : Fin 16)
  /-- DOLLY_GATE_OPEN (R211): A gated descriptor's reel segment lands, and it may issue. -/
  | dollyGateOpen (k : Cluster) (ch : Fin 16)
  /-- DOLLY_BURST_GRANT (R214): At a burst boundary, the dolly grants the next read or write burst to a channel. -/
  | dollyBurstGrant (k : Cluster) (write : Bool)
  /-- DOLLY_ROW_DELIVERED (R207): A row's writes complete, its credits are given, and a final row may complete the descriptor. -/
  | dollyRowDelivered (k : Cluster) (ch : Fin 16)
  /-- DOLLY_READBACK_DONE (R215): The read-backs return and the descriptor completes, with DONE, tap and event. -/
  | dollyReadbackDone (k : Cluster) (ch : Fin 16)
  /-- DOLLY_PAGE_FAULT (R218): A translation reports a page fault, and the channel enters Faulted with a fault record. -/
  | dollyPageFault (k : Cluster) (ch : Fin 16)
  /-- DOLLY_RETRY_REISSUE (R221): After retry_gap cycles, a request refused with retry status is issued again. -/
  | dollyRetryReissue (k : Cluster) (ch : Fin 16)
  /-- DOLLY_REQUEST_ERROR (R222): A request completes with error status or uncorrectable data, and the channel enters Error. -/
  | dollyRequestError (k : Cluster) (ch : Fin 16) (row : W32) (uncorr : Bool)
  /-- DOLLY_STOP_DONE (R224): The last request of a stopping channel returns, and the channel becomes Idle. -/
  | dollyStopDone (k : Cluster) (ch : Fin 16)
  /-- DOLLY_DISABLE_DONE (R225): The last response of a disabling channel returns, and the channel becomes Off. -/
  | dollyDisableDone (k : Cluster) (ch : Fin 16)
  /-- ARB_DECISION (R266): An arbiter decides a grant or an empty slot and advances its pointer. -/
  | arbDecision (a : ArbId) (beats : Nat) (ready : List ArbReq)
  /-- ARB_PREEMPT (R275): A privileged request pre-empts a running grant at the next beat boundary. -/
  | arbPreempt (a : ArbId) (req : ArbReq) (beat : Nat)
  /-- ARB_CANCEL (R270): A cancel reaches the arbiter and removes its request before the grant edge. -/
  | arbCancel (a : ArbId) (r : ArbName) (beat : Nat) (ready : List ArbReq)
  /-- ARB_STARVE_TIMEOUT (R277): A request waits beyond starve × P beats and is flagged as starved. -/
  | arbStarveTimeout (a : ArbId) (requester : Nat) (waited : Nat)
  /-- ARB_CMD_ZERO (R280): ARB_CMD zeroes every counter of the block. -/
  | arbCmdZero (fn : Fn) (a : ArbId)
  /-- ARB_LOCK_WRITE (R280): ARB_LOCK locks the block's LK registers. -/
  | arbLockWrite (fn : Fn) (a : ArbId)
  /-- REEL_GO_START (R181): A write of 1 to ZW_REEL_GO.go starts the next pass, or is refused. -/
  | reelGoStart (fn : Fn) (r : Fin 16)
  /-- REEL_GO_ABORT (R189): A write of 0 to go aborts a running or stalled pass. -/
  | reelGoAbort (fn : Fn) (r : Fin 16)
  /-- REEL_SEGMENT (R180): A reel segment message arrives and is matched to a context or dropped. -/
  | reelSegment (q : Port) (h : Head) (data : List Byte)
  /-- REEL_SEGMENT_LANDED (R183): Every byte of a segment is in its slot, and LANDED increments. -/
  | reelSegmentLanded (r : Fin 16)
  /-- REEL_CREDIT_GRANT (R184): A credit grant of the current pass arrives from the successor. -/
  | reelCreditGrant (r : Fin 16) (pass : Byte) (n : Nat)
  /-- REEL_TAP (R186): A dolly tap for a segment arrives and is counted toward its freeing. -/
  | reelTap (r : Fin 16) (n : Nat)
  /-- REEL_SEND (R182): The next outgoing segment, own or forwarded, leaves once a credit is held. -/
  | reelSend (r : Fin 16)
  /-- REEL_SEGMENT_SENT (R185): A segment's last flit leaves, and SENT and FREED advance. -/
  | reelSegmentSent (r : Fin 16)
  /-- REEL_STALL_TIMEOUT (R190): No progress for ZW_REEL_STALL µs, and the pass becomes stalled. -/
  | reelStallTimeout (r : Fin 16)
  /-- CS_GO_START (R334): A write of 1 to ZW_CS_GO.go starts a collective run. -/
  | csGoStart (fn : Fn) (i : Stream)
  /-- CS_GO_ABORT (R334): A write of 0 to ZW_CS_GO.go aborts the run. -/
  | csGoAbort (fn : Fn) (i : Stream)
  /-- COLL_PARTIAL (R336): A collective partial or result message arrives, is reduced and forwarded. -/
  | collPartial (i : Stream) (m : CollMsg)
  /-- COLL_SLOT_CREDIT (R337): A collective slot credit arrives at the sender. -/
  | collSlotCredit (i : Stream) (x : SlotCredit)
  /-- EXCHANGE_ROWS (R341): Exchange rows and a count arrive at a destination. -/
  | exchangeRows (i : Stream) (h : RowsHead) (rows : List Byte) (count : Nat)
  /-- CS_STALL_TIMEOUT (R342): A stream makes no progress for ZW_CS_STALL µs. -/
  | csStallTimeout (i : Stream)
  /-- LINK_FRAME (R317): A link frame is received, decoded and accepted, or rejected with nak and replay. -/
  | linkFrame (q : Port) (bytes : List Byte)
  /-- PORT_SIGNAL_LOSS (R318): A port loses signal and goes Down. -/
  | portSignalLoss (q : Port)
  /-- PORT_FRAME_TIMEOUT (R318): No frame is accepted for 1 µs, and the port goes Down. -/
  | portFrameTimeout (q : Port)
  /-- PORT_RETRAIN_TIMER (R318): A Down port retrains every 1 ms. -/
  | portRetrainTimer (q : Port)
  /-- LINK_TRAIN_DONE (R318): Training completes, and the port becomes Up or Miswired. -/
  | linkTrainDone (q : Port) (lanes : Nat) (peer : BitVec 15) (peerPort : Port)
  /-- MESSAGE_ROUTE (R322): A head flit is routed dimension by dimension, or dropped. -/
  | messageRoute (q : ArrivePort) (h : Head) (body : List Byte)
  /-- LINE_STATE_ANNOUNCE (R323): A line state announcement updates the line map and is forwarded. -/
  | lineStateAnnounce (q : Port) (dim : Fin 3) (coord : Fin 32) (down : Bool)
  /-- BULK_COPY_DATA (R399): Remote COPY data arrives and is written in the named context. -/
  | bulkCopyData (q : Port) (src : BitVec 15) (gid : W16) (dst : W64) (ctx : Ctx) (data : List Byte)
  /-- COPY_ACK_TIMEOUT (R399): A remote COPY is not acknowledged within ZW_GRP_TMO and fails. -/
  | copyAckTimeout (x : Ctx)
  /-- LINK_SLEEP_IDLE (R343): A port idle for sleep_idle µs sends SLEEP_REQ. -/
  | linkSleepIdle (q : Port)
  /-- SLEEP_REQ (R343): A SLEEP_REQ arrives and is answered with ACK or NAK. -/
  | sleepReq (q : Port)
  /-- SLEEP_ACK (R343): A SLEEP_ACK arrives, and entry proceeds. -/
  | sleepAck (q : Port)
  /-- SLEEP_NAK (R344): A SLEEP_NAK arrives, and the port stays Up. -/
  | sleepNak (q : Port)
  /-- CANCEL (R344): A CANCEL command arrives in a frame. -/
  | cancel (q : Port)
  /-- RETRAIN (R343): A RETRAIN command arrives in a frame and begins exit. -/
  | retrain (q : Port)
  /-- LINK_SLEEP_ENTRY_DONE (R344): The 8 frames after commit are sent, and the transmitters turn off; a latched wake begins exit. -/
  | linkSleepEntryDone (q : Port)
  /-- LINK_WAKE (R343): Traffic for a sleeping port sends a wake burst. -/
  | linkWake (q : Port)
  /-- LINK_SLEEP_EXIT_DONE (R343): A waking port reaches Up. -/
  | linkSleepExitDone (q : Port)
  /-- PORT_CMD_RETRAIN (R346): ZW_PORT_CMD retrain. -/
  | portCmdRetrain (fn : Fn) (q : Port)
  /-- PORT_CMD_WAKE (R346): ZW_PORT_CMD wake. -/
  | portCmdWake (fn : Fn) (q : Port)
  /-- PORT_CMD_SLEEP_NOW (R346): ZW_PORT_CMD sleep now. -/
  | portCmdSleepNow (fn : Fn) (q : Port)
  /-- GROUP_FORM (R345): The form command enters Forming. -/
  | groupForm (fn : Fn) (p : Part)
  /-- GROUP_REFORM (R345): Reform on the anchor runs a census at once. -/
  | groupReform (fn : Fn) (p : Part)
  /-- GROUP_LEAVE (R345): Leave sets Off and aborts the streams. -/
  | groupLeave (fn : Fn) (p : Part)
  /-- GROUP_FORCED_REFORM (R345): A forced reform on a Held anchor forms a group whatever the count. -/
  | groupForcedReform (fn : Fn) (p : Part)
  /-- CENSUS (R329): A census arrives, sets the parent and is forwarded, or is answered not child. -/
  | census (p : Part) (q : Port) (x : CensusKey)
  /-- CENSUS_REPLY (R329): A census reply arrives with a subtree bitmap. -/
  | censusReply (p : Part) (q : Port) (child : Bool) (x : CensusKey) (members : List Nat)
  /-- ANCHOR_CENSUS_REPEAT (R330): While Forming, the anchor repeats the census every 1 ms. -/
  | anchorCensusRepeat (p : Part)
  /-- REFORM_REQ (R331): A REFORM_REQ arrives, and the member enters Reforming and floods it. -/
  | reformReq (p : Part) (x : GroupMsg)
  /-- NEW_GROUP (R331): NEW_GROUP arrives, and the member enters Formed at the new epoch. -/
  | newGroup (p : Part) (q : Port) (x : GroupKey) (members : List Nat)
  /-- HOLD (R331): A HOLD message arrives, and the member enters Held. -/
  | hold (p : Part) (x : GroupMsg)
  /-- GRP_LINK_TIMEOUT (R331): A port toward a member stays Down for ZW_GRP_TMO, and the member enters Reforming. -/
  | grpLinkTimeout (p : Part) (q : Port)
  /-- REFORMING_TIMEOUT (R331): No NEW_GROUP or HOLD arrives within ZW_GRP_TMO, and the member enters Held. -/
  | reformingTimeout (p : Part)
  /-- CONTROL_RESEND (R333): An unacknowledged control message is resent after 100 µs. -/
  | controlResend (q : Port) (key : Nat)
  /-- CONTROL_ACK (R333): A hop-by-hop control acknowledgement arrives. -/
  | controlAck (q : Port) (key : Nat)
  /-- CONTRIBUTION (R339): A contribution arrives and combines into its subtree; the anchor forms the verdict. -/
  | contribution (p : Part) (q : Port) (x : Contribution)
  /-- VERDICT (R289): The verdict arrives; the print engine applies, scraps or retakes. -/
  | verdict (p : Part) (v : VerdictMsg)
  /-- VOTE (R340): A vote entry arrives and combines per shard. -/
  | vote (p : Part) (q : Port) (x : VoteMsg)
  /-- VOTE_RESULT (R295): The vote result arrives, and the engine prints. -/
  | voteResult (p : Part) (x : VoteMsg)
  /-- PRINT_OPEN (R285): The open command starts a take or a retake. -/
  | printOpen (fn : Fn) (p : Part)
  /-- PRINT_CLOSE (R286): The close command enters Closing. -/
  | printClose (fn : Fn) (p : Part)
  /-- PRINT_SKIP (R291): The skip command skip-prints the slate. -/
  | printSkip (fn : Fn) (p : Part)
  /-- PRINT_RELEASE (R290): The release command returns to Idle with the slate unchanged. -/
  | printRelease (fn : Fn) (p : Part)
  /-- PRINT_CONTRIBUTE (R286): The close condition is met, and the module sends its contribution. -/
  | printContribute (p : Part)
  /-- PRINT_TAKE_TIMEOUT (R286): PRINT_TMO expires before contribution, and the module contributes fail code 0x04. -/
  | printTakeTimeout (p : Part)
  /-- APPLY_GROUP_STAGED (R293): The stage count covers a group, staged_hi advances, and copying begins. -/
  | applyGroupStaged (p : Part)
  /-- APPLY_CHUNK_DONE (R293): A chunk's mover read-back returns, applied_hi advances and the journal is written. -/
  | applyChunkDone (p : Part)
  /-- VOTE_JOIN (R295): The module joins the print vote once its staged condition holds. -/
  | voteJoin (p : Part)
  /-- PRINT_HOLD_TIMEOUT (R295): PRINT_HOLD µs pass after the verdict, and the module joins the vote. -/
  | printHoldTimeout (p : Part)
  /-- PRINT_ENABLE_WRITE (R486): The first enable after a warm reset reads the journal and may start replay. -/
  | printEnableWrite (fn : Fn) (p : Part) (val : W32)
  /-- REPLAY_DONE (R294): The journal replay copies finish, and the engine enters Apply. -/
  | replayDone (p : Part)
  /-- PRINT_LSCALE_P_WRITE (R283): A write of the printed scale in Idle also sets the working scale. -/
  | printLscalePWrite (fn : Fn) (p : Part) (val : W32)
  /-- MODE_STAGE (R302): PRINT_MODE_CTL stage command. -/
  | modeStage (fn : Fn) (p : Part) (n : W32)
  /-- MODE_WITHDRAW (R302): PRINT_MODE_CTL withdraw command. -/
  | modeWithdraw (fn : Fn) (p : Part) (n : W32)
  /-- SB_START (R257): Storyboard start command. -/
  | sbStart (fn : Fn) (p : Part)
  /-- SB_STOP (R257): Storyboard stop command. -/
  | sbStop (fn : Fn) (p : Part)
  /-- SB_RESUME (R257): Storyboard resume of a Faulted engine. -/
  | sbResume (fn : Fn) (p : Part)
  /-- SB_LAUNCH (R252): A LAUNCH entry dispatches and enqueues descriptors on clusters. -/
  | sbLaunch (p : Part)
  /-- SB_MOVE (R255): A MOVE entry dispatches a far-tier mover copy. -/
  | sbMove (p : Part)
  /-- SB_PIN (R243): A PIN entry pins granules into a cluster. -/
  | sbPin (p : Part)
  /-- SB_UNPIN (R245): An UNPIN entry unpins granules. -/
  | sbUnpin (p : Part)
  /-- SB_REST (R256): A REST entry opens a rest window. -/
  | sbRest (p : Part)
  /-- SB_SCREEN (R256): A SCREEN entry opens a screen window. -/
  | sbScreen (p : Part)
  /-- SB_END (R253): An END entry ends the run. -/
  | sbEnd (p : Part)
  /-- MOVER_RETRY (R255): After 32 hub cycles, a mover request refused with retry status is reissued. -/
  | moverRetry (m : Fin 8)
  /-- MOVER_COMPLETE (R255): A mover's read-backs return, and the MOVE or COPY completes. -/
  | moverComplete (m : Fin 8)
  /-- MIG_PIN_SWITCH (R243): A granule copy into its slot ends in its switch cycle. -/
  | migPinSwitch (k : Cluster)
  /-- MIG_UNPIN_SWITCH (R245): An unpin write-back ends, the granule switches back and the slot frees. -/
  | migUnpinSwitch (k : Cluster)
  /-- MEM_CL_CARVE_WRITE (R247): A carve-out size write, ignored while a slot is in use. -/
  | memClCarveWrite (fn : Fn) (k : Cluster) (val : W32)
  /-- MEM_FAR_CFG_LOCK (R239): A lock write applies and checks the far-tier configuration. -/
  | memFarCfgLock (fn : Fn) (val : W32)
  /-- REST_WINDOW_END (R417): A REST window's planned exit time or end is reached, and the clusters wake. -/
  | restWindowEnd (k : Cluster)
  /-- SCREEN_WINDOW_END (R443): A SCREEN window ends by cue or time, and held clusters are released. -/
  | screenWindowEnd (k : Cluster)
  /-- PART_SETUP (R381): The set-up command scrubs and prepares a partition's bays. -/
  | partSetup (fn : Fn) (p : Part)
  /-- PART_SETUP_DONE (R381): Set-up completes, and the partition becomes Active. -/
  | partSetupDone (p : Part)
  /-- PART_RELEASE (R382): The release command tears down a partition and frees its bays. -/
  | partRelease (fn : Fn) (p : Part)
  /-- PART_OWNER_WRITE (R383): A change of PART_OWNER clears the clapper and event state. -/
  | partOwnerWrite (fn : Fn) (p : Part) (val : W32)
  /-- GRANULE_OWNER_WRITE (R384): An owner change sets busy and starts zeroing the granule. -/
  | granuleOwnerWrite (fn : Fn) (far : Bool) (g : Fin 4096) (val : Byte)
  /-- GRANULE_ZERO_DONE (R384): Zeroing completes, and busy clears. -/
  | granuleZeroDone (far : Bool) (g : Fin 4096)
  /-- CTX_CREATE (R387): Create a context number for a partition. -/
  | ctxCreate (fn : Fn)
  /-- CTX_DESTROY (R389): Destroy a context if no user names it. -/
  | ctxDestroy (fn : Fn)
  /-- CTX_INVALIDATE (R392): Invalidate cached translations of a range. -/
  | ctxInvalidate (fn : Fn)
  /-- CTX_INVALIDATE_DONE (R392): Every request translated by the old entries completes, and done sets. -/
  | ctxInvalidateDone (fn : Fn)
  /-- RING_REGISTER_WRITE (R396): A write to CTX_SQ, CTX_CQ, CTX_EQ or MOD_EQ restarts its ring. -/
  | ringRegisterWrite (fn : Fn) (ring : RingReg) (val : W64)
  /-- DB_SQ_TAIL (R396): A submission tail doorbell write. -/
  | dbSqTail (fn : Fn) (x : Ctx) (val : W32)
  /-- DB_CQ_HEAD (R400): A completion head doorbell write frees ring space. -/
  | dbCqHead (fn : Fn) (x : Ctx) (val : W32)
  /-- DB_EQ_HEAD (R401): An event head doorbell write frees ring space. -/
  | dbEqHead (fn : Fn) (x : Ctx) (val : W32)
  /-- CMD_NOP (R398): NOP command. -/
  | cmdNop (x : Ctx)
  /-- CMD_START (R399): START command: scrub, reclaim and start the named cores. -/
  | cmdStart (x : Ctx)
  /-- CMD_STOP (R399): STOP command: halt the named cores with code 0x3FFF. -/
  | cmdStop (x : Ctx)
  /-- CMD_HEVENT (R399): HEVENT command writes partition events 48 to 63. -/
  | cmdHevent (x : Ctx)
  /-- CMD_COPY (R399): COPY command on a far-tier mover, local or remote. -/
  | cmdCopy (x : Ctx)
  /-- CMD_PRINT (R399): PRINT command forwards a PRINT_CMD code to the print engine. -/
  | cmdPrint (x : Ctx)
  /-- BAR4_READ (R394): A BAR4 read of HBM, or a denied read. -/
  | bar4Read (fn : Fn) (off : Nat) (len : Nat)
  /-- BAR4_WRITE (R394): A BAR4 write to HBM, or a denied write. -/
  | bar4Write (fn : Fn) (off : Nat) (data : List Byte)
  /-- VF_FLR (R395): A VF Function Level Reset resets its partition's contexts and cores. -/
  | vfFlr (p : Part)
  /-- CL_RUNG_REQUEST (R413): A GAFFER_CL_CTL.req write of 1 to 5 requests a rung. -/
  | clRungRequest (fn : Fn) (k : Cluster) (req : W32)
  /-- CL_WAKE (R414): A GAFFER_CL_CTL.req write of 0 wakes the cluster. -/
  | clWake (fn : Fn) (k : Cluster)
  /-- DRAIN_QUIET (R413): A draining cluster becomes quiet, and its gate edge commits. -/
  | drainQuiet (k : Cluster)
  /-- DRAIN_DEADLINE (R415): The drain deadline expires, and the request is refused or forced. -/
  | drainDeadline (k : Cluster)
  /-- RUNG_ENTRY_DONE (R414): Entry to a rung completes; a latched wake or held request acts. -/
  | rungEntryDone (k : Cluster)
  /-- RUNG_EXIT_DONE (R419): The cluster returns to Rolling, and IDLE_WAKE is charged. -/
  | rungExitDone (k : Cluster) (cycles : W64)
  /-- AUTO_HOLD_IDLE (R416): A quiet cluster reaches hold_idle cycles and is requested to Hold. -/
  | autoHoldIdle (k : Cluster)
  /-- AUTO_STILL_IDLE (R416): A further 64 × still_idle quiet cycles request Still. -/
  | autoStillIdle (k : Cluster)
  /-- STANDBY_ENTER (R420): GAFFER_MOD_CMD enter standby. -/
  | standbyEnter (fn : Fn)
  /-- STANDBY_LEAVE (R421): GAFFER_MOD_CMD leave standby. -/
  | standbyLeave (fn : Fn)
  /-- STANDBY_ENTRY_DONE (R420): The hub clock drops, and the state reads Standby. -/
  | standbyEntryDone
  /-- STANDBY_EXIT_DONE (R421): Leaving standby completes, and waiting accesses are served. -/
  | standbyExitDone
  /-- FREQ_STEP_DONE (R409): A fast-clock step of k completes. -/
  | freqStepDone (d : Die)
  /-- THERMAL_SAMPLE (R422): A 10 µs junction reading, with throttle, trip and shut thresholds. -/
  | thermalSample (d : Die) (sensor : Nat) (temp : Int)
  /-- THERMAL_STEP_DOWN (R422): After 100 µs at or above throttle, kth decreases by 1. -/
  | thermalStepDown (d : Die)
  /-- THERMAL_STEP_UP (R422): After each 1 ms at or below throttle − hyst, kth increases by 1. -/
  | thermalStepUp (d : Die)
  /-- POWER_SAMPLE (R424): A 10 µs input power sample adjusts kmax_pwr. -/
  | powerSample (avg1ms : Nat) (avg100ms : Nat) (avg1s : Nat)
  /-- CURRENT_OVER_LIMIT (R425): The input current exceeds 400 A, and core clocks are gated. -/
  | currentOverLimit (peak : Nat)
  /-- CURRENT_LIMIT_RELEASE (R425): After 100 µs at or below 360 A, the gating ends. -/
  | currentLimitRelease
  /-- BAY_CURRENT_SAMPLE (R425): A 1 µs sample of bay supply current and energy. -/
  | bayCurrentSample (b : Bay) (avg : W16) (mJ : Nat)
  /-- GAFFER_MOD_LOCK_WRITE (R426): The lock write locks every LK register of every gaffer block. -/
  | gafferModLockWrite (fn : Fn)
  /-- REPAIR_ADD (R432): REPAIR_CMD add of the REPAIR_NEW record. -/
  | repairAdd (fn : Fn)
  /-- REPAIR_APPLY (R435): REPAIR_CMD apply takes free pending clusters through Dark. -/
  | repairApply (fn : Fn)
  /-- SCREEN_ACQUIRE (R441): The screen test acquires an eligible quiet cluster. -/
  | screenAcquire (d : Die) (bay : Fin 5)
  /-- SCREEN_STEP_DONE (R444): A pass step completes, recording any defect. -/
  | screenStepDone (k : Cluster) (defect : Option W64)
  /-- SCREEN_RELEASE (R443): A held cluster is restored and released at window end, wake or pass end. -/
  | screenRelease (k : Cluster)
  /-- HBM_PATROL_BURST (R445): A 64-line HBM patrol burst reads and corrects. -/
  | hbmPatrolBurst (i : Stack) (line : Nat) (ce : List Nat) (ue : List Nat)
  /-- WEAR_TICK (R446): Each second the wear gauges accrue equivalent seconds. -/
  | wearTick (temps : List Int) (stackTemps : List Int) (hubTemp : Int)
  /-- WEAR_SAVE (R448): Hourly save of the gauges to non-volatile store. -/
  | wearSave
  /-- TELEM_EVENT (R451): A telemetry event is admitted, coalesced or dropped by fill level. -/
  | telemEvent (e : TelemEv)
  /-- TELEM_FLUSH (R452): flush ms after its first event, a coalesced entry closes. -/
  | telemFlush (src : Byte) (cls : EvClass)
  /-- TELEM_QUEUE_DRAIN (R450): The queue head is written to the PF event ring when it has space. -/
  | telemQueueDrain
  /-- ALARM_RAISE (R453): An alarm is written or coalesced into the alarm ring, and ALARM_N asserts. -/
  | alarmRaise (e : TelemEv)
  /-- ALARM_COPY (R453): A new alarm entry is copied to the PF event ring when space exists. -/
  | alarmCopy
  /-- TELEM_ALARM_HEAD_WRITE (R453): Advancing the alarm head may deassert ALARM_N. -/
  | telemAlarmHeadWrite (fn : Fn) (val : W32)
  /-- METER_PERIODIC_RECORD (R459): Every 60 s the MDM-1 closes and signs a periodic record. -/
  | meterPeriodicRecord (m : Measure)
  /-- METER_POWER_UP_RECORD (R459): At power-up the MDM-1 closes a power-up record. -/
  | meterPowerUpRecord (m : Measure)
  /-- METER_POWER_DOWN_RECORD (R460): The input falls below 40 V, and the MDM-1 closes a power-down record. -/
  | meterPowerDownRecord (m : Measure)
  /-- MDM_CASE_OPEN (R465): The case switch opens; a log entry and log-event record set unsealed. -/
  | mdmCaseOpen (m : Measure)
  /-- MDM_RESEAL (R465): A verifier's re-seal clears unsealed with a log-event record. -/
  | mdmReseal (m : Measure)
  /-- MDM_FIRMWARE_CHANGE (R464): Firmware is changed through the service port inside the case. -/
  | mdmFirmwareChange (m : Measure) (ver : W16) (crc : W32)
  /-- METER_FRAME_SEND (R467): Each second the MDM-1 repeats its latest record on the isolated link. -/
  | meterFrameSend
  /-- METER_FRAME (R467): A meter frame arrives, is accepted or discarded, and closes an apportioning interval. -/
  | meterFrame (bytes : List Byte) (crc : W32)
  /-- METER_LINK_TIMEOUT (R468): No valid frame for 5 s clears link_up. -/
  | meterLinkTimeout
  /-- METER_VARIANT_TIMEOUT (R469): No valid frame 2 s after reset decides variant 0x00. -/
  | meterVariantTimeout
  /-- MDM_READ_RECORD (R466): SMBus 0x10 read record. -/
  | mdmReadRecord (seq : W64) (pecOk : Bool)
  /-- MDM_READ_LATEST (R466): SMBus 0x11 read latest. -/
  | mdmReadLatest (pecOk : Bool)
  /-- MDM_READ_LOG (R466): SMBus 0x20 read log. -/
  | mdmReadLog (n : Nat) (pecOk : Bool)
  /-- MDM_READ_CERTIFICATE (R466): SMBus 0x30 read certificate. -/
  | mdmReadCertificate (n : Nat) (pecOk : Bool)
  /-- MDM_IDENTIFY (R466): SMBus 0x40 identify. -/
  | mdmIdentify (pecOk : Bool)
  /-- POWER_ON_RESET (R478): The input rises through 44 V and starts the power-up sequence. -/
  | powerOnReset
  /-- RESET_N_ASSERT (R476): RESET_N low for 1 µs triggers a cold module reset. -/
  | resetNAssert (ns : Nat)
  /-- PERST_N_ASSERT (R476): PERST_N triggers a cold or warm module reset by perst_warm. -/
  | perstNAssert
  /-- PERST_N_DEASSERT (R479): PERST_N deasserts, and host link training begins. -/
  | perstNDeassert
  /-- MOD_RST_CMD_COLD (R476): MOD_RST_CMD cold reset. -/
  | modRstCmdCold (fn : Fn)
  /-- MOD_RST_CMD_WARM (R476): MOD_RST_CMD warm reset. -/
  | modRstCmdWarm (fn : Fn)
  /-- PF_FLR (R476): A PF Function Level Reset performs a warm module reset. -/
  | pfFlr
  /-- BOOT_READY (R477): The reset sequence completes, MOD_BOOT_STAT reads Ready and MMC_READY asserts. -/
  | bootReady (ms : W32) (stackFail : Option Stack) (dieFail : Option Die) (defects : List W64)
  /-- INPUT_BELOW_42V (R480): The input falls below 42 V, and the dies power down. -/
  | inputBelow42v
  /-- INPUT_BELOW_36V (R496): The input falls below 36 V, and the house domain stops. -/
  | inputBelow36v
  /-- RAIL_FAULT (R480): A rail fault after step 6 powers down the dies. -/
  | railFault (d : Fin 9)
  /-- MOD_BOOT_SERVICE (R487): MOD_BOOT_CMD.service sets Start-up arbiters to Normal. -/
  | modBootService (fn : Fn)
  /-- SET_ENDPOINT_ID (R488): MCTP control Set Endpoint ID. -/
  | setEndpointId (eid : Byte)
  /-- GET_ENDPOINT_ID (R488): MCTP control Get Endpoint ID. -/
  | getEndpointId
  /-- GET_ENDPOINT_UUID (R488): MCTP control Get Endpoint UUID. -/
  | getEndpointUuid
  /-- GET_MCTP_VERSION_SUPPORT (R488): MCTP control Get MCTP Version Support. -/
  | getMctpVersionSupport (typ : Byte)
  /-- GET_MESSAGE_TYPE_SUPPORT (R488): MCTP control Get Message Type Support. -/
  | getMessageTypeSupport
  /-- GET_VENDOR_DEFINED_MSG_SUPPORT (R488): MCTP control Get Vendor Defined Message Support. -/
  | getVendorDefinedMsgSupport (sel : Byte)
  /-- MCTP_GET_STATE (R489): Vendor command Get State. -/
  | mctpGetState
  /-- MCTP_SET_TOPOLOGY (R489): Vendor command Set Topology writes and locks ZW_TOPO. -/
  | mctpSetTopology (val : W32)
  /-- MCTP_RESET_COLD (R489): Vendor Reset type 0, cold module reset. -/
  | mctpResetCold
  /-- MCTP_RESET_WARM (R489): Vendor Reset type 1, warm module reset. -/
  | mctpResetWarm
  /-- MCTP_POWER_OFF (R480): Vendor Reset type 2 powers off the dies. -/
  | mctpPowerOff
  /-- MCTP_READ_REGISTER (R489): Vendor Read Register. -/
  | mctpReadRegister (off : Nat)
  /-- MCTP_READ_ALARM (R489): Vendor Read Alarm. -/
  | mctpReadAlarm (n : Fin 32)
  /-- MCTP_FIRMWARE_UPDATE (R481): Vendor Firmware Update writes a block of the image not booted. -/
  | mctpFirmwareUpdate (block : Nat) (data : List Byte)
  /-- TAP_BYPASS (R490): JTAG BYPASS instruction. -/
  | tapBypass (tdi : Bool)
  /-- TAP_IDCODE (R490): JTAG IDCODE instruction. -/
  | tapIdcode
  /-- TAP_SAMPLE_PRELOAD (R490): JTAG SAMPLE/PRELOAD instruction. -/
  | tapSamplePreload (scan : List Bool)
  /-- TAP_EXTEST (R490): JTAG EXTEST, acting only while RESET_N is asserted. -/
  | tapExtest (tdi : Bool)
  /-- TAP_CLAMP (R490): JTAG CLAMP, acting only while RESET_N is asserted. -/
  | tapClamp (tdi : Bool)
  /-- TAP_HIGHZ (R490): JTAG HIGHZ, acting only while RESET_N is asserted. -/
  | tapHighz (tdi : Bool)
  /-- CXL_ACTIVE_TIMEOUT (R484): 2 s after MMC_READY, ports without Memory_Active read type3 = 0. -/
  | cxlActiveTimeout (active : List CxlDev)
  /-- CXL_DEVICE_EVENT (R484): A CXL device event is read with Get Event Records and cleared. -/
  | cxlDeviceEvent (q : Fin 4) (health : W32)
  /-- NVME_ENABLE (R350): DLY_NVME_CTL.enable resets and initialises the NVMe controller. -/
  | nvmeEnable (fn : Fn) (q : Fin 2) (val : W32)
  /-- NVME_INIT_DONE (R350): Controller initialisation ends, and the port is Ready or Failed. -/
  | nvmeInitDone (q : Fin 2) (ok : Bool) (queues : NvQueues) (mdts : Nat) (nss : List NvNs) (width : BitVec 4) (rate : BitVec 4)
  /-- NVME_READ_COMPLETE (R351): An NVMe Read completes, or is reissued on an error status. -/
  | nvmeReadComplete (q : Fin 2) (tag : Nat) (ok : Bool) (data : List Byte)
  /-- NVME_READ_TIMEOUT (R351): A Read is not complete within tmo ms, and is aborted and reissued. -/
  | nvmeReadTimeout (q : Fin 2) (tag : Nat)
  /-- DLY_STR_ENABLE (R355): A stream enable write starts batch preparation, or is refused. -/
  | dlyStrEnable (fn : Fn) (p : Part) (val : W32)
  /-- DLY_STR_DISABLE (R360): A write of 0 to enable stops reads and discards every batch. -/
  | dlyStrDisable (fn : Fn) (p : Part) (val : W32)
  /-- DLY_STR_CONFIG_WRITE (R360): A stream register write discards unlaunched batches and prepares them again. -/
  | dlyStrConfigWrite (fn : Fn) (p : Part) (off : Nat) (size : Nat) (val : W64)
  /-- DLY_PROJ_WRITE (R366): A projector mask write, ignored if the masks would overlap. -/
  | dlyProjWrite (fn : Fn) (p : Part) (val : W64)
  /-- DLY_SAMPLE_ASSIGN (R366): A free projector takes the next sample in position order. -/
  | dlySampleAssign (p : Part)
  /-- DLY_SAMPLE_DONE (R376): A sample's tokens and header are written with its status. -/
  | dlySampleDone (p : Part) (j : Fin 48)
  /-- DLY_BATCH_READY (R356): Every sample of a batch is written and read back, and a waiting ready list launches. -/
  | dlyBatchReady (p : Part)
  /-- VECTOR_COMPLETE (R156): A vector instruction makes its last result write, leaves the entry stage and completes. -/
  | vectorComplete (c : Core)
  /-- MOVE_COMPLETE (R115): A copy, push, vld, vst, tld or tst writes its last line or has its last unit accepted, and leaves the move queue. -/
  | moveComplete (c : Core)
  /-- SCALAR_LOAD_RETURN (R112): A cluster-store scalar load returns its value after bank arbitration and frees one of the eight outstanding slots. -/
  | scalarLoadReturn (c : Core)
  /-- RESET_N_DEASSERT (R509): RESET_N rises, ending the cold reset trigger, and the count to Ready begins. -/
  | resetNDeassert
  /-- PCIE_CONFIG_REQUEST (R479): A host PCIe configuration request is completed with CRS before Ready and served afterwards, including SR-IOV VF enable. -/
  | pcieConfigRequest (r : CfgReq)
  /-- REGISTER_READ (R404): A control-space read that latches the high half of a 64-bit register, reads 0xFFFF_FFFF with bad_access on a bad size, or reads zero outside a VF's reach. -/
  | registerRead (fn : Fn) (off : Nat) (size : Nat)
  /-- PART_RELEASE_DONE (R382): The halting, disabling, aborting and unpinning of a Releasing partition finish, and it enters Free. -/
  | partReleaseDone (p : Part)
  /-- MOVER_PAGE_FAULT (R399): A far-tier mover's translation reports a page fault, which stops a COPY with FAILED or sets the storyboard Faulted for a MOVE. -/
  | moverPageFault (m : Fin 8)
  /-- SB_FETCH_FAULT (R258): A storyboard entry or descriptor-table fetch meets a page fault, and the engine enters Faulted with a fault record. -/
  | sbFetchFault (p : Part)
  /-- REMOTE_COPY_ACK (R399): The destination module's acknowledgement of a remote COPY arrives, and the COPY completes, FAILED if it reports a destination fault. -/
  | remoteCopyAck (x : Ctx) (fault : Option VaKind)
  /-- NVME_ASYNC_EVENT (R349): An NVMe Asynchronous Event Request completes from the controller and sets DLY_NVME_ERR.async_event. -/
  | nvmeAsyncEvent (q : Fin 2)
  /-- MMC_BOOT_FAILED (R481): Neither firmware image verifies, MOD_BOOT_STAT reads Failed with code 0x01, and the MMC runs ROM recovery. -/
  | mmcBootFailed
  deriving DecidableEq, Repr

end Sys2Proof
end

