-- ==== Sys2Proof/Decode.lean ====
section
/-!
DEFINITION. The command a word of the opcode table spells. The table gives none of its rows bits: the module's commands are
register accesses, messages and events. The 64-bit Octix word has its decoder and encoder in Machine/Operands.lean.
-/
namespace Sys2Proof

/-- No row of the opcode table has bits, so no word spells a command. -/
def decodeTableWord (_nbits _w : Nat) : Option Instr := none

end Sys2Proof
end

