-- ==== Sys2Proof/Config.lean ====
section
/-!
DEFINITION. What an implementation fixes and the values the spec leaves open: opaque constants, so that nothing proved of
the model can rest on one of their values.
-/
namespace Sys2Proof

/-! ## What a projector's standards speak of (13_dailies.md Table 13.3) -/

/-- The codecs. -/
inductive Codec where
  | mpeg2 | h264 | hevc | av1
  deriving DecidableEq, Repr, Inhabited

/-- The profiles the table names, and the rest. -/
inductive Profile where
  | constrainedBaseline | main | main10 | high | other
  deriving DecidableEq, Repr, Inhabited

/-- What a stream says of the picture of an access unit: profile; level, ten times its number, and for MPEG-2 1 to 4 from Low to
High; luma size of a frame; bit depth; whether 4:2:0, whether monochrome; matrix_coefficients. -/
structure StreamInfo where
  profile : Profile
  level : Nat
  width : Nat
  height : Nat
  depth : Nat
  c420 : Bool
  mono : Bool
  matrix : Nat
  deriving DecidableEq, Repr, Inhabited

/-- A picture: size in luma samples, bit depth, whether monochrome and interlaced, and its planes by row. -/
structure Picture where
  width : Nat
  height : Nat
  depth : Nat
  mono : Bool
  interlaced : Bool
  y : List (List Nat)
  cb : List (List Nat)
  cr : List (List Nat)
  deriving DecidableEq, Repr, Inhabited

/-- A coded picture is a frame or one field. -/
inductive FieldKind where
  | frame | top | bottom
  deriving DecidableEq, Repr, Inhabited

/-- What an access unit decodes to: its place in output order, its kind and its picture; none at a syntax error, a missing
reference or incomplete data. -/
structure CodedPicture where
  order : Nat
  kind : FieldKind
  picture : Option Picture
  deriving DecidableEq, Repr, Inhabited

namespace Config

/-- A free value: the n-th value the spec leaves undefined or does not state (log 9). A step applies it to the counter of
free values in State and advances the counter. -/
opaque freeWord : Nat → W64

/-- The PCI vendor identifier that a configuration request reads, which the spec does not give. -/
opaque pciVendor : BitVec 16

/-- Which 256-byte interleave units share an HBM channel: the mapping of stack offsets to channels (R234). -/
opaque hbmChannel : Nat → Nat

/-- What a core, or a transfer in space 0 or 2, reads in a carve-out slot in use, and what such a write leaves in the slot's
granule (R247): the spec leaves the data unspecified. Applied to the counter of free values and the byte's address. -/
opaque carveByte : Nat → Nat → Byte

/-- The metrology unit's signature of a record body (R461), r and s: a function of its serial number and bytes 0 to 127. -/
opaque mdmSignR : W64 → List Byte → BitVec 256
/-- The second half of the signature. -/
opaque mdmSignS : W64 → List Byte → BitVec 256

/-- The DER certificate that Decest issues for a serial number (R461). -/
opaque mdmCertificate : W64 → List Byte

/-- The ratings code that the metrology unit identifies with (Table 17.4). -/
opaque mdmRatings : W32

/-- The time of the n-th entry of the metrological log, whose clock the spec does not state (Table 17.4). -/
opaque mdmTime : Nat → W64

/-- An image's ECDSA signature verifies against the fused key hash (R481). -/
opaque fwVerifies : List (Nat × Byte) → Bool

/-- The version a firmware image carries (R481). -/
opaque fwVersion : List (Nat × Byte) → W16

/-- The endpoint's UUID (R488). -/
opaque mctpUuid : BitVec 128

/-- The version the endpoint reports for a message type (R488). -/
opaque mctpVersion : Byte → W32

/-- The command set version the endpoint reports (R488). -/
opaque mctpVendorSet : W16

/-- The level of a land that the module does not drive, by column of Table 19.6 and by the counter of free values, as a boundary
scan captures it (R490). -/
opaque landLevel : Nat → Nat → Bool

/-- The lengths of the access units of an elementary stream, as its codec's standard parts it (R364). -/
opaque unitLengths : Codec → List Byte → List Nat

/-- The codec of an elementary stream whose stream type no PMT gives (R361). -/
opaque esCodec : List Byte → Codec

/-- What a stream says of its last access unit: from the sample entry of a container and the units so far (R364, R365). -/
opaque unitInfo : Codec → List Byte → List (List Byte) → StreamInfo

/-- The decoding of the last of a list of access units, bit-exactly as the codec's standard defines it (R364): from the sample entry
of a container, the units so far and the pictures before it, in decode order, with the replacements of R367. -/
opaque decodeUnit : Codec → List Byte → List (List Byte) → List Picture → CodedPicture

end Config
end Sys2Proof
end

