-- ==== Sys2Proof/Machine/Bits.lean ====
section
/-!
DEFINITION. Bit-field, byte-order and sign-extension helpers (00_scope.md R8: a field [hi:lo] includes both bits,
multi-byte values are little-endian).
-/
namespace Sys2Proof.Machine

/-- Field [hi:lo] of a number. -/
def nbits (v hi lo : Nat) : Nat := (v >>> lo) % 2 ^ (hi + 1 - lo)

/-- Field [hi:lo] of a number set to `x`, cut to the field. -/
def nput (v hi lo x : Nat) : Nat :=
  v - (nbits v hi lo) <<< lo + (x % 2 ^ (hi + 1 - lo)) <<< lo

/-- Field [hi:lo] of a bit vector, as a number. -/
def bits {w : Nat} (v : BitVec w) (hi lo : Nat) : Nat := nbits v.toNat hi lo

/-- One bit of a bit vector. -/
def bit {w : Nat} (v : BitVec w) (i : Nat) : Bool := v.toNat.testBit i

/-- Field [hi:lo] of a bit vector set to `x`. -/
def put {w : Nat} (v : BitVec w) (hi lo x : Nat) : BitVec w :=
  BitVec.ofNat w (nput v.toNat hi lo x)

/-- A Boolean as the number a one-bit field holds. -/
def b2n (b : Bool) : Nat := if b then 1 else 0

/-- The number a little-endian byte list holds. -/
def leNat : List Byte → Nat
  | [] => 0
  | b :: bs => b.toNat + 256 * leNat bs

/-- The low `n` bytes of a number, little-endian. -/
def leBytes : Nat → Nat → List Byte
  | 0, _ => []
  | n + 1, v => BitVec.ofNat 8 v :: leBytes n (v / 256)

/-- The low `w` bits of a number as a signed value. -/
def toSigned (w v : Nat) : Int :=
  if v % 2 ^ w < 2 ^ (w - 1) then (v % 2 ^ w : Nat) else (v % 2 ^ w : Nat) - (2 ^ w : Nat)

/-- The 64-bit value of a 32-bit immediate, sign-extended (04_octix_isa.md R103). -/
def sext32 (v : Nat) : W64 := BitVec.ofInt 64 (toSigned 32 v)

/-- A counter of `w` bits that saturates at its largest value (03_octix_core.md R70). -/
def satAdd (w a n : Nat) : Nat := min (a + n) (2 ^ w - 1)

/-- The numbers lo, lo + 1, ... of which there are `n`. -/
def natsFrom (lo n : Nat) : List Nat := (List.range n).map (lo + ·)

/-- The largest integer not above the square root of `n`, found bit by bit from bit `k - 1`. -/
def isqrt (n : Nat) : Nat → Nat → Nat
  | 0, r => r
  | k + 1, r => isqrt n k (if (r + 2 ^ k) * (r + 2 ^ k) ≤ n then r + 2 ^ k else r)

/-- Floor division of an integer by a positive power of two. -/
def floorShift (x : Int) (k : Nat) : Int := x.fdiv ((2 ^ k : Nat) : Int)

end Sys2Proof.Machine
end

