-- ==== Sys2Proof/Machine/RegMap.lean ====
section
/-!
DEFINITION. The control-space map (14_partitions_host.md Table 14.10): the offset of every register, and for each register
its width, its reset value and which of its bits have which access type (Table 0.4). Offsets are those of the register
tables of the chapters.
-/
namespace Sys2Proof.Machine

/-- A register: width in bytes, reset value, the masks of its RW, W1C, LK and WO1 bits (the rest are RO, or WO and read
zero, or rsvd), for LK bits the offset and bit of the lock that fixes them, and whether a write acts as a command. -/
structure RegInfo where
  size : Nat
  reset : Nat := 0
  rw : Nat := 0
  w1c : Nat := 0
  lk : Nat := 0
  wo1 : Nat := 0
  lock : Nat × Nat := (0, 0)
  cmd : Bool := false
  deriving DecidableEq, Repr

/-- A read-only register. -/
def regRO (size : Nat) (reset : Nat := 0) : Option RegInfo := some { size := size, reset := reset }
/-- A register whose named bits are RW. -/
def regRW (size mask : Nat) (reset : Nat := 0) : Option RegInfo := some { size := size, reset := reset, rw := mask }
/-- A register whose named bits are W1C. -/
def regW1C (mask : Nat) : Option RegInfo := some { size := 4, w1c := mask }
/-- A 32-bit register whose writes act and are not held: a command, or the go bit of a reel or stream. -/
def regCmd : Option RegInfo := some { size := 4, cmd := true }

/-- All 32 bits. -/
def m32 : Nat := 0xFFFFFFFF
/-- All 64 bits. -/
def m64 : Nat := 0xFFFFFFFFFFFFFFFF

/-! ## Cluster blocks (08 R231, 09 R262, 10 R281, 15 R427) -/

/-- The base of a C-die's block. -/
def dieBase (d : Nat) : Nat := 0x01000000 + d * 0x100000
/-- The base of a cluster's block; `k` is 625 × die + cluster. -/
def clBase (k : Nat) : Nat := dieBase (k / 625) + k % 625 * 0x400
/-- The base of a dolly channel's registers. -/
def chBase (k ch : Nat) : Nat := clBase k + 0x30 * ch
def rChCtl (k ch : Nat) : Nat := chBase k ch
def rChCmd (k ch : Nat) : Nat := chBase k ch + 0x04
def rChStat (k ch : Nat) : Nat := chBase k ch + 0x08
def rChErr (k ch : Nat) : Nat := chBase k ch + 0x0C
def rChDone (k ch : Nat) : Nat := chBase k ch + 0x10
def rChFseq (k ch : Nat) : Nat := chBase k ch + 0x14
def rChFrow (k ch : Nat) : Nat := chBase k ch + 0x18
def rChAbandon (k ch : Nat) : Nat := chBase k ch + 0x1C
def rChFaddr (k ch : Nat) : Nat := chBase k ch + 0x20
def rChWaste (k ch : Nat) : Nat := chBase k ch + 0x28
def rDollyCfg (k : Nat) : Nat := clBase k + 0x300
def rDollyOut (k : Nat) : Nat := clBase k + 0x304
def rDollyRetry (k : Nat) : Nat := clBase k + 0x308
def rDollyRbytes (k : Nat) : Nat := clBase k + 0x310
def rDollyWbytes (k : Nat) : Nat := clBase k + 0x318
def rClCarve (k : Nat) : Nat := clBase k + 0x340
def rGafClCtl (k : Nat) : Nat := clBase k + 0x344
def rGafClStat (k : Nat) : Nat := clBase k + 0x348
def rGafClWakes (k : Nat) : Nat := clBase k + 0x34C
def rGafClLow (k : Nat) : Nat := clBase k + 0x350
def rArbClCtl (k : Nat) : Nat := clBase k + 0x380
def rArbClStarved (k : Nat) : Nat := clBase k + 0x384
def rArbClSlot (k e : Nat) : Nat := clBase k + 0x388 + e
def rArbClLate (k : Nat) : Nat := clBase k + 0x3A4
def rArbClWait (k r : Nat) : Nat := clBase k + 0x3A8 + 4 * r

/-- The registers of a dolly channel (Tables 8.7, 8.8, 8.11). -/
def chanReg (o : Nat) : Option RegInfo :=
  match o with
  | 0x00 => regRW 4 0x0FFFFFFC 0x2044
  | 0x04 => regCmd
  | 0x08 => regRO 4
  | 0x0C => regW1C 0xF
  | 0x10 | 0x14 | 0x18 | 0x1C => regRO 4
  | 0x20 | 0x28 => regRO 8
  | _ => none

/-- The registers of a cluster block (Tables 8.12, 9.12, 10.9, 15.6). -/
def clusterReg (o : Nat) : Option RegInfo :=
  if o < 0x300 then chanReg (o % 0x30)
  else match o with
  | 0x300 => regRW 4 0xFFFF 0x2040
  | 0x304 => regRO 4
  | 0x308 | 0x310 | 0x318 => regRO 8
  | 0x340 => regRW 4 0xF
  | 0x344 => regRW 4 0x110 0x100
  | 0x348 => regRO 4 0x1B
  | 0x34C => regRO 4
  | 0x350 => regRO 8
  | 0x380 => regRW 4 0x1F 0x1B
  | 0x384 => regW1C 0x3FFFF
  | 0x3A4 => regRO 4
  | o =>
    if 0x388 ≤ o ∧ o < 0x3A4 then
      let e := o - 0x388
      regRW 1 0x1F (if e % 7 < 4 then 4 * (e / 7) + e % 7 else if e % 7 < 6 then 16 else 17)
    else if 0x3A8 ≤ o ∧ o < 0x3F0 ∧ o % 4 = 0 then regRO 4
    else none

/-! ## Arbiter blocks (10 R280) -/

/-- What Table 10.1 and R274 give an arbiter block: number of requesters, reset table length, reset ARB_PRIV, lk usable. -/
structure ArbKind where
  nreq : Nat
  len : Nat
  priv : Nat
  lockable : Bool
  deriving DecidableEq, Repr

def arbHbm : ArbKind := ⟨10, 16, 0x200, true⟩
def arbBridge : ArbKind := ⟨7, 16, 0x40, true⟩
def arbMesh : ArbKind := ⟨5, 5, 0, false⟩
/-- The reset table of a fabric output port has 16 entries (12_zwison_fabric.md R326). -/
def arbFabric : ArbKind := ⟨4, 16, 0x1, true⟩
def arbInject : ArbKind := ⟨4, 16, 0, true⟩
def arbDailies : ArbKind := ⟨13, 16, 0, true⟩

/-- Number of arbiter blocks: per die 2 HBM, 4 bridges, 1 mesh; 6 output ports, injection, Dailies write-back. -/
def arbBlocks : Nat := 64

/-- The base offset of arbiter block `b`: 7 d + i for die d (0, 1 HBM; 2, 3 ring; 4, 5 hub; 6 mesh), then 56 + q output
ports, 62 injection, 63 Dailies write-back (Table 10.5). -/
def arbBase (b : Nat) : Nat :=
  if b < 56 then dieBase (b / 7) + 0xC0000 + 0x400 * (b % 7)
  else if b < 62 then 0x0010C000 + 0x400 * (b - 56)
  else if b = 62 then 0x0010D800 else 0x0020C000

/-- The kind of arbiter block `b`. -/
def arbKind (b : Nat) : ArbKind :=
  if b < 56 then (if b % 7 < 2 then arbHbm else if b % 7 < 6 then arbBridge else arbMesh)
  else if b < 62 then arbFabric else if b = 62 then arbInject else arbDailies

def rArbCtl (b : Nat) : Nat := arbBase b
def rArbPtr (b : Nat) : Nat := arbBase b + 0x004
def rArbStarved (b : Nat) : Nat := arbBase b + 0x008
def rArbMasked (b : Nat) : Nat := arbBase b + 0x00C
def rArbPriv (b : Nat) : Nat := arbBase b + 0x010
def rArbAdmit (b phase : Nat) : Nat := arbBase b + (if phase = 0 then 0x014 else if phase = 2 then 0x018 else 0x01C)
def rArbCmd (b : Nat) : Nat := arbBase b + 0x020
def rArbLock (b : Nat) : Nat := arbBase b + 0x024
def rArbQuota (b r : Nat) : Nat := arbBase b + 0x040 + r
def rArbSlot (b e : Nat) : Nat := arbBase b + 0x080 + e
def rArbCnt (b r i : Nat) : Nat := arbBase b + 0x100 + 0x20 * r + 4 * i

/-- The registers of an arbiter block (Tables 10.6 to 10.8). -/
def arbReg (b o : Nat) : Option RegInfo :=
  let k := arbKind b
  let lock := (arbBase b + 0x024, 0)
  match o with
  | 0x000 => some { size := 4, reset := 0x04002000 + k.len - 1, rw := 0xFF032000, lk := 0x3F, lock := lock }
  | 0x004 => regRO 4
  | 0x008 => regW1C (2 ^ k.nreq - 1)
  | 0x00C => regRO 4
  | 0x010 => some { size := 4, reset := k.priv, lk := m32, lock := lock }
  | 0x014 | 0x018 | 0x01C => some { size := 4, reset := m32, lk := m32, lock := lock }
  | 0x020 => regCmd
  | 0x024 => some { size := 4, wo1 := 1 }
  | o =>
    if 0x040 ≤ o ∧ o < 0x040 + k.nreq then some { size := 1, lk := 0xFF, lock := lock }
    else if 0x080 ≤ o ∧ o < 0x0C0 then
      some { size := 1, reset := if o = 0x080 + k.len - 1 ∧ k.lockable then 0x5F else 0x1F
             lk := if k.lockable then 0x5F else 0x1F, lock := lock }
    else if 0x100 ≤ o ∧ o < 0x100 + 0x20 * k.nreq ∧ o % 4 = 0 then regRO 4
    else none

/-- The arbiter block an offset lies in. -/
def arbOfOffset (off : Nat) : Option Nat :=
  if 0x01000000 ≤ off ∧ off < 0x01800000 then
    let d := (off - 0x01000000) / 0x100000
    let o := off % 0x100000
    if 0xC0000 ≤ o ∧ o < 0xC0000 + 7 * 0x400 then some (7 * d + (o - 0xC0000) / 0x400) else none
  else if 0x0010C000 ≤ off ∧ off < 0x0010D800 then some (56 + (off - 0x0010C000) / 0x400)
  else if 0x0010D800 ≤ off ∧ off < 0x0010DC00 then some 62
  else if 0x0020C000 ≤ off ∧ off < 0x0020C400 then some 63
  else none

/-! ## Memory tiers (09 R262) -/

def rMemCap : Nat := 0x00300000
def rFarCfg : Nat := 0x00300008
def rFarSize : Nat := 0x00300010
def rFarHbase : Nat := 0x00300018
def rFarHsize : Nat := 0x00300020
def rCxlStat (q : Nat) : Nat := 0x00300030 + 4 * q
def rMoveBytes : Nat := 0x00300040
def sbBase (e : Nat) : Nat := 0x00301000 + 0x100 * e
def rSbCtl (e : Nat) : Nat := sbBase e
def rSbBase (e : Nat) : Nat := sbBase e + 0x08
def rSbCmd (e : Nat) : Nat := sbBase e + 0x10
def rSbStat (e : Nat) : Nat := sbBase e + 0x14
def rSbCue (e : Nat) : Nat := sbBase e + 0x18
def rSbErr (e : Nat) : Nat := sbBase e + 0x1C
def rSbFaddr (e : Nat) : Nat := sbBase e + 0x20
def rSbHeld (e : Nat) : Nat := sbBase e + 0x28
def rSbDisp (e : Nat) : Nat := sbBase e + 0x30
def rPstall (p i : Nat) : Nat := 0x00302000 + 0x80 * p + 8 * i
def rMigUsed (d : Nat) : Nat := 0x00303000 + 0x40 * d
def rMigPins (d : Nat) : Nat := 0x00303008 + 0x40 * d
def rMigRefused (d : Nat) : Nat := 0x00303010 + 0x40 * d
def rMigErr (d : Nat) : Nat := 0x00303014 + 0x40 * d
def rMigWb (d : Nat) : Nat := 0x00303018 + 0x40 * d

/-- The memory-tier registers (Tables 9.9 to 9.11), by offset from 0x0030_0000. -/
def memReg (o : Nat) : Option RegInfo :=
  if 0x1000 ≤ o ∧ o < 0x1C00 then
    match (o - 0x1000) % 0x100 with
    | 0x00 => regRW 4 0x0FFF3F01
    | 0x08 => regRW 8 0x01FFFFFFFFFFFFC0
    | 0x10 => regCmd
    | 0x14 | 0x18 | 0x30 => regRO 4
    | 0x1C => regW1C 0xF
    | 0x20 | 0x28 => regRO 8
    | _ => none
  else if 0x2000 ≤ o ∧ o < 0x2600 then
    (if o % 8 = 0 ∧ o % 0x80 < 96 then regRO 8 else none)
  else if 0x3000 ≤ o ∧ o < 0x3200 then
    match o % 0x40 with
    | 0x00 | 0x10 => regRO 4
    | 0x08 | 0x18 => regRO 8
    | 0x14 => regW1C 3
    | _ => none
  else match o with
  | 0x00 => regRO 4 0x0008FFFF
  | 0x08 => some { size := 4, lk := 0xF3, wo1 := 0x80000000, lock := (rFarCfg, 31) }
  | 0x10 => regRO 8
  | 0x18 => some { size := 8, lk := 0xFFFFFFFFC0000000, lock := (rFarCfg, 31) }
  | 0x20 => some { size := 8, lk := m64, lock := (rFarCfg, 31) }
  | 0x30 | 0x34 | 0x38 | 0x3C => regRO 4
  | 0x40 => regRO 8
  | _ => none

/-! ## Partitions, contexts and module registers (14 R406) -/

def partBase (p : Nat) : Nat := 0x00020000 + 0x100 * p
def rPartCtl (p : Nat) : Nat := partBase p
def rPartCmd (p : Nat) : Nat := partBase p + 0x04
def rPartStat (p : Nat) : Nat := partBase p + 0x08
def rPartErr (p : Nat) : Nat := partBase p + 0x0C
def rPartBays (p : Nat) : Nat := partBase p + 0x10
def rPartOwner (p : Nat) : Nat := partBase p + 0x18
def rPartBar4 (p : Nat) : Nat := partBase p + 0x20
def rPartDeny (p : Nat) : Nat := partBase p + 0x28
def rHbmOwn (g : Nat) : Nat := 0x00021000 + g
def rFarOwn (g : Nat) : Nat := 0x00022000 + g
def ctxWin : Nat := 0x00023000
/-- CTX_NEW_PART, of the one window that is the PF's to write (R406). -/
def rCtxNewPart : Nat := ctxWin + 0x0C
def rModId : Nat := 0x000
def rModErr : Nat := 0x008
def rModEq : Nat := 0x010
def rModEqHead : Nat := 0x018
def rModEqTail : Nat := 0x01C
def rModEqLost : Nat := 0x020
def rModAuditN : Nat := 0x024
def rModLink : Nat := 0x028

/-- The partition registers and ownership tables (Table 14.11), by offset from 0x0002_0000. -/
def partReg (o : Nat) : Option RegInfo :=
  if o < 0xC00 then
    match o % 0x100 with
    | 0x00 => regRW 4 0x0FFF0001
    | 0x04 => regCmd
    | 0x08 => regRO 4
    | 0x0C => regW1C 0xF
    | 0x10 => regRW 8 0xFFFFFFFFFF
    | 0x18 => regRW 4 0xFFF
    | 0x20 => regRW 8 0x000FFFFFC0000000
    | 0x28 => regRO 4
    | _ => none
  else if 0x1000 ≤ o ∧ o < 0x1300 then regRW 1 0x0F 0x0F
  else if 0x2000 ≤ o ∧ o < 0x3000 then regRW 1 0x0F 0x0F
  else if 0x3000 ≤ o ∧ o < 0x3054 then
    match o - 0x3000 with
    | 0x00 => regRW 4 0xFFF
    | 0x04 => regCmd
    | 0x08 | 0x10 | 0x50 => regRO 4
    | 0x0C => regRW 4 0xF
    | 0x18 => regRW 8 0x000FFFFFFFFFF000
    | 0x20 | 0x28 | 0x30 => regRW 8 0xFFFFFFFFFFFFF01F
    | 0x38 => regRW 4 0xFFFF
    | 0x40 => regRW 8 0x01FFFFFFFFFFF000
    | 0x48 => regRW 4 m32
    | 0x4C => regW1C 7
    | _ => none
  else none

/-! ## Gaffers (15 R426, R427) -/

def gafBase (d : Nat) : Nat := 0x00040000 + 0x400 * d
def rGafCtl (d : Nat) : Nat := gafBase d
def rGafDrain (d : Nat) : Nat := gafBase d + 0x04
def rGafFreq (d : Nat) : Nat := gafBase d + 0x08
def rGafTemp (d : Nat) : Nat := gafBase d + 0x0C
def rGafTherm (d : Nat) : Nat := gafBase d + 0x10
def rGafErr (d : Nat) : Nat := gafBase d + 0x14
def rGafRungs (d : Nat) : Nat := gafBase d + 0x18
def rGafThrTherm (d : Nat) : Nat := gafBase d + 0x20
def rGafThrPwr (d : Nat) : Nat := gafBase d + 0x28
def rGafRefused (d : Nat) : Nat := gafBase d + 0x30
def rGafForced (d : Nat) : Nat := gafBase d + 0x34
def rGafBayI (b : Nat) : Nat := gafBase (b / 5) + 0x40 + 4 * (b % 5)
def rGafBayE (b : Nat) : Nat := gafBase (b / 5) + 0x60 + 8 * (b % 5)
def rGafModCmd : Nat := 0x00042000
def rGafModStat : Nat := 0x00042004
def rGafModErr : Nat := 0x00042008
def rGafModPcap : Nat := 0x0004200C
def rGafModPeak : Nat := 0x00042010
def rGafModPower : Nat := 0x00042014
def rGafHclk : Nat := 0x00042018
def rGafModLock : Nat := 0x00042020

/-- The gaffer registers (Tables 15.4 to 15.7), by offset from 0x0004_0000. -/
def gafReg (o : Nat) : Option RegInfo :=
  let lock := (rGafModLock, 0)
  if o < 0x2000 then
    match o % 0x400 with
    | 0x00 => regRW 4 0x00FFFF77 0x00101043
    | 0x04 => regRW 4 0xFFFF 0x0A
    | 0x08 => regRW 4 0x1F 0x00101010
    | 0x0C => regRO 4
    | 0x10 => some { size := 4, reset := 0x6E645C02, lk := m32, lock := lock }
    | 0x14 => regW1C 0x1F
    | 0x18 => regRO 8 0x0000009C40000000
    | 0x20 | 0x28 => regRO 8
    | 0x30 | 0x34 => regRO 4
    | 0x40 | 0x44 | 0x48 | 0x4C | 0x50 => regRO 4
    | 0x60 | 0x68 | 0x70 | 0x78 | 0x80 => regRO 8
    | _ => none
  else match o - 0x2000 with
  | 0x00 => regCmd
  | 0x04 => regRO 4
  | 0x08 => regW1C 3
  | 0x0C => some { size := 4, reset := 0x3A98, lk := 0xFFFF, lock := lock }
  | 0x10 => some { size := 4, reset := 0x4268, lk := 0xFFFF, lock := lock }
  | 0x14 => regRO 4
  | 0x18 => regRO 8
  | 0x20 => some { size := 4, wo1 := 1 }
  | _ => none

/-! ## Print engines (11 R312) -/

def printBase (p : Nat) : Nat := 0x00010000 + 0x400 * p
def rPrCtl (p : Nat) : Nat := printBase p
def rPrCmd (p : Nat) : Nat := printBase p + 0x004
def rPrStat (p : Nat) : Nat := printBase p + 0x008
def rPrErr (p : Nat) : Nat := printBase p + 0x00C
def rPrSlate (p : Nat) : Nat := printBase p + 0x010
def rPrSeed (p : Nat) : Nat := printBase p + 0x018
def rPrLscale (p : Nat) : Nat := printBase p + 0x020
def rPrTmo (p : Nat) : Nat := printBase p + 0x024
def rPrHold (p : Nat) : Nat := printBase p + 0x028
def rPrLscaleP (p : Nat) : Nat := printBase p + 0x02C
def rPrCur (p : Nat) : Nat := printBase p + 0x030
def rPrDigest (p : Nat) : Nat := printBase p + 0x038
def rPrJbase (p : Nat) : Nat := printBase p + 0x040
def rPrAtab (p : Nat) : Nat := printBase p + 0x048
def rPrAtabN (p : Nat) : Nat := printBase p + 0x050
def rPrStgN (p : Nat) : Nat := printBase p + 0x054
def rPrStg (p : Nat) : Nat := printBase p + 0x058
def rPrStgSz (p : Nat) : Nat := printBase p + 0x060
def rPrStaged (p : Nat) : Nat := printBase p + 0x064
def rPrApplied (p : Nat) : Nat := printBase p + 0x068
def rPrEpoch (p : Nat) : Nat := printBase p + 0x06C
def rPrTOpen (p : Nat) : Nat := printBase p + 0x070
def rPrCount (p : Nat) : Nat := printBase p + 0x078
def rPrModeSlate (p : Nat) : Nat := printBase p + 0x080
def rPrModeCtl (p : Nat) : Nat := printBase p + 0x088
def rPrId (p : Nat) : Nat := printBase p + 0x098
def rPrMeOff (p k : Nat) : Nat := printBase p + 0x100 + 0x10 * k
def rPrMeMask (p k : Nat) : Nat := printBase p + 0x104 + 0x10 * k
def rPrMeVal (p k : Nat) : Nat := printBase p + 0x108 + 0x10 * k
def rPrBr (p b o : Nat) : Nat := printBase p + 0x200 + 0x40 * b + o
def rPrFill (p k : Nat) : Nat := printBase p + 0x300 + 8 * k
def rPrFillReclaim (p : Nat) : Nat := printBase p + 0x320
def rPrLast (p w : Nat) : Nat := printBase p + 0x340 + 8 * w

/-- The registers of a print engine (Tables 11.8 to 11.10). -/
def printReg (o : Nat) : Option RegInfo :=
  match o with
  | 0x000 => regRW 4 0xFFFFFFFB 0x07D00038
  | 0x004 => regCmd
  | 0x008 => regRO 4
  | 0x00C => regW1C 0x7F
  | 0x010 | 0x018 | 0x030 | 0x038 | 0x080 => regRW 8 m64
  | 0x020 => regRW 4 0xFFFF 0x1810
  | 0x024 => regRW 4 m32 0x7530
  | 0x028 => regRW 4 0x0FFFFFFF 0x04001388
  | 0x02C => regRW 4 0xFF 0x10
  | 0x040 => regRW 8 0x01FFFFFFFFFFFF00
  | 0x048 => regRW 8 0x01FFFFFFFFFFFFE0
  | 0x050 | 0x054 | 0x060 => regRW 4 m32
  | 0x058 => regRW 8 0x01FFFFFFFFFFFFC0
  | 0x064 | 0x068 | 0x06C => regRO 4
  | 0x070 | 0x078 | 0x320 => regRO 8
  | 0x088 => regRW 4 0x1F
  | 0x098 => regRW 8 0xFFFFFFFFF
  | o =>
    if 0x100 ≤ o ∧ o < 0x200 then
      match o % 0x10 with
      | 0x0 => regRW 4 0x03FFFFFC
      | 0x4 | 0x8 => regRW 4 m32
      | _ => none
    else if 0x200 ≤ o ∧ o < 0x300 then
      match o % 0x40 with
      | 0x00 => regRW 8 0xFFFFFFFFFF
      | 0x08 => regRW 4 m32
      | 0x10 | 0x18 | 0x20 | 0x28 | 0x30 => regRO 8
      | _ => none
    else if 0x300 ≤ o ∧ o < 0x320 ∧ o % 8 = 0 then regRW 8 0xFFFF00001FFF
    else if 0x340 ≤ o ∧ o < 0x380 ∧ o % 8 = 0 then regRO 8
    else none

/-! ## Zwison: reels (07 R192), ports, groups (12 R346), streams (12 R347) -/

def rTopo : Nat := 0x00100000
def rZwLock : Nat := 0x00100004
def rZwDrop (i : Nat) : Nat := 0x00100010 + 4 * i
def rLinemap (n : Nat) : Nat := 0x00100040 + 4 * n
def rSwNf : Nat := 0x00100050
def portBase (q : Nat) : Nat := 0x00101000 + 0x100 * q
def rPortCtl (q : Nat) : Nat := portBase q
def rPortStat (q : Nat) : Nat := portBase q + 0x04
def rPortErr (q : Nat) : Nat := portBase q + 0x08
def rPortCmd (q : Nat) : Nat := portBase q + 0x0C
def rPortCorr (q : Nat) : Nat := portBase q + 0x10
def rPortUncorr (q : Nat) : Nat := portBase q + 0x18
def rPortReplay (q : Nat) : Nat := portBase q + 0x1C
def rPortRetrain (q : Nat) : Nat := portBase q + 0x20
def rPortTx (q : Nat) : Nat := portBase q + 0x28
def rPortRx (q : Nat) : Nat := portBase q + 0x30
def rPortSlept (q : Nat) : Nat := portBase q + 0x38
def grpBase (p : Nat) : Nat := 0x00102000 + 0x100 * p
def rGrpCtl (p : Nat) : Nat := grpBase p
def rGrpAnchor (p : Nat) : Nat := grpBase p + 0x04
def rGrpBox (p : Nat) : Nat := grpBase p + 0x08
def rGrpMap (p : Nat) : Nat := grpBase p + 0x10
def rGrpTmo (p : Nat) : Nat := grpBase p + 0x18
def rGrpCmd (p : Nat) : Nat := grpBase p + 0x1C
def rGrpStat (p : Nat) : Nat := grpBase p + 0x20
def rGrpRank (p : Nat) : Nat := grpBase p + 0x24
def rGrpEpoch (p : Nat) : Nat := grpBase p + 0x28
def rGrpErr (p : Nat) : Nat := grpBase p + 0x2C
def csBase (i : Nat) : Nat := 0x00104000 + 0x80 * i
def rCsCtl (i : Nat) : Nat := csBase i
def rCsLen (i : Nat) : Nat := csBase i + 0x08
def rCsXcap (i : Nat) : Nat := csBase i + 0x0C
def rCsLbuf (i : Nat) : Nat := csBase i + 0x10
def rCsRbuf (i : Nat) : Nat := csBase i + 0x18
def rCsLand (i : Nat) : Nat := csBase i + 0x20
def rCsGo (i : Nat) : Nat := csBase i + 0x28
def rCsErr (i : Nat) : Nat := csBase i + 0x2C
def rCsOwn (i : Nat) : Nat := csBase i + 0x30
def rCsWaitP (i : Nat) : Nat := csBase i + 0x38
def rCsWaitL (i : Nat) : Nat := csBase i + 0x40
def rCsDrop (i : Nat) : Nat := csBase i + 0x48
def rCsStall (i : Nat) : Nat := csBase i + 0x4C
def reelBase (r : Nat) : Nat := 0x00108000 + 0x80 * r
def rRlCtl (r : Nat) : Nat := reelBase r
def rRlRing (r : Nat) : Nat := reelBase r + 0x04
def rRlSeg (r : Nat) : Nat := reelBase r + 0x08
def rRlTaps (r : Nat) : Nat := reelBase r + 0x0C
def rRlSrc (r : Nat) : Nat := reelBase r + 0x10
def rRlBuf (r : Nat) : Nat := reelBase r + 0x18
def rRlGo (r : Nat) : Nat := reelBase r + 0x20
def rRlStall (r : Nat) : Nat := reelBase r + 0x24
def rRlLanded (r : Nat) : Nat := reelBase r + 0x28
def rRlSent (r : Nat) : Nat := reelBase r + 0x2C
def rRlFreed (r : Nat) : Nat := reelBase r + 0x30
def rRlCredit (r : Nat) : Nat := reelBase r + 0x34
def rRlErr (r : Nat) : Nat := reelBase r + 0x38
def rRlBytes (r : Nat) : Nat := reelBase r + 0x40

/-- The fabric registers (Tables 7.4 to 7.7, 12.11, 12.12), by offset from 0x0010_0000. -/
def zwReg (o : Nat) : Option RegInfo :=
  if o < 0x1000 then
    match o with
    | 0x00 => some { size := 4, lk := 0x3FFFFFFF, lock := (rZwLock, 0) }
    | 0x04 => some { size := 4, wo1 := 1 }
    | 0x50 => regW1C 0xFFF
    | 0x10 | 0x14 | 0x18 | 0x1C | 0x20 | 0x24 | 0x28 | 0x2C => regRO 4
    | 0x40 | 0x44 | 0x48 => regRO 4
    | _ => none
  else if o < 0x1600 then
    match o % 0x100 with
    | 0x00 => regRW 4 0x00FFFF03 0x6403
    | 0x04 | 0x18 | 0x1C | 0x20 => regRO 4
    | 0x08 => regW1C 0x3F
    | 0x0C => regCmd
    | 0x10 | 0x28 | 0x30 | 0x38 => regRO 8
    | _ => none
  else if 0x2000 ≤ o ∧ o < 0x2C00 then
    match o % 0x100 with
    | 0x00 => regRW 4 0xFFFFFFF1
    | 0x04 => regRW 4 0x7FFF
    | 0x08 => regRW 4 0x3FFFFFFF
    | 0x10 => regRW 8 0x01FFFFFFFFFFF000
    | 0x18 => regRW 4 0xFFFF 0x32
    | 0x1C => regCmd
    | 0x20 | 0x24 | 0x28 => regRO 4
    | 0x2C => regW1C 0xF
    | _ => none
  else if 0x4000 ≤ o ∧ o < 0x6000 then
    match o % 0x80 with
    | 0x00 => regRW 8 0x00000FFF00FF77FF
    | 0x08 => regRW 4 m32
    | 0x0C => regRW 4 0x007FFFFF
    | 0x10 | 0x18 => regRW 8 0x01FFFFFFFFFFFFC0
    | 0x20 => regRW 8 0x01FFFFFFFFFF0000
    | 0x28 => regCmd
    | 0x2C => regW1C 0x1F
    | 0x30 | 0x38 | 0x40 => regRO 8
    | 0x48 => regRO 4
    | 0x4C => regRW 4 0x00FFFFFF 0xC350
    | _ => none
  else if 0x8000 ≤ o ∧ o < 0x8800 then
    match o % 0x80 with
    | 0x00 => regRW 4 0x0FFF00F3
    | 0x04 => regRW 4 0xFFFF773F
    | 0x08 => regRW 4 0xFFFFF3FF
    | 0x0C => regRW 4 0xFFFF 1
    | 0x10 => regRW 8 0x01FFFFFFFFFFFFC0
    | 0x18 => regRW 8 0x01FFFFFFFFFF000F
    | 0x20 => regCmd
    | 0x24 => regRW 4 0x00FFFFFF 0xC350
    | 0x28 | 0x2C | 0x30 | 0x34 => regRO 4
    | 0x38 => regW1C 0x3F
    | 0x40 => regRO 8
    | _ => none
  else none

/-! ## Dailies (13 R377) -/

def rDlyCap : Nat := 0x00200000
def rDlyCfg : Nat := 0x00200004
def rDlyProjBusy : Nat := 0x00200008
def rDlyPixels : Nat := 0x00200010
def nvBase (q : Nat) : Nat := 0x00200100 + 0x80 * q
def rNvCtl (q : Nat) : Nat := nvBase q
def rNvStat (q : Nat) : Nat := nvBase q + 0x04
def rNvErr (q : Nat) : Nat := nvBase q + 0x08
def rNvRbytes (q : Nat) : Nat := nvBase q + 0x10
def rNvCmds (q : Nat) : Nat := nvBase q + 0x18
def rNvRetry (q : Nat) : Nat := nvBase q + 0x20
def rNvTmo (q : Nat) : Nat := nvBase q + 0x24
def strBase (p : Nat) : Nat := 0x00201000 + 0x100 * p
def rStrCtl (p : Nat) : Nat := strBase p
def rStrRec (p : Nat) : Nat := strBase p + 0x08
def rStrN (p : Nat) : Nat := strBase p + 0x10
def rStrStep (p : Nat) : Nat := strBase p + 0x18
def rStrShare (p : Nat) : Nat := strBase p + 0x20
def rStrBuf (p : Nat) : Nat := strBase p + 0x28
def rStrStride (p : Nat) : Nat := strBase p + 0x30
def rStrRlist (p : Nat) : Nat := strBase p + 0x38
def rStrRln (p : Nat) : Nat := strBase p + 0x40
def rStrAud (p : Nat) : Nat := strBase p + 0x44
def rStrProj (p : Nat) : Nat := strBase p + 0x48
def rStrNs (p : Nat) : Nat := strBase p + 0x50
def rStrStat (p : Nat) : Nat := strBase p + 0x58
def rStrErr (p : Nat) : Nat := strBase p + 0x5C
def rStrEpoch (p : Nat) : Nat := strBase p + 0x60
def rStrSamples (p : Nat) : Nat := strBase p + 0x68
def rStrConcealed (p : Nat) : Nat := strBase p + 0x70
def rStrTrunc (p : Nat) : Nat := strBase p + 0x74
def rStrFailed (p : Nat) : Nat := strBase p + 0x78
def rStrRefetch (p : Nat) : Nat := strBase p + 0x7C
def rFrmCrop (p : Nat) : Nat := strBase p + 0x80
def rFrmJit (p : Nat) : Nat := strBase p + 0x88
def rFrmOut (p : Nat) : Nat := strBase p + 0x8C
def rFrmTok (p : Nat) : Nat := strBase p + 0x90
def rFrmCol (p : Nat) : Nat := strBase p + 0x94
def rFrmMean (p k : Nat) : Nat := strBase p + 0xA0 + 4 * k
def rFrmScale (p k : Nat) : Nat := strBase p + 0xB0 + 4 * k

/-- The Dailies registers (Tables 13.10, 13.11), by offset from 0x0020_0000. -/
def dlyReg (o : Nat) : Option RegInfo :=
  if o < 0x100 then
    match o with
    | 0x00 => regRO 4 0x00020030
    | 0x04 => regRW 4 0x00FFFF0F 0x6403
    | 0x08 | 0x10 => regRO 8
    | _ => none
  else if o < 0x200 then
    match o % 0x80 with
    | 0x00 => regRW 4 0xFFFF0001 0x04000000
    | 0x04 | 0x20 | 0x24 => regRO 4
    | 0x08 => regW1C 0xF
    | 0x10 | 0x18 => regRO 8
    | _ => none
  else if 0x1000 ≤ o ∧ o < 0x1C00 then
    match o % 0x100 with
    | 0x00 => regRW 4 0x0FFFFF81 0x280
    | 0x08 => regRW 8 0x01FFFFFFFFFFFFE0
    | 0x10 => regRW 8 0x0001FFFFFFFFFFFF
    | 0x18 => regRW 4 0x01FFFFFF
    | 0x20 => regRW 8 0xFFFFFFFFFFFF
    | 0x28 | 0x38 => regRW 8 0x01FFFFFFFFFFF000
    | 0x30 | 0x58 | 0x70 | 0x74 | 0x78 | 0x7C => regRO 4
    | 0x40 => regRW 4 0x7F
    | 0x44 => regRW 4 0x01FFFFC0
    | 0x48 => regRW 8 0xFFFFFFFFFFFF
    | 0x50 => regRW 8 m64
    | 0x5C => regW1C 7
    | 0x60 | 0x68 => regRO 8
    | 0x80 => regRW 8 0xFFFFFFFFFFFF
    | 0x88 | 0x8C => regRW 4 0x00FFFFFF
    | 0x90 => regRW 4 0x0FFF1FFF 0x310
    | 0x94 => regRW 4 0x1F 0x7
    | 0xA0 | 0xA4 | 0xA8 => regRW 4 m32
    | 0xB0 | 0xB4 | 0xB8 => regRW 4 m32 0x3F800000
    | _ => none
  else none

/-! ## Repair, screen, wear, telemetry (16 R456) -/

def rRepStat : Nat := 0x00050000
def rRepCmd : Nat := 0x00050004
def rRepErr : Nat := 0x00050008
def rRepNew : Nat := 0x00050010
def rRepBayOk : Nat := 0x00050018
def rRepSel : Nat := 0x00050020
def rRepRec : Nat := 0x00050028
def rRepCe (d : Nat) : Nat := 0x00050040 + 8 * d
def rScrCtl : Nat := 0x00051000
def rScrStat : Nat := 0x00051004
def rScrErr : Nat := 0x00051008
def rScrPasses : Nat := 0x00051010
def rScrOldest : Nat := 0x00051018
def rScrAborts : Nat := 0x0005101C
def rScrDefects : Nat := 0x00051020
def rScrHbmPass : Nat := 0x00051024
def rWearCfg : Nat := 0x00052000
def rWearHbm (s : Nat) : Nat := 0x00052100 + 16 * s
def rWearHbmUe (s : Nat) : Nat := 0x00052108 + 16 * s
def rWearLink (q : Nat) : Nat := 0x00052200 + 16 * q
def rWearCl (k : Nat) : Nat := 0x00058000 + 4 * k
def rTelCtl : Nat := 0x00060000
def rTelStat : Nat := 0x00060004
def rAlHead : Nat := 0x00060008
def rAlTail : Nat := 0x0006000C
def rAlN : Nat := 0x00060010
def rTelCount (c : Nat) : Nat := 0x00060020 + 4 * c
def rAlarm (e w : Nat) : Nat := 0x00061000 + 128 * e + 8 * w
def rTelLost (s c : Nat) : Nat := 0x00062000 + 16 * s + 4 * c

/-- The repair, screen and wear registers (Table 16.7), by offset from 0x0005_0000. -/
def repReg (o : Nat) : Option RegInfo :=
  if 0x40 ≤ o ∧ o < 0x80 ∧ o % 8 = 0 then regRO 8
  else if 0x2100 ≤ o ∧ o < 0x2200 then
    (if o % 16 = 0 then regRO 8 else if o % 16 = 8 then regRO 4 else none)
  else if 0x2200 ≤ o ∧ o < 0x2260 ∧ o % 16 = 0 then regRO 8
  else if 0x8000 ≤ o ∧ o < 0x8000 + 20000 ∧ o % 4 = 0 then regRO 4
  else match o with
  | 0x00 => regRO 4
  | 0x04 => regCmd
  | 0x08 => regW1C 0xF
  | 0x10 => regRW 8 m64
  | 0x18 => regRO 8
  | 0x20 => regRW 4 0x1FFF
  | 0x28 => regRO 8
  | 0x1000 => regRW 4 0xFFFF000F 0x0018000F
  | 0x1004 | 0x1018 | 0x101C | 0x1020 | 0x1024 => regRO 4
  | 0x1008 => regW1C 1
  | 0x1010 => regRO 8
  | 0x2000 => regRW 4 m32 0x003C5A1E
  | _ => none

/-- The telemetry registers (Table 16.8), by offset from 0x0006_0000. -/
def telReg (o : Nat) : Option RegInfo :=
  if 0x1000 ≤ o ∧ o < 0x2000 then (if o % 8 = 0 then regRO 8 else none)
  else if 0x2000 ≤ o ∧ o < 0x2900 ∧ o % 4 = 0 then regRO 4
  else match o with
  | 0x00 => regRW 4 0x00FF0001 0x000A0000
  | 0x04 | 0x0C | 0x10 | 0x20 | 0x24 | 0x28 | 0x2C => regRO 4
  | 0x08 => regRW 4 0x1F
  | _ => none

/-! ## Meter window (17 R470) -/

def meterBase : Nat := 0x00070000
def rMtStat : Nat := meterBase
def rMtSerial : Nat := meterBase + 0x008
def rMtFw : Nat := meterBase + 0x010
def rMtFwCrc : Nat := meterBase + 0x014
def rMtSeq : Nat := meterBase + 0x018
def rMtEnergy : Nat := meterBase + 0x020
def rMtGap : Nat := meterBase + 0x028
def rMtBad : Nat := meterBase + 0x02C
def rMtRxTime : Nat := meterBase + 0x030
def rMtRec (w : Nat) : Nat := meterBase + 0x100 + 8 * w
def rMtAppSeq : Nat := meterBase + 0x200
def rMtAppSys : Nat := meterBase + 0x208
def rMtApp (p : Nat) : Nat := meterBase + 0x210 + 8 * p
def rMtAppTot (p : Nat) : Nat := meterBase + 0x280 + 8 * p
def rMtAppSysTot : Nat := meterBase + 0x2E0

/-- The meter window registers (Table 17.5), by offset from 0x0007_0000. -/
def meterReg (o : Nat) : Option RegInfo :=
  match o with
  | 0x000 | 0x010 | 0x014 | 0x028 | 0x02C => regRO 4
  | 0x008 | 0x018 | 0x020 | 0x030 => regRO 8
  | o => if ((0x100 ≤ o ∧ o < 0x1C0) ∨ (0x200 ≤ o ∧ o < 0x270) ∨ (0x280 ≤ o ∧ o < 0x2E8)) ∧ o % 8 = 0
         then regRO 8 else none

/-! ## Module registers (14 Table 14.13, 18 Table 18.5) -/

def rRstCtl : Nat := 0x040
def rRstCmd : Nat := 0x044
def rRstCause : Nat := 0x048
def rBootStat : Nat := 0x04C
def rBootCmd : Nat := 0x050
def rModFw : Nat := 0x054
def rBootTime : Nat := 0x058

/-- The MOD_ registers. -/
def modReg (o : Nat) : Option RegInfo :=
  match o with
  | 0x000 => regRO 4 0x0B78A0FF
  | 0x008 => regW1C 0x1D
  | 0x010 => regRW 8 0xFFFFFFFFFFFFF01F
  | 0x018 => regRW 4 m32
  | 0x01C | 0x020 | 0x024 | 0x028 => regRO 4
  | 0x040 => regRW 4 1
  | 0x044 | 0x050 => regCmd
  | 0x048 | 0x04C | 0x054 | 0x058 => regRO 4
  | _ => none

/-! ## The whole map -/

/-- The register at an offset (Table 14.10); nothing at a reserved offset or inside a register. -/
def regInfo (off : Nat) : Option RegInfo :=
  match arbOfOffset off with
  | some b => arbReg b (off - arbBase b)
  | none =>
    if off < 0x10000 then modReg off
    else if off < 0x13000 then printReg ((off - 0x10000) % 0x400)
    else if off < 0x20000 then none
    else if off < 0x30000 then partReg (off - 0x20000)
    else if off < 0x40000 then none
    else if off < 0x50000 then gafReg (off - 0x40000)
    else if off < 0x60000 then repReg (off - 0x50000)
    else if off < 0x70000 then telReg (off - 0x60000)
    else if off < 0x80000 then meterReg (off - 0x70000)
    else if off < 0x100000 then none
    else if off < 0x200000 then zwReg (off - 0x100000)
    else if off < 0x300000 then dlyReg (off - 0x200000)
    else if off < 0x310000 then memReg (off - 0x300000)
    else if 0x01000000 ≤ off ∧ off < 0x01800000 then
      (if off % 0x100000 < 625 * 0x400 then clusterReg (off % 0x400) else none)
    else none

/-- The value an offset of the register store reads as before anything is written there. -/
def regReset (off : Nat) : BitVec 64 :=
  match regInfo off with
  | some r => BitVec.ofNat 64 r.reset
  | none => 0

end Sys2Proof.Machine
end

