-- ==== Sys2Proof/Machine/Float.lean ====
section
/-!
DEFINITION. The number formats of 02_number_formats.md: decoding, the single rounding of an exact value, conversion
(R45 to R49), block scales (R53), scale-block summation (R55), and the FP32 operations of the vector unit (R59, R160).
A finite value is a whole number of units of 2^qmin of its format (Table 2.2).
-/
namespace Sys2Proof.Machine

/-- The formats of Table 2.1. -/
inductive Fmt where
  | fp32 | bf16 | fp16 | e4m3 | e5m2 | e3m2 | e2m3 | e2m1 | int8 | int4 | ue8m0
  deriving DecidableEq, Repr

/-- The format a 4-bit format field names; codes 0xB to 0xF are reserved (R35). -/
def fmtOfCode : Nat → Option Fmt
  | 0 => some .fp32 | 1 => some .bf16 | 2 => some .fp16 | 3 => some .e4m3 | 4 => some .e5m2
  | 5 => some .e3m2 | 6 => some .e2m3 | 7 => some .e2m1 | 8 => some .int8 | 9 => some .int4
  | 10 => some .ue8m0 | _ => none

/-- The rounding field of Table 2.3. -/
inductive Rnd where
  | nearest | zero | stochastic
  deriving DecidableEq, Repr

/-- The rounding a field names; 0b11 is reserved (R44). -/
def rndOfCode : Nat → Option Rnd
  | 0 => some .nearest | 1 => some .zero | 2 => some .stochastic | _ => none

/-- An integer format. -/
def fmtIsInt : Fmt → Bool
  | .int8 | .int4 => true
  | _ => false

/-- A format that a UE8M0 scale may scale (Table 2.1). -/
def fmtScalable : Fmt → Bool
  | .fp32 | .bf16 | .fp16 | .ue8m0 => false
  | _ => true

/-- The rate group of Table 2.1: 0 FP32, 1 16-bit, 2 8/6-bit, 3 4-bit, 4 none. -/
def fmtGroup : Fmt → Nat
  | .fp32 => 0 | .bf16 | .fp16 => 1
  | .e4m3 | .e5m2 | .e3m2 | .e2m3 | .int8 => 2
  | .e2m1 | .int4 => 3 | .ue8m0 => 4

/-- Bits an element occupies in memory (R38). -/
def fmtStoreBits : Fmt → Nat
  | .fp32 => 32 | .bf16 | .fp16 => 16 | .e2m1 | .int4 => 4 | _ => 8

/-- Mantissa bits. -/
def fmtMan : Fmt → Nat
  | .fp32 => 23 | .bf16 => 7 | .fp16 => 10 | .e4m3 => 3 | .e5m2 => 2 | .e3m2 => 2 | .e2m3 => 3 | .e2m1 => 1
  | _ => 0

/-- Exponent bits. -/
def fmtExp : Fmt → Nat
  | .fp32 | .bf16 | .ue8m0 => 8 | .fp16 | .e5m2 => 5 | .e4m3 => 4 | .e3m2 => 3 | .e2m3 | .e2m1 => 2
  | .int8 | .int4 => 0

/-- The exponent of the smallest subnormal (Table 2.2). -/
def fmtQmin : Fmt → Int
  | .fp32 => -149 | .bf16 => -133 | .fp16 => -24 | .e4m3 => -9 | .e5m2 => -16 | .e3m2 => -4 | .e2m3 => -3
  | .e2m1 => -1 | .int8 | .int4 => 0 | .ue8m0 => -127

/-- The largest finite magnitude, in units of 2^qmin (Table 2.2). -/
def fmtMaxUnits : Fmt → Nat
  | .fp32 => (2 ^ 24 - 1) <<< 253 | .bf16 => (2 ^ 8 - 1) <<< 253 | .fp16 => 2047 <<< 29
  | .e4m3 => 448 <<< 9 | .e5m2 => 57344 <<< 16 | .e3m2 => 28 <<< 4 | .e2m3 => 60 | .e2m1 => 12
  | .int8 => 127 | .int4 => 7 | .ue8m0 => 1 <<< 254

/-- emax(f) of R53. -/
def fmtEmax : Fmt → Int
  | .e4m3 => 8 | .e5m2 => 15 | .e3m2 => 4 | .e2m3 => 2 | .e2m1 => 2 | .int8 => 6 | .int4 => 2 | _ => 0

/-- An exact value: NaN, an infinity, or (-1)^neg × n × 2^q; both zeros are kept. -/
inductive XV where
  | nan
  | inf (neg : Bool)
  | fin (neg : Bool) (n : Nat) (q : Int)
  deriving DecidableEq, Repr

/-- The magnitude of a finite code in units of 2^qmin: exponent field `e`, mantissa `m` (Bit layouts and ranges). -/
def codeUnits (man e m : Nat) : Nat := if e = 0 then m else (2 ^ man + m) <<< (e - 1)

/-- The magnitude bits of `u` units: the inverse of `codeUnits`. -/
def unitsCode (man u : Nat) : Nat :=
  if u < 2 ^ man then u else ((Nat.log2 u - man) <<< man) + (u >>> (Nat.log2 u - man))

/-- The value of an element code (Table 2.2). Bits above the element are ignored, as R39 says of 6-bit elements. -/
def decodeF (f : Fmt) (code : Nat) : XV :=
  match f with
  | .int8 => let x := toSigned 8 code; .fin (decide (x < 0)) x.natAbs 0
  | .int4 => let x := toSigned 4 code; .fin (decide (x < 0)) x.natAbs 0
  | .ue8m0 => if code % 256 = 255 then .nan else .fin false 1 ((code % 256 : Nat) - 127)
  | f =>
    let man := fmtMan f
    let eb := fmtExp f
    let m := code % 2 ^ man
    let e := (code >>> man) % 2 ^ eb
    let neg := (code >>> (man + eb)) % 2 = 1
    let special := e = 2 ^ eb - 1
    match f with
    | .fp32 | .bf16 | .fp16 | .e5m2 =>
      if special then (if m = 0 then .inf neg else .nan) else .fin neg (codeUnits man e m) (fmtQmin f)
    | .e4m3 => if special ∧ m = 7 then .nan else .fin neg (codeUnits man e m) (fmtQmin f)
    | _ => .fin neg (codeUnits man e m) (fmtQmin f)

/-- How an exact magnitude is rounded: to nearest even, toward zero, or stochastically with 16 random bits (R49). -/
inductive Mode where
  | nearest | zero | random (r : Nat)
  deriving DecidableEq, Repr

/-- `n × 2^-s` rounded to a whole number of units with at most `p` significant bits. -/
def roundUnits (mode : Mode) (p n s : Nat) : Nat :=
  let len := if n = 0 then 0 else Nat.log2 n + 1
  let drop := max s (len - p)
  let lo := n >>> drop
  let rem := n % 2 ^ drop
  let up : Bool := match mode with
    | .zero => false
    | .nearest => decide (2 * rem > 2 ^ drop) || (decide (2 * rem = 2 ^ drop) && decide (drop ≠ 0) && decide (lo % 2 = 1))
    | .random r => decide (rem * 65536 / 2 ^ drop + r ≥ 65536)
  (if up then lo + 1 else lo) <<< (drop - s)

/-- The exact value `n × 2^q` rounded to units of 2^qmin with `p` significant bits. -/
def roundExact (mode : Mode) (p : Nat) (qmin : Int) (n : Nat) (q : Int) : Nat :=
  if qmin ≤ q then roundUnits mode p (n <<< (q - qmin).toNat) 0
  else roundUnits mode p n (qmin - q).toNat

/-- A code with its sign bit. -/
def signCode (f : Fmt) (neg : Bool) (mag : Nat) : Nat :=
  (if neg then 1 <<< (fmtMan f + fmtExp f) else 0) + mag

/-- The canonical NaN of R41 (for formats without NaN, the code Table 2.4 gives: +0). -/
def nanCode : Fmt → Nat
  | .fp32 => 0x7FC00000 | .bf16 => 0x7FC0 | .fp16 => 0x7E00 | .e4m3 => 0x7F | .e5m2 => 0x7E | .ue8m0 => 0xFF
  | _ => 0

/-- The code of an infinity, in the formats that have one. -/
def infCode (f : Fmt) (neg : Bool) : Nat := signCode f neg ((2 ^ fmtExp f - 1) <<< fmtMan f)

/-- The code of the largest finite value. -/
def maxCode (f : Fmt) (neg : Bool) : Nat :=
  match f with
  | .int8 => if neg then 0x80 else 0x7F
  | .int4 => if neg then 0x8 else 0x7
  | f => signCode f neg (unitsCode (fmtMan f) (fmtMaxUnits f))

/-- A format with infinities. -/
def fmtHasInf : Fmt → Bool
  | .fp32 | .bf16 | .fp16 | .e5m2 => true
  | _ => false

/-- Stochastic rounding. -/
def modeIsRandom : Mode → Bool
  | .random _ => true
  | _ => false

/-- The magnitude `n × 2^q` exceeds the largest finite value of the format. -/
def exceedsMax (f : Fmt) (n : Nat) (q : Int) : Bool :=
  let q0 := min q (fmtQmin f)
  decide (fmtMaxUnits f <<< (fmtQmin f - q0).toNat < n <<< (q - q0).toNat)

/-- Conversion of an exact value into a format (R45 to R49, Table 2.4): the code, and whether the flag sets. -/
def convertF (f : Fmt) (mode : Mode) (sat : Bool) (x : XV) : Nat × Bool :=
  match x with
  | .nan => (nanCode f, true)
  | .inf neg =>
    (if fmtHasInf f then infCode f neg
     else if f = .e4m3 ∧ !sat then nanCode f
     else maxCode f neg, true)
  | .fin neg n q =>
    if fmtIsInt f then
      let u := roundExact mode (n.log2 + 2 + q.natAbs) 0 n q
      let lim := if neg then fmtMaxUnits f + 1 else fmtMaxUnits f
      if lim < u then (maxCode f neg, false)
      else ((if neg then 2 ^ fmtStoreBits f - u else u) % 2 ^ fmtStoreBits f, false)
    else
      let past := exceedsMax f n q
      let u := if modeIsRandom mode && past then 0 else roundExact mode (fmtMan f + 1) (fmtQmin f) n q
      -- R49: a finite input beyond the range follows Table 2.4 whatever the random bits are
      let beyond := if modeIsRandom mode then past else decide (fmtMaxUnits f < u)
      if !beyond then (signCode f neg (unitsCode (fmtMan f) u), false)
      else if sat ∨ mode = .zero then (maxCode f neg, false)
      else if fmtHasInf f then (infCode f neg, true)
      else if f = .e4m3 then (nanCode f, true)
      else (maxCode f neg, false)

/-- An FP32 pattern decoded. -/
def fpX (a : W32) : XV := decodeF .fp32 a.toNat

/-- The FP32 pattern of the canonical NaN. -/
def fpNaN : W32 := 0x7FC00000

/-- NaN. -/
def fpIsNaN (a : W32) : Bool := decide (fpX a = .nan)

/-- A value of FP kind as it is written: every NaN canonical (R41, R157). -/
def fpCanon (a : W32) : W32 := if fpIsNaN a then fpNaN else a

/-- NaN or an infinity. -/
def fpNonFinite (a : W32) : Bool := decide (bits a 30 23 = 255)

/-- An exact value rounded once into FP32, to nearest even; beyond range gives an infinity (R59). -/
def fpRound (neg : Bool) (n : Nat) (q : Int) : W32 :=
  let u := roundExact .nearest 24 (-149) n q
  BitVec.ofNat 32 (if fmtMaxUnits .fp32 < u then infCode .fp32 neg else signCode .fp32 neg (unitsCode 23 u))

/-- A signed zero. -/
def fpZero (neg : Bool) : W32 := if neg then 0x80000000 else 0

/-- A signed infinity. -/
def fpInf (neg : Bool) : W32 := if neg then 0xFF800000 else 0x7F800000

/-- The signed integer of a finite value over units of 2^q0. -/
def xvInt (neg : Bool) (n : Nat) : Int := if neg then -(n : Int) else n

/-- Addition of exact values with one rounding, IEEE zero signs (R42, R160). -/
def xvAdd (a b : XV) : W32 :=
  match a, b with
  | .nan, _ | _, .nan => fpNaN
  | .inf s, .inf t => if s = t then fpInf s else fpNaN
  | .inf s, _ => fpInf s
  | _, .inf t => fpInf t
  | .fin s n q, .fin t m r =>
    let q0 := min q r
    let x := xvInt s (n <<< (q - q0).toNat) + xvInt t (m <<< (r - q0).toNat)
    if x = 0 then fpZero (if n = 0 ∧ m = 0 then s && t else false)
    else fpRound (decide (x < 0)) x.natAbs q0

/-- The exact product. -/
def xvMul (a b : XV) : XV :=
  match a, b with
  | .nan, _ | _, .nan => .nan
  | .inf s, .inf t => .inf (s != t)
  | .inf s, .fin t m _ => if m = 0 then .nan else .inf (s != t)
  | .fin s n _, .inf t => if n = 0 then .nan else .inf (s != t)
  | .fin s n q, .fin t m r => .fin (s != t) (n * m) (q + r)

/-- An exact value rounded once into FP32. -/
def xvRound : XV → W32
  | .nan => fpNaN
  | .inf s => fpInf s
  | .fin s n q => fpRound s n q

def fpAdd (a b : W32) : W32 := xvAdd (fpX a) (fpX b)
/-- Every NaN produced is canonical (R41), so a NaN operand needs no sign. -/
def fpNeg (a : W32) : W32 := if fpIsNaN a then fpNaN else a ^^^ 0x80000000
def fpAbs (a : W32) : W32 := if fpIsNaN a then fpNaN else a &&& 0x7FFFFFFF
def fpSub (a b : W32) : W32 := fpAdd a (fpNeg b)
def fpMul (a b : W32) : W32 := xvRound (xvMul (fpX a) (fpX b))
/-- a × b + c with one rounding. -/
def fpFma (a b c : W32) : W32 := xvAdd (xvMul (fpX a) (fpX b)) (fpX c)

/-- Division (R160): x ÷ ±0 is an infinity for finite non-zero x; 0 ÷ 0 and ∞ ÷ ∞ are NaN. -/
def fpDiv (a b : W32) : W32 :=
  match fpX a, fpX b with
  | .nan, _ | _, .nan => fpNaN
  | .inf _, .inf _ => fpNaN
  | .inf s, .fin t _ _ => fpInf (s != t)
  | .fin s _ _, .inf t => fpZero (s != t)
  | .fin s n _, .fin t m _ =>
    if m = 0 then (if n = 0 then fpNaN else fpInf (s != t))
    else
      let x := n <<< 469
      fpRound (s != t) (2 * (x / m) + (if x % m = 0 then 0 else 1)) (-470)

/-- Square root (R160): −0 gives −0, a value below zero gives NaN. -/
def fpSqrt (a : W32) : W32 :=
  match fpX a with
  | .nan => fpNaN
  | .inf s => if s then fpNaN else fpInf false
  | .fin s n _ =>
    if n = 0 then fpZero s
    else if s then fpNaN
    else
      -- √(n × 2^-149) = √(n × 2^277) × 2^-213
      let x := n <<< 277
      let r := isqrt x 280 0
      fpRound false (2 * r + (if r * r = x then 0 else 1)) (-214)

/-- The order of two FP32 values that are not NaN, with −0 below +0: a key that rises with the value. -/
def fpKey (a : W32) : Int := if bit a 31 then -(bits a 30 0 : Int) - 1 else bits a 30 0

def fpMin (a b : W32) : W32 :=
  if fpIsNaN a || fpIsNaN b then fpNaN else if fpKey a ≤ fpKey b then a else b
def fpMax (a b : W32) : W32 :=
  if fpIsNaN a || fpIsNaN b then fpNaN else if fpKey a ≤ fpKey b then b else a

/-- The value with −0 and +0 equal, for the compares of R161. -/
def fpCmpKey (a : W32) : Int := if bit a 31 then -(bits a 30 0 : Int) else bits a 30 0

def fpEq (a b : W32) : Bool := !(fpIsNaN a || fpIsNaN b) && decide (fpCmpKey a = fpCmpKey b)
def fpLt (a b : W32) : Bool := !(fpIsNaN a || fpIsNaN b) && decide (fpCmpKey a < fpCmpKey b)
def fpLe (a b : W32) : Bool := !(fpIsNaN a || fpIsNaN b) && decide (fpCmpKey a ≤ fpCmpKey b)

/-- A natural number rounded to FP32. -/
def fpOfNat (n : Nat) : W32 := fpRound false n 0

/-- The contribution of one 32-element block (R55): elements decoded, and the two scale codes where scaled. -/
def blockSum (a w : List XV) (sa sw : Option Nat) (qa qw : Int) : XV :=
  if sa = some 255 ∨ sw = some 255 then .nan
  else
    let step (acc : Bool × Bool × Bool × Int) (p : XV × XV) : Bool × Bool × Bool × Int :=
      let (nan, pinf, ninf, n) := acc
      match p.1, p.2 with
      | .nan, _ | _, .nan => (true, pinf, ninf, n)
      | .inf s, .inf t => if s = t then (nan, true, ninf, n) else (nan, pinf, true, n)
      | .inf s, .fin t m _ =>
        if m = 0 then (true, pinf, ninf, n) else if s = t then (nan, true, ninf, n) else (nan, pinf, true, n)
      | .fin s m _, .inf t =>
        if m = 0 then (true, pinf, ninf, n) else if s = t then (nan, true, ninf, n) else (nan, pinf, true, n)
      | .fin s x _, .fin t y _ => (nan, pinf, ninf, n + xvInt (s != t) (x * y))
    let (nan, pinf, ninf, n) := (a.zip w).foldl step (false, false, false, 0)
    if nan ∨ (pinf ∧ ninf) then .nan
    else if pinf then .inf false
    else if ninf then .inf true
    else
      let se (s : Option Nat) : Int := match s with | some c => (c : Int) - 127 | none => 0
      .fin (decide (n < 0)) n.natAbs (qa + qw + se sa + se sw)

/-- The accumulator plus a block's contribution, rounded once; an exact zero is +0 (R55, R57). -/
def addRoundOnce (t : W32) (c : XV) : W32 :=
  match fpX t, c with
  | .nan, _ | _, .nan => fpNaN
  | .inf s, .inf u => if s = u then fpInf s else fpNaN
  | .inf s, _ => fpInf s
  | _, .inf u => fpInf u
  | .fin s n q, .fin u m r =>
    let q0 := min q r
    let x := xvInt s (n <<< (q - q0).toNat) + xvInt u (m <<< (r - q0).toNat)
    if x = 0 then 0 else fpRound (decide (x < 0)) x.natAbs q0

/-- Rotation of a 32-bit word to the left. -/
def rotl32 (x : W32) (n : Nat) : W32 := x.rotateLeft n

/-- One round of the generator on the four words (11_takes_prints.md R300). -/
def kcgRound (k0 k1 k2 k3 : W32) (r : Nat) (x : W32 × W32 × W32 × W32) : W32 × W32 × W32 × W32 :=
  let (x0, x1, x2, x3) := x
  let rr : W32 := BitVec.ofNat 32 r
  let (x0, x1, x2, x3) :=
    if r % 3 = 0 then (x0 + k0 + rr, x1 + k1 + rr, x2 + k2 + rr, x3 + k3 + rr) else (x0, x1, x2, x3)
  let x0 := x0 + x1; let x3 := rotl32 (x3 ^^^ x0) 13
  let x2 := x2 + x3; let x1 := rotl32 (x1 ^^^ x2) 7
  let x0 := x0 + x1; let x3 := rotl32 (x3 ^^^ x0) 17
  let x2 := x2 + x3; let x1 := rotl32 (x1 ^^^ x2) 9
  (x1, x2, x3, x0)

/-- The keyed counter generator (11_takes_prints.md R300). -/
def kcg (seed slate : W64) (stream : Nat) (element : W64) : W64 :=
  let lo (v : W64) : W32 := BitVec.ofNat 32 v.toNat
  let hi (v : W64) : W32 := BitVec.ofNat 32 (v.toNat >>> 32)
  let k0 := lo seed
  let k1 := hi seed
  let k2 : W32 := 0x9E3779B9 ^^^ BitVec.ofNat 32 (stream % 65536)
  let k3 : W32 := 0x7F4A7C15
  let x := (List.range 12).foldl (fun x r => kcgRound k0 k1 k2 k3 r x)
    (lo element, hi element, lo slate, hi slate)
  BitVec.ofNat 64 ((x.2.1 + k1).toNat <<< 32 + (x.1 + k0).toNat)

/-- What a converting instruction brings: format, rounding, saturation, and the generator's inputs (R49, R50). -/
structure ConvCtl where
  f : Fmt
  rnd : Rnd
  sat : Bool
  seed : W64
  slate : W64
  stream : Nat
  base : W64
  deriving DecidableEq, Repr

/-- The rounding mode of element `idx`: under stochastic rounding r is bits [15:0] of kcg (R49). -/
def convMode (c : ConvCtl) (idx : Nat) : Mode :=
  match c.rnd with
  | .nearest => .nearest
  | .zero => .zero
  | .stochastic => .random (bits (kcg c.seed c.slate c.stream (c.base + BitVec.ofNat 64 idx)) 15 0)

/-- One element converted with an implicit scale of 2^0. -/
def convElem (c : ConvCtl) (idx : Nat) (x : W32) : Nat × Bool := convertF c.f (convMode c idx) c.sat (fpX x)

/-- A block of 32 values converted with a computed scale (R53): scale code, element codes, flag. -/
def convBlock (c : ConvCtl) (idxs : List Nat) (xs : List W32) : Nat × List Nat × Bool :=
  let ps := idxs.zip xs
  if xs.any fpNonFinite then
    (0xFF, ps.map (fun p => (convElem c p.1 p.2).1), true)
  else
    let amax := xs.foldl (fun m x => max m (bits x 30 0)) 0
    if amax = 0 then (0x7F, ps.map (fun p => (convElem c p.1 p.2).1), false)
    else
      let e0 : Int := (Nat.log2 (codeUnits 23 (amax >>> 23) (amax % 2 ^ 23)) : Int) - 149 - fmtEmax c.f
      let e := max (-127) (min 127 e0)
      let els := ps.map (fun p =>
        match fpX p.2 with
        | .fin s n q => convertF c.f (convMode c p.1) c.sat (.fin s n (q - e))
        | x => convertF c.f (convMode c p.1) c.sat x)
      ((e + 127).toNat, els.map (·.1), els.any (·.2))

/-- The FP32 value of an element code times a scale, converted by R45 (06_vector_functions.md R169). -/
def decodeScaled (f : Fmt) (code : Nat) (scale : Option Nat) (rnd : Rnd) (sat : Bool) : Nat × Bool :=
  let mode : Mode := match rnd with | .zero => .zero | _ => .nearest
  match scale with
  | some 255 => (nanCode .fp32, true)
  | some s => (match decodeF f code with
      | .fin g n q => convertF .fp32 mode sat (.fin g n (q + (s : Int) - 127))
      | x => convertF .fp32 mode sat x)
  | none => convertF .fp32 mode sat (decodeF f code)

/-- Bytes of a row of `n` elements in memory (R38). -/
def packElems (f : Fmt) : List Nat → List Byte
  | [] => []
  | [c] => if fmtStoreBits f = 4 then [BitVec.ofNat 8 (c % 16)] else leBytes (fmtStoreBits f / 8) (elemByte f c)
  | c :: d :: cs =>
    if fmtStoreBits f = 4 then BitVec.ofNat 8 (c % 16 + 16 * (d % 16)) :: packElems f cs
    else leBytes (fmtStoreBits f / 8) (elemByte f c) ++ packElems f (d :: cs)
where
  /-- A 6-bit element is written with bits [7:6] zero (R39). -/
  elemByte (f : Fmt) (c : Nat) : Nat := if f = .e3m2 ∨ f = .e2m3 then c % 64 else c

/-- The element codes a row of bytes holds (R38). -/
def unpackElems (f : Fmt) : List Byte → List Nat
  | [] => []
  | b :: bs =>
    match fmtStoreBits f with
    | 4 => (b.toNat % 16) :: (b.toNat / 16) :: unpackElems f bs
    | 8 => b.toNat :: unpackElems f bs
    | 16 => (match bs with
        | c :: cs => (b.toNat + 256 * c.toNat) :: unpackElems f cs
        | [] => [b.toNat])
    | _ => (match bs with
        | c :: d :: e :: cs => leNat [b, c, d, e] :: unpackElems f cs
        | _ => [leNat (b :: bs)])

end Sys2Proof.Machine
end

