-- ==== Sys2Proof/Machine/Operands.lean ====
section
/-!
DEFINITION. The operand forms of the Octix word: the decoded instruction, its decoder and its encoder, written from the
format tables of 04_octix_isa.md (R97 to R105), 05_tensor_unit.md (R141), 06_vector_functions.md (R159, R176) and
08_dolly_transfers.md (R228). A word that R98 calls illegal decodes to nothing.
-/
namespace Sys2Proof.Machine

/-- A scalar register index. -/
abbrev SReg := Fin 32
/-- A vector register index. -/
abbrev VReg := Fin 16
/-- An accumulator index. -/
abbrev TReg := Fin 4
/-- A predicate index. -/
abbrev PReg := Fin 8
/-- An address-generator index. -/
abbrev Gen := Fin 8

/-- Two-operand integer and logic operations (Tables 4.4, 4.5). -/
inductive AluOp where
  | add | sub | mul | mulh | mulhu | div | divu | rem | remu | min | max | minu | maxu
  | and | or | xor | andn | shl | shr | sar | rotl
  deriving DecidableEq, Repr

/-- Bit counts (Table 4.5). -/
inductive CountOp where
  | popc | clz | ctz
  deriving DecidableEq, Repr

/-- Constant loads (Table 4.4). -/
inductive MovOp where
  | movi | movhi | movz
  deriving DecidableEq, Repr

/-- Relations of the scalar compares (Table 4.6). -/
inductive CmpOp where
  | eq | ne | lt | ltu | le | leu
  deriving DecidableEq, Repr

/-- Predicate logic (Table 4.6). -/
inductive PredOp where
  | and | or | xor | andn
  deriving DecidableEq, Repr

/-- Access sizes of the scalar loads and stores (Table 4.7). -/
inductive MemSize where
  | b | h | w | d
  deriving DecidableEq, Repr

/-- Where an address comes from (R104). -/
inductive Base where
  | reg (r : SReg)
  | gen (g : Gen)
  deriving DecidableEq, Repr

/-- The scope of an event: cluster or partition (R126). -/
inductive EvScope where
  | cluster | part
  deriving DecidableEq, Repr

/-- The three clapper instructions (Table 4.10). -/
inductive ClapOp where
  | both | arrive | wait
  deriving DecidableEq, Repr

/-- The events instructions without a destination (Table 4.11). -/
inductive EvOp where
  | set | clr | wait
  deriving DecidableEq, Repr

/-- The set-up instructions that take a register (R140). -/
inductive TSet where
  | m | n | k
  deriving DecidableEq, Repr

/-- The vector instructions (Tables 6.2 to 6.4). -/
inductive VOp where
  | vadd | vsub | vmul | vfma | vmin | vmax | vabs | vneg | vdiv | vsqrt | vmov
  | vexp2 | vlog2 | vexp | vln | vpow | vsigm | vsilu | vtanh
  | vceq | vclt | vcle | vsel | vand | vor | vandn | vlmask
  | vrsum | vrmax | vrmin
  | vq | vpk | vtdec
  | vsmax | vrscale | vrowk | vnsum | vnstat | vnapply
  deriving DecidableEq, Repr

/-- The fields of a vector word (format V and Table 6.1); a field the instruction does not use is zero. -/
structure VFields where
  vd : VReg
  va : VReg
  vb : VReg
  vc : VReg
  f : Fmt
  rnd : Rnd
  sat : Bool
  ag : Gen
  s : SReg
  ta : TReg
  bs : Bool
  causal : Bool
  mask : Bool
  h : Bool
  p : Bool
  sc : Bool
  rs : SReg
  sb : Bool
  slot : TReg
  deriving DecidableEq, Repr

/-- The fields of tmma (Table 5.4). -/
structure MmaFields where
  t : TReg
  fa : Fmt
  fw : Fmt
  aga : Gen
  agw : Gen
  ags : Gen
  agv : Gen
  nb : Fin 64
  sa : Bool
  sw : Bool
  z : Bool
  m : Bool
  ro : SReg
  deriving DecidableEq, Repr

/-- The fields of tcvt (Table 5.4). -/
structure CvtFields where
  t : TReg
  f : Fmt
  agd : Gen
  ags : Gen
  rnd : Rnd
  sat : Bool
  p : Bool
  s : Bool
  rb : SReg
  rs : SReg
  slot : TReg
  deriving DecidableEq, Repr

/-- A decoded Octix instruction. -/
inductive Octix where
  | alu (op : AluOp) (d a b : SReg)
  | count (op : CountOp) (d a : SReg)
  | sel (d : SReg) (q : PReg) (a b : SReg)
  | aluI (op : AluOp) (d a : SReg) (imm : W32)
  | mov (op : MovOp) (d : SReg) (imm : W32)
  | cmp (op : CmpOp) (pd : PReg) (a b : SReg)
  | cmpI (op : CmpOp) (pd : PReg) (a : SReg) (imm : W32)
  | pred (op : PredOp) (pd pa pb : PReg)
  | pnot (pd pa : PReg)
  | ld (sz : MemSize) (signed : Bool) (d : SReg) (base : Base) (off : W32)
  | st (sz : MemSize) (d : SReg) (base : Base) (off : W32)
  | mfsr (r : SReg) (num : Fin 4096)
  | mtsr (num : Fin 4096) (r : SReg)
  | cp (dst src : Base) (n : SReg)
  | push (sel : SReg) (o : SReg) (src : Base) (n : SReg)
  | vld (d : VReg) (base : Base) (off : W32)
  | vst (d : VReg) (base : Base) (off : W32)
  | tld (d : TReg) (base : Base) (off : W32)
  | tst (d : TReg) (base : Base) (off : W32)
  | vext (d : SReg) (a : VReg) (lane : SReg)
  | vins (d : VReg) (a : SReg) (lane : SReg)
  | vbcast (d : VReg) (a : SReg)
  | swap
  | mfence
  | clap (op : ClapOp) (scope : Fin 3) (id : VReg) (n : SReg)
  | ev (op : EvOp) (scope : EvScope) (ev : Fin 64)
  | evTest (pd : PReg) (scope : EvScope) (ev : Fin 64)
  | waitCr (ch : SReg) (imm : W16)
  | waitCrr (ch : SReg) (n : SReg)
  | waitVd (pd : PReg)
  | nop
  | br (tgt : Fin 2048)
  | brr (r : SReg)
  | call (r : SReg) (tgt : Fin 2048)
  | loop (e : SReg) (bodyEnd : Fin 2048)
  | halt (r : SReg)
  | fclr
  | tmma (x : MmaFields)
  | tzero (t : TReg)
  | tbias (t : TReg) (ag : Gen)
  | tcvt (x : CvtFields)
  | tset (op : TSet) (a : SReg)
  | tseth (h : Bool)
  | vec (op : VOp) (x : VFields)
  | darm (ch : VReg)
  | dlaunch (b : SReg) (ch : VReg) (a : SReg)
  | dstop (ch : VReg)
  | ddis (ch : VReg)
  | dwait (ch : VReg) (a : SReg)
  | dq (s : Bool) (a : SReg) (ch : VReg)
  deriving DecidableEq, Repr

/-- The clapper ids of a scope: 0 to 7, 0 to 7, 0 to 15 (Table 4.9). -/
def clapIds (scope : Nat) : Nat := if scope = 2 then 16 else 8

/-- Which vector fields an instruction uses: its destination, sources, and whether it allows bs (Tables 6.2 to 6.4). -/
structure VUse where
  vd : Bool
  va : Bool
  vb : Bool
  vc : Bool
  bs : Bool
  deriving DecidableEq, Repr

/-- The register fields of each vector instruction. -/
def vUse : VOp → VUse
  | .vadd | .vsub | .vmul | .vmin | .vmax | .vdiv | .vceq | .vclt | .vcle => ⟨true, true, true, false, true⟩
  | .vfma => ⟨true, true, true, true, true⟩
  | .vsel => ⟨true, true, true, true, false⟩
  | .vand | .vor | .vandn | .vpow | .vnstat => ⟨true, true, true, false, false⟩
  | .vlmask | .vrowk => ⟨true, false, false, false, false⟩
  | .vtdec => ⟨false, false, false, false, false⟩
  | .vsmax => ⟨true, true, true, true, false⟩
  | .vrscale => ⟨false, true, false, false, false⟩
  | .vnsum => ⟨true, true, false, false, false⟩
  | .vnapply => ⟨false, true, true, true, false⟩
  | _ => ⟨true, true, false, false, false⟩

/-- The instruction uses accumulator ta. -/
def vUsesTa : VOp → Bool
  | .vtdec | .vsmax | .vrscale | .vrowk | .vnsum | .vnapply => true
  | _ => false

/-- A pair step: ta must be even (R176). -/
def vIsPair (op : VOp) (x : VFields) : Bool :=
  match op with
  | .vtdec | .vsmax | .vnsum | .vnapply => true
  | .vrscale => x.p
  | _ => false

/-- The instruction converts: it uses f, rnd and sat. -/
def vConverts : VOp → Bool
  | .vq | .vpk | .vtdec => true
  | _ => false

/-- The instruction uses the field s under these fields. -/
def vUsesS (op : VOp) (x : VFields) : Bool :=
  match op with
  | .vlmask | .vnstat | .vsmax => true
  | .vq | .vpk => decide (x.rnd = .stochastic)
  | .vtdec => x.sc
  | _ => x.bs

/-- Every check of R98, R159 and R176 on the fields of a vector word. -/
def vLegal (op : VOp) (x : VFields) : Bool :=
  let u := vUse op
  (u.vd || x.vd == 0) && (u.va || x.va == 0) && ((u.vb && !x.bs) || x.vb == 0) && (u.vc || x.vc == 0) &&
  (u.bs || !x.bs) &&
  (vConverts op || (x.f == .fp32 && x.rnd == .nearest && !x.sat)) && x.f != .ue8m0 &&
  (op == .vtdec || x.ag == 0) &&
  (vUsesS op x || x.s == 0) &&
  (vUsesTa op || x.ta == 0) && (!vIsPair op x || x.ta.val % 2 == 0) &&
  (op == .vsmax || !x.causal) && (op == .vsmax || op == .vnsum || !x.mask) &&
  (op == .vrscale || (!x.h && !x.p)) &&
  (op == .vtdec || (!x.sc && x.slot == 0)) &&
  ((decide (op = .vq ∨ op = .vpk) && x.rnd == .stochastic) || x.rs == 0) &&
  (op == .vpk || !x.sb) && (!x.sb || fmtScalable x.f) &&
  (op != .vtdec || (x.rnd != .stochastic && (!x.sc || fmtScalable x.f) && (x.sc || x.slot == 0)))

/-- The static checks of R143 on tmma (R35, R52, R54). -/
def mmaLegal (x : MmaFields) : Bool :=
  fmtGroup x.fa == fmtGroup x.fw && x.fa != .ue8m0 && x.fw != .ue8m0 &&
  (!x.sa || fmtScalable x.fa) && (!x.sw || fmtScalable x.fw) &&
  (x.sa || x.ags == 0) && (x.sw || x.agv == 0) && decide (x.ro.val ≤ 16)

/-- The static checks of R147 on tcvt. -/
def cvtLegal (x : CvtFields) : Bool :=
  x.f != .ue8m0 && (!x.p || x.t.val % 2 == 0) && (!x.s || x.p) && (!x.s || fmtScalable x.f) &&
  (x.s || (x.ags == 0 && x.slot == 0)) && (decide (x.rnd = .stochastic) || (x.rb == 0 && x.rs == 0))

/-- What the decoder accepts of a decoded instruction: unused fields zero, listed values only (R98). -/
def octixLegal : Octix → Bool
  | .aluI op _ _ imm =>
    (match op with
     | .add | .mul | .min | .max | .and | .or | .xor => true
     | .shl | .shr | .sar | .rotl => decide (imm.toNat < 64)
     | _ => false)
  | .ld .d signed _ _ _ => !signed
  | .clap op scope id n => decide (id.val < clapIds scope.val) && (op != .wait || n == 0)
  | .ev _ scope ev | .evTest _ scope ev => scope != .cluster || decide (ev.val < 32)
  | .waitCr ch _ | .waitCrr ch _ => decide (ch.val ≤ 16)
  | .waitVd pd => pd != 0
  | .tmma x => mmaLegal x
  | .tcvt x => cvtLegal x
  | .vec op x => vLegal op x
  | _ => true

/-- Major and minor of the two-operand operations with registers (Tables 4.4, 4.5). -/
def aluCode : AluOp → Nat × Nat
  | .add => (0, 1) | .sub => (0, 2) | .mul => (0, 3) | .mulh => (0, 4) | .mulhu => (0, 5) | .div => (0, 6)
  | .divu => (0, 7) | .rem => (0, 8) | .remu => (0, 9) | .min => (0, 0xA) | .max => (0, 0xB)
  | .minu => (0, 0xC) | .maxu => (0, 0xD)
  | .and => (2, 1) | .or => (2, 2) | .xor => (2, 3) | .andn => (2, 4) | .shl => (2, 5) | .shr => (2, 6)
  | .sar => (2, 7) | .rotl => (2, 8)

/-- The two-operand operation of major 0x00 or 0x02 (also of 0x01 and 0x03, one major higher). -/
def aluOfCode : Nat → Nat → Option AluOp
  | 0, 1 => some .add | 0, 2 => some .sub | 0, 3 => some .mul | 0, 4 => some .mulh | 0, 5 => some .mulhu
  | 0, 6 => some .div | 0, 7 => some .divu | 0, 8 => some .rem | 0, 9 => some .remu | 0, 0xA => some .min
  | 0, 0xB => some .max | 0, 0xC => some .minu | 0, 0xD => some .maxu
  | 2, 1 => some .and | 2, 2 => some .or | 2, 3 => some .xor | 2, 4 => some .andn | 2, 5 => some .shl
  | 2, 6 => some .shr | 2, 7 => some .sar | 2, 8 => some .rotl
  | _, _ => none

/-- Minor of a relation, 1 to 6 (Table 4.6). -/
def cmpCode : CmpOp → Nat
  | .eq => 1 | .ne => 2 | .lt => 3 | .ltu => 4 | .le => 5 | .leu => 6

def cmpOfCode : Nat → Option CmpOp
  | 1 => some .eq | 2 => some .ne | 3 => some .lt | 4 => some .ltu | 5 => some .le | 6 => some .leu | _ => none

/-- Major and minor of the vector instructions (Tables 6.2 to 6.4). -/
def vCode : VOp → Nat × Nat
  | .vadd => (0x18, 1) | .vsub => (0x18, 2) | .vmul => (0x18, 3) | .vfma => (0x18, 4) | .vmin => (0x18, 5)
  | .vmax => (0x18, 6) | .vabs => (0x18, 7) | .vneg => (0x18, 8) | .vdiv => (0x18, 9) | .vsqrt => (0x18, 0xA)
  | .vmov => (0x18, 0xB)
  | .vexp2 => (0x19, 1) | .vlog2 => (0x19, 2) | .vexp => (0x19, 3) | .vln => (0x19, 4) | .vpow => (0x19, 5)
  | .vsigm => (0x19, 6) | .vsilu => (0x19, 7) | .vtanh => (0x19, 8)
  | .vceq => (0x1A, 1) | .vclt => (0x1A, 2) | .vcle => (0x1A, 3) | .vsel => (0x1A, 4) | .vand => (0x1A, 5)
  | .vor => (0x1A, 6) | .vandn => (0x1A, 7) | .vlmask => (0x1A, 8)
  | .vrsum => (0x1B, 1) | .vrmax => (0x1B, 2) | .vrmin => (0x1B, 3)
  | .vq => (0x1C, 1) | .vpk => (0x1C, 2) | .vtdec => (0x1C, 3)
  | .vsmax => (0x1D, 1) | .vrscale => (0x1D, 2) | .vrowk => (0x1D, 3) | .vnsum => (0x1D, 4)
  | .vnstat => (0x1D, 5) | .vnapply => (0x1D, 6)

def vOfCode : Nat → Nat → Option VOp
  | 0x18, 1 => some .vadd | 0x18, 2 => some .vsub | 0x18, 3 => some .vmul | 0x18, 4 => some .vfma
  | 0x18, 5 => some .vmin | 0x18, 6 => some .vmax | 0x18, 7 => some .vabs | 0x18, 8 => some .vneg
  | 0x18, 9 => some .vdiv | 0x18, 0xA => some .vsqrt | 0x18, 0xB => some .vmov
  | 0x19, 1 => some .vexp2 | 0x19, 2 => some .vlog2 | 0x19, 3 => some .vexp | 0x19, 4 => some .vln
  | 0x19, 5 => some .vpow | 0x19, 6 => some .vsigm | 0x19, 7 => some .vsilu | 0x19, 8 => some .vtanh
  | 0x1A, 1 => some .vceq | 0x1A, 2 => some .vclt | 0x1A, 3 => some .vcle | 0x1A, 4 => some .vsel
  | 0x1A, 5 => some .vand | 0x1A, 6 => some .vor | 0x1A, 7 => some .vandn | 0x1A, 8 => some .vlmask
  | 0x1B, 1 => some .vrsum | 0x1B, 2 => some .vrmax | 0x1B, 3 => some .vrmin
  | 0x1C, 1 => some .vq | 0x1C, 2 => some .vpk | 0x1C, 3 => some .vtdec
  | 0x1D, 1 => some .vsmax | 0x1D, 2 => some .vrscale | 0x1D, 3 => some .vrowk | 0x1D, 4 => some .vnsum
  | 0x1D, 5 => some .vnstat | 0x1D, 6 => some .vnapply
  | _, _ => none

/-- The format code of Table 2.1. -/
def codeOfFmt : Fmt → Nat
  | .fp32 => 0 | .bf16 => 1 | .fp16 => 2 | .e4m3 => 3 | .e5m2 => 4 | .e3m2 => 5 | .e2m3 => 6 | .e2m1 => 7
  | .int8 => 8 | .int4 => 9 | .ue8m0 => 10

/-- The rounding code of Table 2.3. -/
def codeOfRnd : Rnd → Nat
  | .nearest => 0 | .zero => 1 | .stochastic => 2

/-- A register index cut from a field. -/
def fin (n : Nat) [NeZero n] (v : Nat) : Fin n := Fin.ofNat n v

/-- The base of an address: a generator bit, a generator field and a register field, one of the last two zero (R104). -/
def baseOf (g ag a : Nat) : Option Base :=
  if g = 1 then (if a = 0 then some (.gen (fin 8 ag)) else none)
  else (if ag = 0 then some (.reg (fin 32 a)) else none)

/-- A word whose field [hi:lo] is zero. -/
def rsvd (w : W64) (hi lo : Nat) : Bool := bits w hi lo == 0

/-- Keeps a decoded instruction that meets a check. -/
def keep (c : Bool) (i : Octix) : Option Octix := if c && octixLegal i then some i else none

/-- Format M: destination, base and offset (Table 4.2). -/
def decodeM (w : W64) (lim : Nat) (k : Nat → Base → W32 → Octix) : Option Octix :=
  match baseOf (bits w 37 37) (bits w 36 34) (bits w 42 38) with
  | some base => keep (rsvd w 33 32 && decide (bits w 47 43 < lim))
      (k (bits w 47 43) base (BitVec.ofNat 32 (bits w 31 0)))
  | none => none

/-- Majors 0x00 to 0x06: the scalar classes. -/
def decodeScalar (w : W64) (major minor : Nat) : Option Octix :=
  let d := bits w 47 43
  let a := bits w 42 38
  let b := bits w 37 33
  let imm : W32 := BitVec.ofNat 32 (bits w 31 0)
  match major, minor with
  | 0x02, 0x09 => keep (rsvd w 37 0) (.count .popc (fin 32 d) (fin 32 a))
  | 0x02, 0x0A => keep (rsvd w 37 0) (.count .clz (fin 32 d) (fin 32 a))
  | 0x02, 0x0B => keep (rsvd w 37 0) (.count .ctz (fin 32 d) (fin 32 a))
  | 0x02, 0x0C => keep (rsvd w 32 28 && rsvd w 24 0) (.sel (fin 32 d) (fin 8 (bits w 27 25)) (fin 32 a) (fin 32 b))
  | 0x01, 0x10 => keep (rsvd w 42 32) (.mov .movi (fin 32 d) imm)
  | 0x01, 0x11 => keep (rsvd w 42 32) (.mov .movhi (fin 32 d) imm)
  | 0x01, 0x12 => keep (rsvd w 42 32) (.mov .movz (fin 32 d) imm)
  | 0x04, 0x25 => keep (rsvd w 44 35 && rsvd w 31 0) (.pnot (fin 8 (bits w 47 45)) (fin 8 (bits w 34 32)))
  | 0x05, 0x01 => decodeM w 32 (fun d base off => .ld .b true (fin 32 d) base off)
  | 0x05, 0x02 => decodeM w 32 (fun d base off => .ld .b false (fin 32 d) base off)
  | 0x05, 0x03 => decodeM w 32 (fun d base off => .ld .h true (fin 32 d) base off)
  | 0x05, 0x04 => decodeM w 32 (fun d base off => .ld .h false (fin 32 d) base off)
  | 0x05, 0x05 => decodeM w 32 (fun d base off => .ld .w true (fin 32 d) base off)
  | 0x05, 0x06 => decodeM w 32 (fun d base off => .ld .w false (fin 32 d) base off)
  | 0x05, 0x07 => decodeM w 32 (fun d base off => .ld .d false (fin 32 d) base off)
  | 0x05, 0x11 => decodeM w 32 (fun d base off => .st .b (fin 32 d) base off)
  | 0x05, 0x12 => decodeM w 32 (fun d base off => .st .h (fin 32 d) base off)
  | 0x05, 0x13 => decodeM w 32 (fun d base off => .st .w (fin 32 d) base off)
  | 0x05, 0x14 => decodeM w 32 (fun d base off => .st .d (fin 32 d) base off)
  | 0x06, 0x01 => keep (rsvd w 42 12) (.mfsr (fin 32 d) (fin 4096 (bits w 11 0)))
  | 0x06, 0x02 => keep (rsvd w 42 12) (.mtsr (fin 4096 (bits w 11 0)) (fin 32 d))
  | 0x04, n =>
    if 0x21 ≤ n then
      let op : Option PredOp := match n with
        | 0x21 => some .and | 0x22 => some .or | 0x23 => some .xor | 0x24 => some .andn | _ => none
      match op with
      | some op => keep (rsvd w 44 35 && rsvd w 28 0)
          (.pred op (fin 8 (bits w 47 45)) (fin 8 (bits w 34 32)) (fin 8 (bits w 31 29)))
      | none => none
    else if 0x11 ≤ n then
      match cmpOfCode (n - 0x10) with
      | some op => keep (rsvd w 39 32) (.cmpI op (fin 8 (bits w 47 45)) (fin 32 (bits w 44 40)) imm)
      | none => none
    else
      match cmpOfCode n with
      | some op => keep (rsvd w 34 0) (.cmp op (fin 8 (bits w 47 45)) (fin 32 (bits w 44 40)) (fin 32 (bits w 39 35)))
      | none => none
  | M, n =>
    if M % 2 = 0 then
      match aluOfCode M n with
      | some op => keep (rsvd w 32 0) (.alu op (fin 32 d) (fin 32 a) (fin 32 b))
      | none => none
    else
      match aluOfCode (M - 1) n with
      | some op => keep (rsvd w 37 32) (.aluI op (fin 32 d) (fin 32 a) imm)
      | none => none

/-- Majors 0x08 to 0x0B: the move classes. -/
def decodeMove (w : W64) (major minor : Nat) : Option Octix :=
  let d := bits w 47 43
  let a := bits w 42 38
  let n : SReg := fin 32 (bits w 37 33)
  match major, minor with
  | 0x08, 0x01 =>
    match baseOf (bits w 32 32) (bits w 31 29) d, baseOf (bits w 28 28) (bits w 27 25) a with
    | some dst, some src => keep (rsvd w 24 0) (.cp dst src n)
    | _, _ => none
  | 0x09, 0x01 =>
    match baseOf (bits w 27 27) (bits w 26 24) a with
    | some src => keep (rsvd w 23 0) (.push (fin 32 (bits w 32 28)) (fin 32 d) src n)
    | none => none
  | 0x0A, 0x01 => decodeM w 16 (fun d base off => .vld (fin 16 d) base off)
  | 0x0A, 0x02 => decodeM w 16 (fun d base off => .vst (fin 16 d) base off)
  | 0x0A, 0x03 => decodeM w 4 (fun d base off => .tld (fin 4 d) base off)
  | 0x0A, 0x04 => decodeM w 4 (fun d base off => .tst (fin 4 d) base off)
  | 0x0A, 0x05 => keep (rsvd w 37 5 && decide (a < 16)) (.vext (fin 32 d) (fin 16 a) (fin 32 (bits w 4 0)))
  | 0x0A, 0x06 => keep (rsvd w 37 5 && decide (d < 16)) (.vins (fin 16 d) (fin 32 a) (fin 32 (bits w 4 0)))
  | 0x0A, 0x07 => keep (rsvd w 37 0 && decide (d < 16)) (.vbcast (fin 16 d) (fin 32 a))
  | 0x0B, 0x01 => keep (rsvd w 47 0) .swap
  | 0x0B, 0x02 => keep (rsvd w 47 0) .mfence
  | _, _ => none

/-- The scope of an event word (R126). -/
def evScopeOf : Nat → Option EvScope
  | 0 => some .cluster | 2 => some .part | _ => none

/-- Majors 0x0C to 0x0E: the sync and control classes. -/
def decodeSync (w : W64) (major minor : Nat) : Option Octix :=
  let r : SReg := fin 32 (bits w 47 43)
  let tgt : Fin 2048 := fin 2048 (bits w 10 0)
  let clap (op : ClapOp) : Option Octix :=
    keep (rsvd w 36 0 && decide (bits w 47 46 < 3))
      (.clap op (fin 3 (bits w 47 46)) (fin 16 (bits w 45 42)) (fin 32 (bits w 41 37)))
  let ev (k : EvScope → Octix) (pd : Bool) : Option Octix :=
    match evScopeOf (bits w 47 46) with
    | some sc => keep (rsvd w 36 0 && (pd || rsvd w 39 37)) (k sc)
    | none => none
  let n : Fin 64 := fin 64 (bits w 45 40)
  match major, minor with
  | 0x0C, 0x01 => clap .both
  | 0x0C, 0x02 => clap .arrive
  | 0x0C, 0x03 => clap .wait
  | 0x0D, 0x01 => ev (fun sc => .ev .set sc n) false
  | 0x0D, 0x02 => ev (fun sc => .ev .clr sc n) false
  | 0x0D, 0x03 => ev (fun sc => .ev .wait sc n) false
  | 0x0D, 0x04 => ev (fun sc => .evTest (fin 8 (bits w 39 37)) sc n) true
  | 0x0D, 0x11 => keep (rsvd w 42 16) (.waitCr r (BitVec.ofNat 16 (bits w 15 0)))
  | 0x0D, 0x12 => keep (rsvd w 37 0) (.waitCrr r (fin 32 (bits w 42 38)))
  | 0x0D, 0x21 => keep (rsvd w 47 38 && rsvd w 34 0) (.waitVd (fin 8 (bits w 37 35)))
  | 0x0E, 0x01 => keep (rsvd w 47 0) .nop
  | 0x0E, 0x02 => keep (rsvd w 47 11) (.br tgt)
  | 0x0E, 0x03 => keep (rsvd w 42 0) (.brr r)
  | 0x0E, 0x04 => keep (rsvd w 42 11) (.call r tgt)
  | 0x0E, 0x05 => keep (rsvd w 42 11) (.loop r tgt)
  | 0x0E, 0x06 => keep (rsvd w 42 0) (.halt r)
  | 0x0E, 0x07 => keep (rsvd w 47 0) .fclr
  | _, _ => none

/-- Majors 0x10 to 0x13: the tensor classes (Tables 5.3, 5.4). -/
def decodeTensor (w : W64) (major minor : Nat) : Option Octix :=
  let t : TReg := fin 4 (bits w 47 46)
  let g (hi lo : Nat) : Gen := fin 8 (bits w hi lo)
  match major, minor with
  | 0x10, 0x01 =>
    match fmtOfCode (bits w 45 42), fmtOfCode (bits w 41 38) with
    | some fa, some fw => keep (rsvd w 10 0) (.tmma {
        t := t, fa := fa, fw := fw, aga := g 37 35, agw := g 34 32, ags := g 31 29, agv := g 22 20
        nb := fin 64 (bits w 28 23), sa := bit w 19, sw := bit w 18, z := bit w 17, m := bit w 16
        ro := fin 32 (bits w 15 11) })
    | _, _ => none
  | 0x11, 0x01 => keep (rsvd w 45 0) (.tzero t)
  | 0x11, 0x02 => keep (rsvd w 45 38 && rsvd w 34 0) (.tbias t (g 37 35))
  | 0x12, 0x01 =>
    match fmtOfCode (bits w 45 42), rndOfCode (bits w 22 21) with
    | some f, some rnd => keep (rsvd w 41 38 && rsvd w 34 32 && rsvd w 28 23 && rsvd w 5 0) (.tcvt {
        t := t, f := f, agd := g 37 35, ags := g 31 29, rnd := rnd, sat := bit w 20, p := bit w 19, s := bit w 18
        rb := fin 32 (bits w 17 13), rs := fin 32 (bits w 12 8), slot := fin 4 (bits w 7 6) })
    | _, _ => none
  | 0x13, 0x01 => keep (rsvd w 47 23 && rsvd w 17 0) (.tset .m (fin 32 (bits w 22 18)))
  | 0x13, 0x02 => keep (rsvd w 47 23 && rsvd w 17 0) (.tset .n (fin 32 (bits w 22 18)))
  | 0x13, 0x03 => keep (rsvd w 47 23 && rsvd w 17 0) (.tset .k (fin 32 (bits w 22 18)))
  | 0x13, 0x04 => keep (rsvd w 47 18 && rsvd w 16 0) (.tseth (bit w 17))
  | _, _ => none

/-- Majors 0x18 to 0x1D: the vector classes (format V, Table 6.1). -/
def decodeVector (w : W64) (major minor : Nat) : Option Octix :=
  match vOfCode major minor, fmtOfCode (bits w 31 28), rndOfCode (bits w 27 26) with
  | some op, some f, some rnd => keep (rsvd w 0 0) (.vec op {
      vd := fin 16 (bits w 47 44), va := fin 16 (bits w 43 40), vb := fin 16 (bits w 39 36), vc := fin 16 (bits w 35 32)
      f := f, rnd := rnd, sat := bit w 25, ag := fin 8 (bits w 24 22), s := fin 32 (bits w 21 17)
      ta := fin 4 (bits w 16 15), bs := bit w 14, causal := bit w 13, mask := bit w 12, h := bit w 11, p := bit w 10
      sc := bit w 9, rs := fin 32 (bits w 8 4), sb := bit w 3, slot := fin 4 (bits w 2 1) })
  | _, _, _ => none

/-- Majors 0x20 to 0x22: the dolly classes (Table 8.6). -/
def decodeDolly (w : W64) (major minor : Nat) : Option Octix :=
  let ch : VReg := fin 16 (bits w 47 44)
  let a : SReg := fin 32 (bits w 43 39)
  match major, minor with
  | 0x20, 0x01 => keep (rsvd w 43 0) (.darm ch)
  | 0x20, 0x02 => keep (rsvd w 33 0) (.dlaunch (fin 32 (bits w 38 34)) ch a)
  | 0x21, 0x01 => keep (rsvd w 43 0) (.dstop ch)
  | 0x21, 0x02 => keep (rsvd w 43 0) (.ddis ch)
  | 0x22, 0x01 => keep (rsvd w 38 0) (.dwait ch a)
  | 0x22, 0x02 => keep (rsvd w 38 1) (.dq (bit w 0) a ch)
  | _, _ => none

/-- The instruction of a word whose header bits [51:48] have been taken; nothing for an illegal encoding (R98, R105). -/
def decodeOctix (w : W64) : Option Octix :=
  let major := bits w 63 58
  let minor := bits w 57 52
  if !bit w 51 && bits w 50 48 ≠ 0 then none
  else if major < 0x07 then decodeScalar w major minor
  else if major < 0x0C then decodeMove w major minor
  else if major < 0x10 then decodeSync w major minor
  else if major < 0x18 then decodeTensor w major minor
  else if major < 0x20 then decodeVector w major minor
  else decodeDolly w major minor

/-- The predicate that guards a word (R66); none when it is not predicated. -/
def guardOf (w : W64) : Option PReg := if bit w 51 then some (fin 8 (bits w 50 48)) else none

/-- The generator bit, generator field and register field of a base. -/
def baseCode : Base → Nat × Nat × Nat
  | .reg r => (0, 0, r.val)
  | .gen g => (1, g.val, 0)

/-- Format M fields. -/
def encodeM (d : Nat) (base : Base) (off : W32) : Nat :=
  let (g, ag, a) := baseCode base
  d * 2 ^ 43 + a * 2 ^ 38 + g * 2 ^ 37 + ag * 2 ^ 34 + off.toNat

/-- Minor of a scalar load. -/
def ldCode : MemSize → Bool → Nat
  | .b, true => 1 | .b, false => 2 | .h, true => 3 | .h, false => 4 | .w, true => 5 | .w, false => 6 | .d, _ => 7

/-- Minor of a scalar store. -/
def stCode : MemSize → Nat
  | .b => 0x11 | .h => 0x12 | .w => 0x13 | .d => 0x14

/-- The scope code of an event word. -/
def evScopeCode : EvScope → Nat
  | .cluster => 0 | .part => 2

/-- Major, minor and the operand bits [47:0] of an instruction (Tables 4.2 to 4.13, 5.3, 5.4, 6.1 to 6.4, 8.6). -/
def encodeOctix : Octix → Nat × Nat × Nat
  | .alu op d a b => ((aluCode op).1, (aluCode op).2, d.val * 2 ^ 43 + a.val * 2 ^ 38 + b.val * 2 ^ 33)
  | .count op d a => (2, match op with | .popc => 9 | .clz => 10 | .ctz => 11, d.val * 2 ^ 43 + a.val * 2 ^ 38)
  | .sel d q a b => (2, 12, d.val * 2 ^ 43 + a.val * 2 ^ 38 + b.val * 2 ^ 33 + q.val * 2 ^ 25)
  | .aluI op d a imm => ((aluCode op).1 + 1, (aluCode op).2, d.val * 2 ^ 43 + a.val * 2 ^ 38 + imm.toNat)
  | .mov op d imm => (1, match op with | .movi => 0x10 | .movhi => 0x11 | .movz => 0x12, d.val * 2 ^ 43 + imm.toNat)
  | .cmp op pd a b => (4, cmpCode op, pd.val * 2 ^ 45 + a.val * 2 ^ 40 + b.val * 2 ^ 35)
  | .cmpI op pd a imm => (4, cmpCode op + 0x10, pd.val * 2 ^ 45 + a.val * 2 ^ 40 + imm.toNat)
  | .pred op pd pa pb => (4, match op with | .and => 0x21 | .or => 0x22 | .xor => 0x23 | .andn => 0x24,
      pd.val * 2 ^ 45 + pa.val * 2 ^ 32 + pb.val * 2 ^ 29)
  | .pnot pd pa => (4, 0x25, pd.val * 2 ^ 45 + pa.val * 2 ^ 32)
  | .ld sz sg d base off => (5, ldCode sz sg, encodeM d.val base off)
  | .st sz d base off => (5, stCode sz, encodeM d.val base off)
  | .mfsr r num => (6, 1, r.val * 2 ^ 43 + num.val)
  | .mtsr num r => (6, 2, r.val * 2 ^ 43 + num.val)
  | .cp dst src n =>
    let (gd, agd, d) := baseCode dst
    let (ga, aga, a) := baseCode src
    (8, 1, d * 2 ^ 43 + a * 2 ^ 38 + n.val * 2 ^ 33 + gd * 2 ^ 32 + agd * 2 ^ 29 + ga * 2 ^ 28 + aga * 2 ^ 25)
  | .push sel o src n =>
    let (ga, aga, a) := baseCode src
    (9, 1, o.val * 2 ^ 43 + a * 2 ^ 38 + n.val * 2 ^ 33 + sel.val * 2 ^ 28 + ga * 2 ^ 27 + aga * 2 ^ 24)
  | .vld d base off => (0xA, 1, encodeM d.val base off)
  | .vst d base off => (0xA, 2, encodeM d.val base off)
  | .tld d base off => (0xA, 3, encodeM d.val base off)
  | .tst d base off => (0xA, 4, encodeM d.val base off)
  | .vext d a lane => (0xA, 5, d.val * 2 ^ 43 + a.val * 2 ^ 38 + lane.val)
  | .vins d a lane => (0xA, 6, d.val * 2 ^ 43 + a.val * 2 ^ 38 + lane.val)
  | .vbcast d a => (0xA, 7, d.val * 2 ^ 43 + a.val * 2 ^ 38)
  | .swap => (0xB, 1, 0)
  | .mfence => (0xB, 2, 0)
  | .clap op sc id n => (0xC, match op with | .both => 1 | .arrive => 2 | .wait => 3,
      sc.val * 2 ^ 46 + id.val * 2 ^ 42 + n.val * 2 ^ 37)
  | .ev op sc n => (0xD, match op with | .set => 1 | .clr => 2 | .wait => 3, evScopeCode sc * 2 ^ 46 + n.val * 2 ^ 40)
  | .evTest pd sc n => (0xD, 4, evScopeCode sc * 2 ^ 46 + n.val * 2 ^ 40 + pd.val * 2 ^ 37)
  | .waitCr ch imm => (0xD, 0x11, ch.val * 2 ^ 43 + imm.toNat)
  | .waitCrr ch n => (0xD, 0x12, ch.val * 2 ^ 43 + n.val * 2 ^ 38)
  | .waitVd pd => (0xD, 0x21, pd.val * 2 ^ 35)
  | .nop => (0xE, 1, 0)
  | .br tgt => (0xE, 2, tgt.val)
  | .brr r => (0xE, 3, r.val * 2 ^ 43)
  | .call r tgt => (0xE, 4, r.val * 2 ^ 43 + tgt.val)
  | .loop e t => (0xE, 5, e.val * 2 ^ 43 + t.val)
  | .halt r => (0xE, 6, r.val * 2 ^ 43)
  | .fclr => (0xE, 7, 0)
  | .tmma x => (0x10, 1, x.t.val * 2 ^ 46 + codeOfFmt x.fa * 2 ^ 42 + codeOfFmt x.fw * 2 ^ 38 + x.aga.val * 2 ^ 35
      + x.agw.val * 2 ^ 32 + x.ags.val * 2 ^ 29 + x.nb.val * 2 ^ 23 + x.agv.val * 2 ^ 20 + b2n x.sa * 2 ^ 19
      + b2n x.sw * 2 ^ 18 + b2n x.z * 2 ^ 17 + b2n x.m * 2 ^ 16 + x.ro.val * 2 ^ 11)
  | .tzero t => (0x11, 1, t.val * 2 ^ 46)
  | .tbias t ag => (0x11, 2, t.val * 2 ^ 46 + ag.val * 2 ^ 35)
  | .tcvt x => (0x12, 1, x.t.val * 2 ^ 46 + codeOfFmt x.f * 2 ^ 42 + x.agd.val * 2 ^ 35 + x.ags.val * 2 ^ 29
      + codeOfRnd x.rnd * 2 ^ 21 + b2n x.sat * 2 ^ 20 + b2n x.p * 2 ^ 19 + b2n x.s * 2 ^ 18 + x.rb.val * 2 ^ 13
      + x.rs.val * 2 ^ 8 + x.slot.val * 2 ^ 6)
  | .tset op a => (0x13, match op with | .m => 1 | .n => 2 | .k => 3, a.val * 2 ^ 18)
  | .tseth h => (0x13, 4, b2n h * 2 ^ 17)
  | .vec op x => ((vCode op).1, (vCode op).2, x.vd.val * 2 ^ 44 + x.va.val * 2 ^ 40 + x.vb.val * 2 ^ 36
      + x.vc.val * 2 ^ 32 + codeOfFmt x.f * 2 ^ 28 + codeOfRnd x.rnd * 2 ^ 26 + b2n x.sat * 2 ^ 25 + x.ag.val * 2 ^ 22
      + x.s.val * 2 ^ 17 + x.ta.val * 2 ^ 15 + b2n x.bs * 2 ^ 14 + b2n x.causal * 2 ^ 13 + b2n x.mask * 2 ^ 12
      + b2n x.h * 2 ^ 11 + b2n x.p * 2 ^ 10 + b2n x.sc * 2 ^ 9 + x.rs.val * 2 ^ 4 + b2n x.sb * 2 ^ 3 + x.slot.val * 2)
  | .darm ch => (0x20, 1, ch.val * 2 ^ 44)
  | .dlaunch b ch a => (0x20, 2, ch.val * 2 ^ 44 + a.val * 2 ^ 39 + b.val * 2 ^ 34)
  | .dstop ch => (0x21, 1, ch.val * 2 ^ 44)
  | .ddis ch => (0x21, 2, ch.val * 2 ^ 44)
  | .dwait ch a => (0x22, 1, ch.val * 2 ^ 44 + a.val * 2 ^ 39)
  | .dq s a ch => (0x22, 2, ch.val * 2 ^ 44 + a.val * 2 ^ 39 + b2n s)

/-- The 64-bit word of an instruction under an optional guard (Table 4.1). -/
def encodeWord (g : Option PReg) (i : Octix) : W64 :=
  let (major, minor, op) := encodeOctix i
  BitVec.ofNat 64 (major * 2 ^ 58 + minor * 2 ^ 52 + (match g with | some p => 2 ^ 51 + p.val * 2 ^ 48 | none => 0) + op)

end Sys2Proof.Machine
end

