-- ==== Sys2Proof/Machine/Sparse.lean ====
section
/-!
DEFINITION. The store of values by key in one canonical form: keys strictly rising, and no entry equal to what an
unlisted key reads as. Memories, register stores and the records of cores, clusters and engines are kept so.
-/
namespace Sys2Proof.Machine

/-- Values by key; a key that is not listed reads as the default the user of the store names. -/
abbrev Sparse (α : Type) := List (Nat × α)

/-- The value at a key. -/
def sget {α : Type} (d : Nat → α) : Sparse α → Nat → α
  | [], k => d k
  | (k', v) :: m, k => if k = k' then v else sget d m k

/-- The store without a key. -/
def sdrop {α : Type} (m : Sparse α) (k : Nat) : Sparse α := m.filter (fun e => e.1 != k)

/-- The store with a key set to a value; setting the default removes the key. -/
def sset {α : Type} [DecidableEq α] (d : Nat → α) : Sparse α → Nat → α → Sparse α
  | [], k, v => if v = d k then [] else [(k, v)]
  | (k', v') :: m, k, v =>
    if k < k' then
      if v = d k then sdrop ((k', v') :: m) k else (k, v) :: (k', v') :: m
    else if k = k' then
      if v = d k then sdrop m k else (k, v) :: sdrop m k
    else (k', v') :: sset d m k v

/-- Keys strictly rising, each above a bound. -/
def risingFrom {α : Type} : Nat → Sparse α → Bool
  | _, [] => true
  | lo, (k, _) :: m => decide (lo ≤ k) && risingFrom (k + 1) m

/-- The canonical form of a store. -/
def sparseWf {α : Type} [DecidableEq α] (d : Nat → α) (m : Sparse α) : Bool :=
  risingFrom 0 m && m.all (fun e => decide (e.2 ≠ d e.1))

/-- The store with every key of a range forgotten, so that it reads as the default again. -/
def sclear {α : Type} (m : Sparse α) (lo n : Nat) : Sparse α :=
  m.filter (fun e => decide (e.1 < lo ∨ lo + n ≤ e.1))

end Sys2Proof.Machine
end

