-- ==== Sys2Proof/Machine/State.lean ====
section
/-!
DEFINITION. The state of the module as plain data, the faults and refusals of a step, and the state after reset.
-/
namespace Sys2Proof.Machine

/-! ## The Octix core (03_octix_core.md) -/

/-- Table 3.6. -/
inductive CoreState where
  | halted | running | waiting | faulted
  deriving DecidableEq, Repr

/-- One active hardware loop level (R86). -/
structure LoopLevel where
  cnt : W32
  ext : W32
  start : Nat
  last : Nat
  deriving DecidableEq, Repr

/-- A tensor instruction in its queue: its place in issue order, the instruction, the stage map and set-up state it captured at issue (R74, R140),
its addresses, and the generator inputs of a conversion (R146). -/
structure TensorOp where
  seq : Nat
  op : Octix
  pc : W16
  map : Bool
  a : W32
  w : W32
  sa : W32
  sw : W32
  txM : Nat
  txN : Nat
  txK : Nat
  txH : Nat
  base : W64
  stream : W16
  deriving DecidableEq, Repr

/-- A vector instruction in its queue, with the operands it read at issue (R84). -/
structure VecOp where
  seq : Nat
  op : VOp
  x : VFields
  pc : W16
  map : Bool
  va : List W32
  vb : List W32
  vc : List W32
  vd : List W32
  s : W64
  stream : W16
  addr : W32
  txM : Nat
  txN : Nat
  deriving DecidableEq, Repr

/-- What an entry of the move queue does (R64, R115 to R118). -/
inductive MoveKind where
  | copy
  | vld (d : VReg)
  | vst (data : List W32)
  | tld (d : TReg)
  | tst (d : TReg)
  | push (sel : SReg) (off : W32)
  deriving DecidableEq, Repr

/-- An entry of the move queue: addresses resolved under the stage map at issue (R74). -/
structure MoveOp where
  seq : Nat
  kind : MoveKind
  pc : W16
  map : Bool
  src : W32
  dst : W32
  len : W32
  deriving DecidableEq, Repr

/-- A cluster-store load that has not returned: its destination, the value it read, and the bank it reads (R92, R112). -/
structure LoadOp where
  seq : Nat
  d : SReg
  v : W64
  bank : Nat
  deriving DecidableEq, Repr

/-- What a Waiting core waits on (R123, R127, R131, R132). -/
inductive Wait where
  | clap (key : Nat)
  | clapThen (key : Nat)
  | credit (ch : SReg) (count : W32)
  | event (scope : EvScope) (ev : Fin 64) (seen : Bool)
  | verdict (pd : PReg)
  deriving DecidableEq, Repr

/-- A pushed unit on its way to its receiver: the position it takes there (R91), window offset and 64 bytes (R90). -/
structure HaloUnit where
  sender : Nat
  pos : Nat
  off : W32
  data : List Byte
  deriving DecidableEq, Repr

/-- One Octix core (Tables 3.2 to 3.4, 5.2, and the queues of Table 3.1). `nIssued` numbers its issued instructions for
R84 and R158; `wakeDone` marks a wait that ended while the cluster was below Rolling and takes effect there, `waking` a core whose START has woken
its cluster from Dark and waits for its return (R419). -/
structure CoreSt where
  state : CoreState
  pc : W16
  s : Sparse W64
  p : Byte
  v : Sparse W32
  t : Sparse W32
  stageMap : Bool
  nonfinite : Bool
  credOvf : Bool
  haloDrop : Bool
  cycle : W64
  slate : W64
  seed : W64
  ctxReg : W32
  fault : W32
  faultAddr : W64
  cancel : W32
  depStall : BitVec 48
  idle : Sparse (BitVec 48)
  haloBase : W32
  haloSize : W32
  haloCredit : W32
  cred : Sparse W16
  loops : List LoopLevel
  agBase : Sparse W32
  agStride : Sparse W32
  txM : Nat
  txN : Nat
  txK : Nat
  txH : Nat
  tq : List TensorOp
  vq : List VecOp
  mq : List MoveOp
  loads : List LoadOp
  wait : Option Wait
  halting : Option W16
  haltCode : W16
  lastCtx : Option Ctx
  scrubbing : Bool
  haloIn : List HaloUnit
  haloPos : Nat
  reported : Bool
  nIssued : Nat
  wakeDone : Bool
  waking : Bool
  deriving DecidableEq, Repr

/-- A core after core reset (Tables 3.2, 3.3, 5.2). -/
def CoreSt.reset : CoreSt where
  state := .halted
  pc := 0
  s := []
  p := 0
  v := []
  t := []
  stageMap := false
  nonfinite := false
  credOvf := false
  haloDrop := false
  cycle := 0
  slate := 0
  seed := 0
  ctxReg := 0
  fault := 0
  faultAddr := 0
  cancel := 0
  depStall := 0
  idle := []
  haloBase := 0
  haloSize := 0
  haloCredit := 0
  cred := []
  loops := []
  agBase := []
  agStride := []
  txM := 16
  txN := 32
  txK := 32
  txH := 16
  tq := []
  vq := []
  mq := []
  loads := []
  wait := none
  halting := none
  haltCode := 0
  lastCtx := none
  scrubbing := false
  haloIn := []
  haloPos := 0
  reported := false
  nIssued := 0
  wakeDone := false
  waking := false

/-- A clapper (R123). -/
structure Clapper where
  gen : Bool
  arrived : W32
  expect : W32
  deriving DecidableEq, Repr

/-- A pending arrival of a core on a clapper: the count while it is on its way, the generation once counted, and whether
its release has been given and is on its way back (R123, R124). -/
structure Arrival where
  core : Nat
  key : Nat
  count : Option W32
  released : Bool
  deriving DecidableEq, Repr

/-! ## The dolly (08_dolly_transfers.md) -/

/-- A descriptor in a channel: its eight words, its sequence number (R201, Table 8.4), and whether it was launched before the
partition's last open (R286). -/
structure QDesc where
  words : List W64
  seq : W32
  old : Bool := false
  deriving DecidableEq, Repr

/-- A row's data read and not yet written (R209): the descriptor's place in the channel's stream (0 the active one), the row
and the granules read. -/
structure RowBuf where
  desc : Nat
  row : Nat
  data : List (List Byte)
  deriving DecidableEq, Repr

/-- A write to space 3 that its target has accepted and that becomes visible at the descriptor's completion (R207, R215): its row,
the module address it resolved to, and its bytes. -/
structure FarWrite where
  row : Nat
  addr : Nat
  data : List Byte
  deriving DecidableEq, Repr

/-- A target that received writes of the active descriptor, with the module address of the last line written to it and that
line's row: what a read-back reads (R215). -/
structure ReadBack where
  target : Nat
  addr : Nat
  row : Nat
  deriving DecidableEq, Repr

/-- A channel's hidden state: the active descriptor, the waiting queue and the descriptors that entered during a stop (R226),
the sequence count, the lowest row not delivered, the next granule to read (descriptor of the stream, row, granule) and to
write, data and index entries read ahead, whether the active descriptor has issued a read and awaits its read-backs, the line
requests granted whose responses are out (R213), its writes to space 3 and their read-backs, the cores credited since arm
(R225), the controls in effect (Table 8.8), and whether a refused request waits to issue again (R221). -/
structure ChanSt where
  active : Option QDesc
  queue : List QDesc
  kept : List QDesc
  seqCount : W32
  row : Nat
  rdDesc : Nat
  rdRow : Nat
  rdGran : Nat
  wrRow : Nat
  wrGran : Nat
  bufs : List RowBuf
  index : List (Nat × W32)
  issued : Bool
  awaiting : Bool
  flight : Nat
  writes : List FarWrite
  backs : List ReadBack
  credited : Nat
  maxOut : Nat
  lead : Nat
  prio : Nat
  refused : Bool
  deriving DecidableEq, Repr

/-- A channel with nothing in it. -/
def ChanSt.reset : ChanSt where
  active := none
  queue := []
  kept := []
  seqCount := 0
  row := 0
  rdDesc := 0
  rdRow := 0
  rdGran := 0
  wrRow := 0
  wrGran := 0
  bufs := []
  index := []
  issued := false
  awaiting := false
  flight := 0
  writes := []
  backs := []
  credited := 0
  maxOut := 32
  lead := 4
  prio := 1
  refused := false

/-! ## Memory tiers and partitions (09, 14) -/

/-- A pinned granule: the cluster and slot that hold it, and whether it was written after its switch cycle (R243, R245). -/
structure Pin where
  cluster : Nat
  slot : Nat
  written : Bool
  deriving DecidableEq, Repr

/-- A pin or unpin of a granule in progress (R243, R245): its cluster and slot, the storyboard engine and entry that wait for it,
and whether a write into the slot has spoilt it (R247). -/
structure MigJob where
  pin : Bool
  granule : Nat
  cluster : Nat
  slot : Nat
  engine : Nat
  run : Nat
  index : Nat
  spoilt : Bool
  deriving DecidableEq, Repr

/-- Who a far-tier mover copies for: a storyboard entry, a COPY command of a context, an apply chunk or a journal replay of a
print engine. -/
inductive MoveFor where
  | entry (e run index : Nat)
  | command (x : Nat) (words : List W64)
  | apply (p : Nat)
  | replay (p : Nat)
  deriving DecidableEq, Repr

/-- A far-tier mover's job (R255): the context its addresses are translated in, the range, the lines that have yet to be copied
once the job has begun, and whether a request of it was refused with retry status. -/
structure MoverJob where
  owner : MoveFor
  ctx : Nat
  src : Nat
  dst : Nat
  len : Nat
  todo : Option (List Nat)
  refused : Bool
  deriving DecidableEq, Repr

/-- A dispatched storyboard entry that is not complete (R252): the descriptors launched and not yet counted, by cluster,
channel and sequence number; a mover; the granules that have yet to switch. -/
structure SbOut where
  run : Nat
  index : Nat
  descs : List (Nat × Nat × W32)
  mover : Bool
  granules : Nat
  deriving DecidableEq, Repr

/-- A storyboard engine's progress (R253, R257): clusters served or granules pinned of the entry that is being dispatched, the
entries in progress, further entries whose MOVE has faulted, where the run goes on once a Resume has dispatched them again (the
entry, its clusters served, and the state), whether a stop waits for the dispatched entries, whether a start follows it, and the
number of the run. An entry in progress is named by its index and its run. -/
structure SbSt where
  run : Nat
  sub : Nat
  out : List SbOut
  redo : List Nat
  resumeAt : Option (Nat × Nat × Nat)
  stopping : Bool
  restart : Bool
  deriving DecidableEq, Repr

def SbSt.reset : SbSt := ⟨0, 0, [], [], none, false, false⟩

/-- A queue command in progress (R397 to R399): its eight words, the cores it still waits for, and what the cores that
stopped left for its completion (Table 14.8): counts, OR and AND of halt codes, lowest faulted core and its code. -/
structure CtxCmd where
  words : List W64
  cores : List Nat
  halted : Nat
  faulted : Nat
  haltOr : W16
  haltAnd : W16
  lowFault : Option (Nat × Nat)
  deriving DecidableEq, Repr

/-- One ring of a context or of the PF: indices, phase of the next entry written, and the register that sets it (R396,
R400, R401). -/
structure Ring where
  reg : W64
  head : Nat
  tail : Nat
  phase : Bool
  deriving DecidableEq, Repr

def Ring.reset : Ring := ⟨0, 0, 0, true⟩

/-- A context (R387 to R402). -/
structure CtxSt where
  active : Bool
  part : Part
  root : W64
  sq : Ring
  cq : Ring
  eq : Ring
  vec : W32
  invVa : W64
  invN : W32
  err : W32
  eqLost : W32
  cmds : List CtxCmd
  waitingCpl : List (List Byte)
  deriving DecidableEq, Repr

def CtxSt.reset : CtxSt where
  active := false
  part := 0
  root := 0
  sq := Ring.reset
  cq := Ring.reset
  eq := Ring.reset
  vec := 0
  invVa := 0
  invN := 0
  err := 0
  eqLost := 0
  cmds := []
  waitingCpl := []

/-- What each function of the host link holds of its own: the banked context window (R406), the half-write and half-read
latches and the block latch (R404), the data its last read returned and whether it came poisoned (Table 16.3), and of its
configuration space the codes of its payload and read request sizes and log2 of its BAR4, none for the reset size (R378, R393). -/
structure FnSt where
  enabled : Bool
  ctxSel : W32
  ctxRes : W32
  invalidating : Option Nat
  lowHeld : List (Nat × W32)
  highLatched : List (Nat × W32)
  block : List (Nat × W64)
  readData : List Byte
  poisoned : Bool
  payload : Nat
  readRequest : Nat
  bar4 : Option Nat
  deriving DecidableEq, Repr

def FnSt.reset : FnSt where
  enabled := false
  ctxSel := 0
  ctxRes := 0
  invalidating := none
  lowHeld := []
  highLatched := []
  block := []
  readData := []
  poisoned := false
  payload := 0
  readRequest := 2
  bar4 := none

/-- A cluster's windows and other hidden state: the cue of its REST and SCREEN windows (R256), whether the screen test holds
it, the next step of its pass and the house-clock count of its last completed pass (R440, R441), a held rung request (R513), whether
REPAIR_CMD takes it through Dark (R435),
the house-clock count at which it left Rolling (R419), the filler context it is lent to (R308), and the dolly's rotation and
starve counts by direction (R214). -/
structure ClusterSt where
  restCue : Option W32
  screenCue : Option W32
  screenHeld : Bool
  screenStep : Nat
  lastPass : Nat
  held : Option Nat
  reload : Bool
  lowSince : Nat
  lent : Option Ctx
  edgePos : List Nat
  dollyRd : Nat
  dollyWr : Nat
  starveRd : List Nat
  starveWr : List Nat
  deriving DecidableEq, Repr

def ClusterSt.reset : ClusterSt where
  restCue := none
  screenCue := none
  screenHeld := false
  screenStep := 0
  lastPass := 0
  held := none
  reload := false
  lowSince := 0
  lent := none
  edgePos := [0, 0, 0, 0]
  dollyRd := 0
  dollyWr := 0
  starveRd := []
  starveWr := []

/-- A gaffer's loops (R422, R423, R425): the thermal step limit, whether the last reading stood at or above throttle, and
core clocks gated by a trip or by the current limit. -/
structure GafSt where
  kth : Nat
  hot : Bool
  tripGated : Bool
  curGated : Bool
  deriving DecidableEq, Repr

def GafSt.reset : GafSt := ⟨16, false, false, false⟩

/-- A wear gauge (R446 to R448): equivalent seconds in units of 2^-32, seconds of data, the gauge at the end of each of the
last 30 days (newest first), the corrections of the last 30 days by address and second, and the events raised. -/
structure Gauge where
  g : Nat
  secs : Nat
  days : List Nat
  seen : List (Nat × Nat)
  warned : Bool
  erred : Bool
  deriving DecidableEq, Repr

def Gauge.reset : Gauge := ⟨0, 0, [], [], false, false⟩

/-- An entry of the telemetry queue (R450 to R452). -/
structure TelemEntry where
  ev : TelemEv
  coalesced : Bool
  closed : Bool
  count : W32
  first : Nat
  last : Nat
  deriving DecidableEq, Repr

/-- An event entry whose producer waits for space in its ring: a context's ring or the PF's, and the 128 bytes with the
phase bit still clear (R401). -/
structure WaitingEntry where
  ctx : Option Nat
  bytes : List Byte
  deriving DecidableEq, Repr

/-! ## Fabric (07, 12) -/

/-- A message that waits to enter a port's output queue: the port, the class (R324), the eight words of the head flit (Table 12.3), the
body bytes, the flits that are in the queue already, and whether an abort flit ends it (R319). -/
structure TxMsg where
  port : Nat
  cls : Bool
  head : List W64
  body : List Byte
  moved : Nat
  cut : Bool
  deriving DecidableEq, Repr

/-- A flit of an output queue (Table 12.2): its virtual channel × 2 + class, its kind (1 head, 2 body, 3 abort) and its 64
bytes. -/
structure TxFlit where
  ch : Nat
  kind : Nat
  data : List Byte
  deriving DecidableEq, Repr

/-- The outgoing segment that is leaving: its bytes, and whether it belongs to a pass that was aborted and followed by another. -/
structure RlSending where
  bytes : Nat
  old : Bool
  deriving DecidableEq, Repr

/-- What a reel context holds beyond its registers (R182 to R189): arrived segments not yet landed, taps counted for landed
segments, the segment that is leaving and the next outgoing index, taps on their way, and the numbers of the passes that were
aborted. -/
structure ReelSt where
  arrived : List (Nat × List Byte)
  taps : Sparse Nat
  sending : Option RlSending
  next : Nat
  tapMsgs : List Nat
  dead : List Nat
  deriving DecidableEq, Repr

def ReelSt.reset : ReelSt := ⟨[], [], none, 0, [], []⟩

/-- A collective partial or result: the dimension, its direction along the line, whether it is a result, the line index of
the member whose part it belongs to, its first unit (a result: its first 64-byte line of RBUF) and its words (R336,
R337). -/
structure CollPart where
  dim : Nat
  asc : Bool
  result : Bool
  q : Nat
  lo : Nat
  data : List W32
  deriving DecidableEq, Repr

/-- A running collective stream (R335 to R341): bytes counted for each 64 KiB contribution block; FP32 values at the entry to
dimension 0 to 2, and 3 for the owned result, by 2^40 × dimension + element; partials in the landing area by slot, and those that
have come and not yet landed; messages that wait for a credit; credits by 2 × dimension + direction; chains this member has done its
part of; results on their way to memory; result lines landed; the exact accumulators SQ and NS; exchange sources landed, and the
rows of each that have come. -/
structure StreamSt where
  counted : Sparse Nat
  vals : Sparse (Option W32)
  slots : List (Nat × CollPart)
  arrived : List CollPart
  waiting : List CollPart
  credits : List Nat
  started : List (List Nat)
  landing : List (Nat × List Byte)
  landed : Sparse Bool
  sq : Nat
  ns : Nat
  sources : List Nat
  rowsIn : Sparse Nat
  exchanged : Bool
  deriving DecidableEq, Repr

def StreamSt.reset : StreamSt := ⟨[], [], [], [], [], [8, 8, 8, 8, 8, 8], [], [], [], 0, 0, [], [], false⟩

/-- What a group holds beyond its registers (R328 to R333, R485): members in rank order as coordinate words; parent port and child
ports of the census tree; of the census in progress its number, the ports whose answer is awaited and the members reached; whether
the anchor's census was forced (R345); and whether the member compares epochs after a warm reset. -/
structure GroupSt where
  members : List Nat
  parent : Option Nat
  children : List Nat
  wave : Nat
  awaiting : List Nat
  reached : List Nat
  censusOpen : Bool
  forced : Bool
  warm : Bool
  deriving DecidableEq, Repr

def GroupSt.reset : GroupSt := ⟨[], none, [], 0, [], [], false, false, false⟩

/-- What a port holds beyond its registers (R315 to R325, R343, R344). Receiving: the next frame number, rejections in a row, whether
a replay is to be asked for, parts of messages by virtual channel and class, flits held in the input buffer and credits owed for
those that left it. Sending: the frame asked for again and how often, the next frame number, the unacknowledged frames, those to
be sent again, flits in the output queue and those granted for the next frames, the message begun on each virtual channel with its
class and the body flits it still has, link credits, the link commands to be sent, and the frame last sent. Then the sleep
handshake, and symbols received with the corrected and received symbols at the end of each second of the last hour, newest first
(R447). -/
structure PortSt where
  rxSeq : Nat
  rejects : Nat
  nakOut : Bool
  parts : List (Nat × List Byte)
  held : List Nat
  owed : List Nat
  nakAt : Nat
  nakCount : Nat
  txSeq : Nat
  kept : List (Nat × List Byte)
  again : List (List Byte)
  outq : List TxFlit
  slots : List TxFlit
  begun : List (Nat × Nat × Nat)
  credits : List Nat
  cmds : List Nat
  wire : List Byte
  asked : Bool
  requested : Bool
  committed : Bool
  latched : Bool
  exiting : Bool
  headSeen : Bool
  busy : Bool
  sleepFrom : Nat
  symbols : Nat
  hourMarks : List (Nat × Nat)
  deriving DecidableEq, Repr

def PortSt.reset : PortSt :=
  ⟨0, 0, false, [], zero8, zero8, 0, 0, 0, [], [], [], [], [], zero8, [], [], false, false, false, false, false, false, false, 0, 0, []⟩
where
  zero8 : List Nat := List.replicate 8 0

/-! ## Arbiters (10) -/

/-- A request that waits at an arbiter (R263, R267): as it came, the beats for which it has been ready, and whether it was
flagged as starved (R277). -/
structure ArbPend extends ArbReq where
  starved : Bool
  deriving DecidableEq, Repr

/-- A grant (R269 to R275): its request, its own beats so far and at its end, and whether a late cancel cut it. -/
structure ArbRun where
  rq : Nat
  id : Nat
  dolly : Option DollyTag
  locked : Bool
  own : Nat
  stop : Nat
  late : Bool
  deriving DecidableEq, Repr

/-- An arbiter: the current entry, whether the period's pre-emption is spent (R275), beats granted in the period by requester
(R278), the requester number ties are counted from (R267), the requests that wait, the running grant, the grant it interrupts
and which goes on after it (R275), whether a cancel has come in the decision beat and whether the decision falls to background ranking after it (R270), and the phase that
Recovery ended and the phase that a Test burst ended (R276, R445). -/
structure ArbSt where
  ptr : Nat
  spent : Bool
  used : Sparse Nat
  tieFrom : Nat
  reqs : List ArbPend
  run : Option ArbRun
  cut : Option ArbRun
  due : Bool
  again : Bool
  saved : Option Nat
  tested : Option Nat
  deriving DecidableEq, Repr

def ArbSt.reset : ArbSt := ⟨0, false, [], 0, [], none, none, false, false, none, none⟩

/-! ## Print engines (11) -/

/-- What a print engine holds beyond its registers: attempts of each slate opened since the last print; the splice cursor
and group epoch at the open; the lowest failure recorded; whether the contribution is sent; the verdict `wait.vd` sees (slate,
attempt, finite); contributions and votes held, by port, 7 this module's own; the verdict and vote result an anchor has
formed; the verdict acted on; whether PRINT_HOLD has passed, the vote is a skip-print's, the module has joined the vote and
its staged bit; whether the re-formed group left it out; the epoch at the verdict; the journal's staged_hi, CRC register
and sequence number; whether a chunk is being copied; whether the next enable reads the journal (R486); whether
PRINT_BR_BAYS(0) has been written; the branches whose averages hold a value; and branch 0's S and G of this take. -/
structure PrintSt where
  opened : Sparse Nat
  cursor : W64
  openEpoch : W32
  fail : Nat
  contributed : Bool
  verdict : Option (W64 × Nat × Bool)
  parts : List (Nat × Contribution)
  formed : Option VerdictMsg
  acted : Option VerdictMsg
  holdDone : Bool
  skip : Bool
  joined : Bool
  staged : Bool
  votes : List (Nat × VoteMsg)
  voteFormed : Option VoteMsg
  leftOut : Bool
  vdEpoch : W32
  stagedHi : Nat
  crc : W64
  seq : W64
  copying : Bool
  warm : Bool
  baysSet : Bool
  emaSet : List Nat
  est : Option (W64 × W64)
  deriving DecidableEq, Repr

def PrintSt.reset : PrintSt where
  opened := []
  cursor := 0
  openEpoch := 0
  fail := 0
  contributed := false
  verdict := none
  parts := []
  formed := none
  acted := none
  holdDone := false
  skip := false
  joined := false
  staged := false
  votes := []
  voteFormed := none
  leftOut := false
  vdEpoch := 0
  stagedHi := 0
  crc := 0xFFFFFFFFFFFFFFFF
  seq := 0
  copying := false
  warm := false
  baysSet := false
  emaSet := []
  est := none

/-! ## Dailies (13) -/

/-- A sample of a batch: its place in the share, global position, sample index and slot (R354); its record's words; the port
its reads go to; the size of a block, the next block to read and the one after the range, and the blocks that have arrived, by
number (R351); causes of Table 13.8 met so far; the projector that decodes it; whether its region is written. -/
structure DlySample where
  i : Nat
  pos : Nat
  index : Nat
  slot : Nat
  words : List W64
  port : Nat
  lba : Nat
  next : Nat
  last : Nat
  data : List (Nat × List Byte)
  causes : List Nat
  proj : Option Nat
  done : Bool
  deriving DecidableEq, Repr

/-- A batch (R355, R356): the cursor it begins at, its slot, its samples, whether it is ready and has had its list launched. -/
structure DlyBatch where
  start : Nat
  slot : Nat
  samples : List DlySample
  ready : Bool
  launched : Bool
  deriving DecidableEq, Repr

/-- An ingest stream: its batches in ascending order, whether its configuration is refused, the start of the batch whose ready
list the open waits for (R357), the list being launched (slot, entry, clusters served) and whether a fault holds it (R358), and the
projectors that decode for discarded batches (R360). -/
structure StrSt where
  batches : List DlyBatch
  refused : Bool
  waiting : Option Nat
  list : Option (Nat × Nat × Nat)
  held : Bool
  dropped : List Nat
  deriving DecidableEq, Repr

def StrSt.reset : StrSt := ⟨[], false, none, none, false, []⟩

/-- A Read (R351): its number, partition, batch, position, namespace, whether the other port may serve it, port, first block, blocks,
attempts made before, whether it is outstanding or waits to be issued again, and whether its batch is still there (R360). -/
structure DlyRead where
  id : Nat
  part : Nat
  start : Nat
  pos : Nat
  nsid : Nat
  either : Bool
  port : Nat
  lba : Nat
  n : Nat
  tries : Nat
  issued : Bool
  live : Bool
  deriving DecidableEq, Repr

/-- What an NVMe controller reported (R350): namespaces, the largest transfer in bytes, and the depth of its I/O queues. -/
structure NvSt where
  nss : List NvNs
  mdts : Nat
  depth : Nat
  deriving DecidableEq, Repr

def NvSt.reset : NvSt := ⟨[], 0, 0⟩

/-! ## Reset, boot and management (18) -/

/-- What the TAP drives on the single-ended lands (R490): nothing, the boundary register, or high impedance. -/
inductive TapDrive where
  | none | boundary | highz
  deriving DecidableEq, Repr

/-- Reset, boot, MCTP and TAP: the reset in progress (type and source of MOD_RST_CAUSE) and the house-clock count of its
trigger's end; the lands RESET_N and PERST_N asserted; the input and the house domain up; the dies powered; whether they stay
off until a cold reset (R480); the dies that were not released (R483); ROM recovery (R481); the house-clock count at Ready; the two firmware images; the MCTP endpoint
ID and the last MCTP response; the status and data of the last configuration completion; the TAP's bypass bit, boundary
register, drive and last scan out. -/
structure BootSt where
  inReset : Option (Nat × Nat)
  trigEnd : Nat
  rstN : Bool
  perst : Bool
  input : Bool
  house : Bool
  dies : Bool
  latched : Bool
  dead : List Nat
  rom : Bool
  readyAt : Nat
  fw0 : Sparse Byte
  fw1 : Sparse Byte
  eid : Byte
  resp : List Byte
  cfgResp : Option (Nat × W32)
  tapBit : Bool
  boundary : List Bool
  drive : TapDrive
  tdo : List Bool
  deriving DecidableEq, Repr

def BootSt.reset : BootSt where
  inReset := none
  trigEnd := 0
  rstN := false
  perst := false
  input := false
  house := false
  dies := false
  latched := false
  dead := []
  rom := false
  readyAt := 0
  fw0 := []
  fw1 := []
  eid := 0
  resp := []
  cfgResp := none
  tapBit := false
  boundary := []
  drive := .none
  tdo := []

/-! ## The metrology unit (17) -/

/-- The MDM-1 (R457 to R467): serial; records held, newest first, and the number of the last; operating seconds; energy register;
log entries, oldest first; the case switch, and whether it opened in the interval; unsealed; firmware version and CRC; whether it
is supplied, and whether the input was absent since the last record; the last SMBus response and the last frame sent. -/
structure Mdm where
  serial : W64
  records : List (List Byte)
  seq : Nat
  opSec : Nat
  energy : Nat
  log : List (List Byte)
  caseOpen : Bool
  opened : Bool
  unsealed : Bool
  fwVer : W16
  fwCrc : W32
  supplied : Bool
  lost : Bool
  resp : List Byte
  frame : List Byte
  deriving DecidableEq, Repr

/-! ## The module -/

/-- The module's state: everything but the queue of commands and the metrology unit. `free` counts the free values drawn
(log 9); `ecc` lists the bytes whose stored word holds an uncorrectable error (16 R436, log 34); `hclk` is the house-clock count GAFFER_HCLK (R408); `reads` are the outstanding NVMe Reads; `unacked` the control
messages not acknowledged, by number (R333); `lateWrites` the writes of engines that met a retry or a wait, by context and address,
oldest first (R221, R384); `meterAcc` the energy of each bay in the apportioning interval, in mJ, by 64 ×
partition (12 none) + bay, and `meterOpen` whether an accepted record has begun one (R472, R473). -/
structure Mod where
  free : Nat
  hclk : Nat
  regs : Sparse W64
  mem : Sparse Byte
  lmem : Sparse Byte
  imem : Sparse Byte
  ecc : Sparse Bool
  cores : Sparse CoreSt
  claps : Sparse Clapper
  arrivals : List Arrival
  evFlags : Sparse W64
  chans : Sparse ChanSt
  pins : Sparse (Option Pin)
  clusters : Sparse ClusterSt
  ctxs : Sparse CtxSt
  fns : Sparse FnSt
  prints : Sparse PrintSt
  reels : Sparse ReelSt
  streams : Sparse StreamSt
  groups : Sparse GroupSt
  ports : Sparse PortSt
  tx : List TxMsg
  migQ : List MigJob
  movers : Sparse (Option MoverJob)
  sbs : Sparse SbSt
  gafs : Sparse GafSt
  standbyWake : Bool
  pwrSamples : Nat
  production : List W64
  infield : List W64
  corrected : List (Nat × Nat × Nat)
  patrolled : List Nat
  gauges : Sparse Gauge
  savedGauges : Sparse Gauge
  uncontained : Bool
  ingest : List Nat
  modEq : Ring
  msix : List (Nat × Nat)
  evWait : List WaitingEntry
  telemQ : List TelemEntry
  alarmWait : List (List Byte)
  arbs : Sparse ArbSt
  strs : Sparse StrSt
  nvs : Sparse NvSt
  reads : List DlyRead
  readId : Nat
  unacked : List (Nat × TxMsg)
  ctlKey : Nat
  boot : BootSt
  lateWrites : List (Nat × Nat × List Byte)
  meterAcc : Sparse Nat
  meterOpen : Bool
  deriving DecidableEq, Repr

/-- The module, its metrology unit, and the commands that wait, first in, first out. -/
structure State where
  pending : List Instr
  mod : Mod
  mdm : Mdm
  deriving DecidableEq, Repr

/-- The metrology unit as it leaves the factory: sealed, not supplied, no record held (log 6). -/
def Mdm.reset : Mdm where
  serial := 0
  records := []
  seq := 0
  opSec := 0
  energy := 0
  log := []
  caseOpen := false
  opened := false
  unsealed := false
  fwVer := 0
  fwCrc := 0
  supplied := false
  lost := false
  resp := []
  frame := []

/-- The module before it is first powered: no input, MOD_BOOT_STAT Off, every register at its reset value and every memory byte as
nothing has written it. POWER_ON_RESET is the first command that does anything (log 33). -/
def Mod.reset : Mod where
  free := 0
  hclk := 0
  regs := []
  mem := []
  lmem := []
  imem := []
  ecc := []
  cores := []
  claps := []
  arrivals := []
  evFlags := []
  chans := []
  pins := []
  clusters := []
  ctxs := []
  fns := []
  prints := []
  reels := []
  streams := []
  groups := []
  ports := []
  tx := []
  migQ := []
  movers := []
  sbs := []
  gafs := []
  standbyWake := false
  pwrSamples := 0
  production := []
  infield := []
  corrected := []
  patrolled := []
  gauges := []
  savedGauges := []
  uncontained := false
  ingest := []
  modEq := Ring.reset
  msix := []
  evWait := []
  telemQ := []
  alarmWait := []
  arbs := []
  strs := []
  nvs := []
  reads := []
  readId := 0
  unacked := []
  ctlKey := 0
  boot := BootSt.reset
  lateWrites := []
  meterAcc := []
  meterOpen := false

/-- The machine right after reset: nothing waits, and the module waits for its input power. -/
def State.reset : State := ⟨[], Mod.reset, Mdm.reset⟩

/-- The faults of a step. No meaning of this model raises one: every error the spec names is an effect on registers, rings
and queues. -/
inductive Fault where
  /-- Never raised (safe): kept because the host's interface names a type of faults. -/
  | none
  deriving DecidableEq, Repr

/-- The refusals of a step. -/
inductive Refusal where
  /-- Raised by `exec` for a command whose meaning is not written; a safe stop. -/
  | notModelled (mnemonic : String)
  deriving DecidableEq, Repr

/-- Applies a change of the module to a state. -/
def State.onMod (s : State) (f : Mod → Mod) : State := { s with mod := f s.mod }

/-- Applies a change of the metrology unit to a state. -/
def State.onMdm (s : State) (f : Mdm → Mdm) : State := { s with mdm := f s.mdm }

end Sys2Proof.Machine
end

