-- ==== Sys2Proof/Machine/Ops.lean ====
section
/-!
DEFINITION. The shared operations of the module: registers, memories, translation, partitions, rings, events and
telemetry. Everything a meaning does to these goes through this file.
-/
namespace Sys2Proof.Machine

/-! ## Control-space registers -/

/-- The register at an offset. -/
def rd (m : Mod) (off : Nat) : W64 := sget regReset m.regs off

/-- Sets the register at an offset. -/
def wr (m : Mod) (off : Nat) (v : W64) : Mod := { m with regs := sset regReset m.regs off v }

/-- Field [hi:lo] of the register at an offset. -/
def fld (m : Mod) (off hi lo : Nat) : Nat := bits (rd m off) hi lo

/-- Sets field [hi:lo] of the register at an offset. -/
def setFld (m : Mod) (off hi lo x : Nat) : Mod := wr m off (put (rd m off) hi lo x)

/-- Sets the register at an offset to a number. -/
def wrN (m : Mod) (off x : Nat) : Mod := wr m off (BitVec.ofNat 64 x)

/-- Sets a bit of the register at an offset: how the module sets a sticky error bit. -/
def setBit (m : Mod) (off i : Nat) : Mod := setFld m off i i 1

/-- Adds to a saturating counter of `w` bits at an offset. -/
def satReg (m : Mod) (off w n : Nat) : Mod := wrN m off (satAdd w (rd m off).toNat n)

/-- Adds to a 32-bit counter that wraps. -/
def incReg (m : Mod) (off n : Nat) : Mod := wrN m off (((rd m off).toNat + n) % 2 ^ 32)

/-- The n-th free value and the module with the counter advanced (log 9). -/
def drawFree (m : Mod) : W64 × Mod := (Config.freeWord m.free, { m with free := m.free + 1 })

/-! ## Memories -/

/-- What a byte that nothing has written reads as (log 3). -/
def memDefault : Nat → Byte := fun _ => 0

/-- The canonical form of a memory. -/
def Memory.wf (mem : Sparse Byte) : Bool := sparseWf memDefault mem

/-- The three memories of a module are in canonical form. -/
abbrev Mod.memWf (m : Mod) : Prop := Memory.wf m.mem = true ∧ Memory.wf m.lmem = true ∧ Memory.wf m.imem = true

/-- `n` bytes from a key upward. -/
def readList (mem : Sparse Byte) (a : Nat) : Nat → List Byte
  | 0 => []
  | n + 1 => sget memDefault mem a :: readList mem (a + 1) n

/-- Bytes written from a key upward. -/
def writeList (mem : Sparse Byte) (a : Nat) : List Byte → Sparse Byte
  | [] => mem
  | b :: bs => writeList (sset memDefault mem a b) (a + 1) bs

/-! ## Words that hold an uncorrectable error (16 R436, Table 16.3) -/

/-- A byte of store `st` (0 local, 1 instruction, 2 module memory) belongs to a word with an uncorrectable error that has not been
written since. -/
def eccAt (m : Mod) (st key : Nat) : Bool := sget (fun _ => false) m.ecc (4 * key + st)

/-- A byte is written, and with it its part of the word and of its check code. -/
def eccDrop (ecc : Sparse Bool) (st key : Nat) : Sparse Bool := sset (fun _ => false) ecc (4 * key + st) false

/-- The bytes a check code covers: 32 of an HBM line, 8 elsewhere; poison of the far tier covers 64 (Table 16.3). -/
def eccSpan (st key : Nat) : Nat :=
  if st = 2 ∧ key < 0xC000000000 then 32 else if st = 2 ∧ 0x020000000000 ≤ key then 64 else 8

/-- A read of the byte meets an uncorrectable error: some byte of its word is marked. -/
def eccBad (m : Mod) (st key : Nat) : Bool :=
  !m.ecc.isEmpty &&
    (List.range (eccSpan st key)).any (fun j => eccAt m st (key / eccSpan st key * eccSpan st key + j))

/-- The word that holds a byte gets an uncorrectable error (log 34). -/
def eccStrike (m : Mod) (st key : Nat) : Mod :=
  let n := eccSpan st key
  { m with ecc := (List.range n).foldl (fun e j => sset (fun _ => false) e (4 * (key / n * n + j) + st) true) m.ecc }

/-- A range of a store is written whole, or loses what it held. -/
def eccClear (m : Mod) (st lo n : Nat) : Mod :=
  { m with ecc := m.ecc.filter (fun e => !(decide (e.1 % 4 = st) && decide (lo ≤ e.1 / 4) && decide (e.1 / 4 < lo + n))) }

/-- Bytes of module memory are copied with the errors in their words (R246). -/
def eccCopy (m : Mod) (src dst n : Nat) : Mod :=
  let m := eccClear m 2 dst n
  (((m.ecc.filter (fun e => decide (e.1 % 4 = 2) && decide (src ≤ e.1 / 4) && decide (e.1 / 4 < src + n))).map (fun e => e.1 / 4)).foldl
    (fun m a => { m with ecc := sset (fun _ => false) m.ecc (4 * (dst + (a - src)) + 2) true }) m)

/-- The HBM range of Table 9.2. -/
def hbmTop : Nat := 0xC000000000
/-- The base of the near range of cluster stores (Table 9.2). -/
def nearBase : Nat := 0x010000000000
/-- The base of the far range (Table 9.2). -/
def farBase : Nat := 0x020000000000
/-- The top of the far range. -/
def farTop : Nat := 0x060000000000
/-- The base of host memory (Table 9.2). -/
def hostBase : Nat := 0x8000000000000
/-- The top of the module address space. -/
def addrTop : Nat := 0x10000000000000

/-- The module address of a cluster's store; `k` is 625 × die + cluster (Table 9.2). -/
def nearAddr (k : Nat) : Nat := nearBase + k / 625 * 0x40000000 + k % 625 * 0x100000

/-- The cluster whose store holds a module address of the near range. -/
def clusterOfNear (a : Nat) : Option Nat :=
  let o := a - nearBase
  if nearBase ≤ a ∧ a < nearBase + 0x200000000 ∧ o % 0x40000000 < 625 * 0x100000
  then some (625 * (o / 0x40000000) + o % 0x40000000 / 0x100000) else none

/-- The carve-out slots of a cluster begin here in its store (R242). -/
def carveBase (m : Mod) (k : Nat) : Nat := 0x100000 - 65536 * min 8 (fld m (rClCarve k) 3 0)

/-- The granule pinned at a module address of HBM. -/
def pinAt (m : Mod) (a : Nat) : Option Pin := if a < hbmTop then sget (fun _ => none) m.pins (a / 2048) else none

/-- The enabled CXL ports, in ascending number. -/
def farPorts (m : Mod) : List Nat := (List.range 4).filter (fun q => bit (rd m rFarCfg) (4 + q))

/-- The key of a byte of the device on CXL port `q`: beyond every module address, 2^48 for each device. -/
def cxlKey (q off : Nat) : Nat := addrTop + 2 ^ 48 * q + off

/-- The key of far offset `f`: on the port of its rank (R237), in the host region (R238), and its own address where the far range
has no byte there. -/
def farKey (m : Mod) (f : Nat) : Nat :=
  if (rd m rFarSize).toNat ≤ f then farBase + f
  else match fld m rFarCfg 1 0 with
    | 1 =>
      let ps := farPorts m
      let k := max 1 ps.length
      cxlKey (ps.getD (f / 4096 % k) 0) (f / 4096 / k * 4096 + f % 4096)
    | 2 => hostBase + (rd m rFarHbase).toNat + f
    | _ => farBase + f

/-- The far offset whose byte a key holds. -/
def farOff (m : Mod) (key : Nat) : Option Nat :=
  let f := match fld m rFarCfg 1 0 with
    | 1 =>
      let ps := farPorts m
      let k := max 1 ps.length
      let o := (key - cxlKey 0 0) % (cxlKey 1 0 - cxlKey 0 0)
      (o / 4096 * k + ps.idxOf ((key - cxlKey 0 0) / (cxlKey 1 0 - cxlKey 0 0))) * 4096 + o % 4096
    | 2 => key - (hostBase + (rd m rFarHbase).toNat)
    | _ => key - farBase
  if farKey m f = key then some f else none

/-- The key a module address is held under: a pinned granule's slot (R243), the place of a far offset (R237, R238), and otherwise
the address itself. -/
def memKey (m : Mod) (a : Nat) : Nat :=
  match pinAt m a with
  | some p => nearAddr p.cluster + carveBase m p.cluster + 2048 * p.slot + a % 2048
  | none => if farBase ≤ a ∧ a < farTop then farKey m (a - farBase) else a

/-- Carve-out slots of a cluster in use, or taken by a pin in progress (R247, R248). -/
def slotsUsed (m : Mod) (k : Nat) : List Nat :=
  (m.pins.filterMap (fun e => match e.2 with | some p => if p.cluster = k then some p.slot else none | none => none))
    ++ (m.migQ.filterMap (fun j => if j.pin && j.cluster == k then some j.slot else none))

/-- A granule is being pinned, or written back: accesses to it wait for its switch (R243, R245). -/
def migWaits (m : Mod) (a : Nat) : Bool := decide (a < hbmTop) && m.migQ.any (fun j => j.granule == a / 2048)

/-- One byte at a module address. -/
def memByte (m : Mod) (a : Nat) : Byte := sget memDefault m.mem (memKey m a)

/-- An uncorrectable error among `n` bytes at a module address (R437). -/
def memBad (m : Mod) (a n : Nat) : Bool := !m.ecc.isEmpty && (List.range n).any (fun j => eccBad m 2 (memKey m (a + j)))

/-- `n` bytes at a module address. -/
def memRead (m : Mod) (a : Nat) : Nat → List Byte
  | 0 => []
  | n + 1 => memByte m a :: memRead m (a + 1) n

/-- Marks a pinned granule as written after its switch (R245). -/
def markWritten (m : Mod) (a : Nat) : Mod :=
  match pinAt m a with
  | some p => if p.written then m else { m with pins := sset (fun _ => none) m.pins (a / 2048) (some { p with written := true }) }
  | none => m

/-- One byte written at a module address. -/
def memPut (m : Mod) (a : Nat) (b : Byte) : Mod :=
  let m := markWritten m a
  { m with mem := sset memDefault m.mem (memKey m a) b, ecc := eccDrop m.ecc 2 (memKey m a) }

/-- Bytes written at a module address. -/
def memWrite (m : Mod) (a : Nat) : List Byte → Mod
  | [] => m
  | b :: bs => memWrite (memPut m a b) (a + 1) bs

/-- A little-endian number at a module address. -/
def memNat (m : Mod) (a n : Nat) : Nat := leNat (memRead m a n)

/-! ## Partitions, bays, clusters -/

/-- PART_STAT.state: 0 Free, 1 Setting up, 2 Active, 3 Releasing (R380). -/
def partState (m : Mod) (p : Nat) : Nat := fld m (rPartStat p) 31 28

/-- The bay of a cluster (R27). -/
def bayOf (k : Nat) : Nat := 5 * (k / 625) + k % 625 / 125

/-- Partition `p` holds bay `b`. -/
def partHasBay (m : Mod) (p b : Nat) : Bool := partState m p != 0 && (rd m (rPartBays p)).toNat.testBit b

/-- The partition a cluster belongs to. -/
def partOfCluster (m : Mod) (k : Nat) : Option Nat := (List.range 12).find? (fun p => partHasBay m p (bayOf k))

/-- The clusters of a partition, ascending. -/
def clustersOfPart (m : Mod) (p : Nat) : List Nat :=
  ((List.range 40).filter (fun b => partHasBay m p b)).flatMap
    (fun b => natsFrom (625 * (b / 5) + 125 * (b % 5)) 125)

/-- The cluster of a core by its global number (R22). -/
def clusterOf (c : Nat) : Nat := c / 16

/-- The cores of a cluster, ascending. -/
def coresOf (k : Nat) : List Nat := natsFrom (16 * k) 16

/-- The cores of a partition, ascending. -/
def coresOfPart (m : Mod) (p : Nat) : List Nat := (clustersOfPart m p).flatMap coresOf

/-- The owner code of an HBM granule of 1 GiB (R406: 12 to 14 act as 15). -/
def hbmOwner (m : Mod) (g : Nat) : Option Nat := let o := fld m (rHbmOwn g) 3 0; if o < 12 then some o else none
/-- The owner code of a far granule. -/
def farOwner (m : Mod) (g : Nat) : Option Nat := let o := fld m (rFarOwn g) 3 0; if o < 12 then some o else none

/-- The busy bit of the granule that holds a module address (R384). -/
def granuleBusy (m : Mod) (a : Nat) : Bool :=
  if a < hbmTop then fld m (rHbmOwn (a / 2 ^ 30)) 7 7 == 1
  else if farBase ≤ a ∧ a < farTop then fld m (rFarOwn ((a - farBase) / 2 ^ 30)) 7 7 == 1
  else false

/-- A translation result a context of partition `p` may have (R385). -/
def addrAllowed (m : Mod) (p a : Nat) : Bool :=
  if a < hbmTop then hbmOwner m (a / 2 ^ 30) == some p
  else if farBase ≤ a ∧ a < farTop then
    farOwner m ((a - farBase) / 2 ^ 30) == some p && decide (a - farBase < (rd m rFarSize).toNat)
  else if hostBase ≤ a ∧ a < addrTop then true
  else match clusterOfNear a with
    | some k => partHasBay m p (bayOf k)
    | none => false

/-! ## Translation (14 R390 to R392) -/

/-- A context record. -/
def ctxAt (m : Mod) (x : Nat) : CtxSt := sget (fun _ => CtxSt.reset) m.ctxs x

/-- Sets a context record. -/
def setCtx (m : Mod) (x : Nat) (v : CtxSt) : Mod := { m with ctxs := sset (fun _ => CtxSt.reset) m.ctxs x v }

/-- The walk from a table at level `l`: a module address, or the fault kind 1, 2 or 3 (R390, R391). `w` says that every
entry above permits writing. -/
def walk (m : Mod) (part va : Nat) (write : Bool) : Nat → Nat → Bool → Except Nat Nat
  | 0, _, _ => .error 3
  | l + 1, table, w =>
    let ea := table + 8 * nbits va (12 + 9 * l + 8) (12 + 9 * l)
    if !addrAllowed m part ea then .error 3 else
    let e := memNat m ea 8
    if nbits e 0 0 = 0 then .error 1
    else if nbits e 63 52 ≠ 0 ∨ nbits e 11 3 ≠ 0 then .error 3
    else
      let w := w && nbits e 1 1 == 1
      let addr := nbits e 51 12 * 4096
      if nbits e 2 2 = 1 then
        let low := 12 + 9 * l
        if 3 ≤ l ∨ addr % 2 ^ low ≠ 0 then .error 3
        else
          let a := addr + va % 2 ^ low
          if !addrAllowed m part a then .error 3 else if write && !w then .error 2 else .ok a
      else if l = 0 then .error 3
      else walk m part va write l addr w

/-- Translation of a device virtual address in a context: a module address or the fault kind of Table 8.4. -/
def translate (m : Mod) (x va : Nat) (write : Bool) : Except Nat Nat :=
  if 2 ^ 57 ≤ va then .error 3
  else walk m (ctxAt m x).part.val va write 5 (ctxAt m x).root.toNat true

/-- The bytes at device virtual addresses of a context, or the first address that faults and its kind. -/
def vaRead (m : Mod) (x va : Nat) : Nat → Except (Nat × Nat) (List Byte)
  | 0 => .ok []
  | n + 1 =>
    match translate m x va false, vaRead m x (va + 1) n with
    | .error k, _ => .error (va, k)
    | .ok _, .error e => .error e
    | .ok a, .ok bs => .ok (memByte m a :: bs)

/-- Bytes written at device virtual addresses of a context, stopping at the first that faults. -/
def vaWrite (m : Mod) (x va : Nat) : List Byte → Except (Nat × Nat) Mod
  | [] => .ok m
  | b :: bs =>
    match translate m x va true with
    | .error k => .error (va, k)
    | .ok a => vaWrite (memPut m a b) x (va + 1) bs

/-! ## Functions of the host link -/

/-- The key of a function: 0 the PF, n VF n. -/
def fnKey : Fn → Nat
  | .pf => 0
  | .vf p => p.val + 1

/-- The record of a function. -/
def fnAt (m : Mod) (f : Nat) : FnSt := sget (fun _ => FnSt.reset) m.fns f

/-- Sets the record of a function. -/
def setFn (m : Mod) (f : Nat) (v : FnSt) : Mod := { m with fns := sset (fun _ => FnSt.reset) m.fns f v }

/-- The function a context of partition `p` has: its VF while that is enabled, else the PF (R379, R402). -/
def fnOfPart (m : Mod) (p : Nat) : Nat := if (fnAt m (p + 1)).enabled then p + 1 else 0

/-- Sends an MSI-X message: the PF has 256 vectors and a VF 64 (Table 14.1), and a vector a function has not sends none (log 29). -/
def sendMsix (m : Mod) (f vec : Nat) : Mod :=
  { m with msix := if (if f = 0 then 256 else 64) ≤ vec then m.msix else m.msix ++ [(f, vec)] }

/-! ## Rings (14 R400 to R402) -/

/-- Entries of a ring, 0 while it is not set up. -/
def ringSize (r : Ring) : Nat := let n := bits r.reg 4 0; if 4 ≤ n ∧ n ≤ 16 then 2 ^ n else 0

/-- The ring can take an entry: the entry before the head is never written. -/
def ringSpace (r : Ring) : Bool := decide (ringSize r ≠ 0) && decide ((r.tail + 1) % ringSize r ≠ r.head)

/-- Writes an entry of `sz` bytes at the tail with the ring's phase in bit 0 of byte 0. -/
def ringPut (m : Mod) (r : Ring) (sz : Nat) (e : List Byte) : Mod × Ring :=
  let host := hostBase + (bits r.reg 63 12) * 4096
  let e := match e with
    | b :: bs => put b 0 0 (b2n r.phase) :: bs
    | [] => []
  let t := (r.tail + 1) % ringSize r
  (memWrite m (host + sz * r.tail) e, { r with tail := t, phase := if t = 0 then !r.phase else r.phase })

/-- The ring held no unread entry. -/
def ringEmpty (r : Ring) : Bool := r.head == r.tail

/-- An event entry of 128 bytes (Table 14.9) with the phase bit clear. -/
def eventEntry (cls typ len ctx part time : Nat) (payload : List Byte) : List Byte :=
  let b := [BitVec.ofNat 8 (2 * cls), BitVec.ofNat 8 typ] ++ leBytes 2 len ++ leBytes 2 (ctx % 4096 + 4096 * part)
    ++ leBytes 2 0 ++ leBytes 8 time ++ payload
  (b ++ List.replicate 128 0).take 128

/-- The core a fault entry of type 0x12 reports. -/
def reportOf (e : List Byte) : Option Nat := if e.getD 1 0 = 0x12 then some (leNat ((e.drop 16).take 4)) else none

/-- A core record. -/
def coreAt (m : Mod) (c : Nat) : CoreSt := sget (fun _ => CoreSt.reset) m.cores c

/-- Sets a core record. -/
def setCore (m : Mod) (c : Nat) (v : CoreSt) : Mod := { m with cores := sset (fun _ => CoreSt.reset) m.cores c v }

/-- A fault counts as reported once its entry is written (R401). -/
def markReported (m : Mod) (e : List Byte) : Mod :=
  match reportOf e with
  | some c => setCore m c { coreAt m c with reported := true }
  | none => m

/-- Writes an event entry into a context's ring, or the PF's, which has space. -/
def eventWrite (m : Mod) (ctx : Option Nat) (e : List Byte) : Mod :=
  match ctx with
  | some x =>
    let c := ctxAt m x
    let (m', r) := ringPut m c.eq 128 e
    let m' := setCtx m' x { ctxAt m' x with eq := r }
    let m' := if ringEmpty c.eq then sendMsix m' (fnOfPart m c.part.val) (bits c.vec 15 8) else m'
    markReported m' e
  | none =>
    let (m', r) := ringPut m m.modEq 128 e
    let m' := { m' with modEq := r }
    let m' := if ringEmpty m.modEq then
        -- the PF ring's vector is not stated: a free value (log 14)
        let (v, m') := drawFree m'
        sendMsix m' 0 (bits v 7 0)
      else m'
    markReported m' e

/-- The ring of an event entry. -/
def ringOf (m : Mod) (ctx : Option Nat) : Ring := match ctx with | some x => (ctxAt m x).eq | none => m.modEq

/-- An entry of that ring waits already. -/
def someWait (m : Mod) (ctx : Option Nat) : Bool := m.evWait.any (fun w => w.ctx == ctx)

/-- Counts a dropped event entry (R401). -/
def countLost (m : Mod) (ctx : Option Nat) : Mod :=
  match ctx with
  | some x => let c := ctxAt m x; setCtx m x { c with eqLost := BitVec.ofNat 32 (satAdd 32 c.eqLost.toNat 1) }
  | none => satReg m rModEqLost 32 1

/-- Sends an event entry: types 0x01 to 0x1F wait for space, others are dropped and counted when the ring is full
(R401). -/
def sendEvent (m : Mod) (ctx : Option Nat) (e : List Byte) : Mod :=
  if ringSpace (ringOf m ctx) && !someWait m ctx then eventWrite m ctx e
  else if (e.getD 1 0).toNat < 0x20 then { m with evWait := m.evWait ++ [⟨ctx, e⟩] }
  else countLost m ctx

/-- Writes the waiting entries of a ring, in order, while it has space; `fuel` bounds the number. -/
def flushWait (ctx : Option Nat) : Nat → Mod → Mod
  | 0, m => m
  | fuel + 1, m =>
    match m.evWait.find? (fun w => w.ctx == ctx) with
    | some w =>
      if ringSpace (ringOf m ctx) then
        flushWait ctx fuel (eventWrite { m with evWait := m.evWait.erase w } ctx w.bytes)
      else m
    | none => m

/-- An entry of a type whose class the spec does not state: the class is a free value (log 14). -/
def sendUnclassed (m : Mod) (ring : Option Nat) (typ len ctx part : Nat) (payload : List Byte) : Mod :=
  let (v, m) := drawFree m
  sendEvent m ring (eventEntry (bits v 1 0) typ len ctx part m.hclk payload)

/-- Fourteen free words as payload: of an entry whose payload the spec does not lay out (log 14). -/
def freePayload (n : Nat) : List Byte := (List.range 14).flatMap (fun i => leBytes 8 (Config.freeWord (n + i)).toNat)

/-- An entry of type 0x03 or 0x21: its class, payload length and payload are free values (log 14). -/
def sendOpaque (m : Mod) (ring : Option Nat) (typ ctx part : Nat) : Mod :=
  let n := m.free
  sendEvent { m with free := n + 16 } ring
    (eventEntry (bits (Config.freeWord n) 1 0) typ (bits (Config.freeWord (n + 1)) 15 0) ctx part m.hclk (freePayload (n + 2)))

/-- An audit event to the PF's ring, counted in MOD_AUDIT_N: cause 0 lock violation, 1 denied, 2 doorbell; space 0 BAR0,
1 BAR2, 2 BAR4 (Table 14.9, type 0x20). -/
def audit (m : Mod) (f off value cause space : Nat) : Mod :=
  let m := satReg m rModAuditN 32 1
  sendUnclassed m none 0x20 32 0 15
    (leBytes 4 off ++ [BitVec.ofNat 8 f] ++ leBytes 3 0 ++ leBytes 8 value ++ [BitVec.ofNat 8 cause, BitVec.ofNat 8 space]
      ++ leBytes 6 0 ++ leBytes 8 off)

/-! ## Telemetry and alarms (16 R449 to R455) -/

/-- The class code of Table 14.9. -/
def classCode : EvClass → Nat
  | .alarm => 0 | .error => 1 | .warning => 2 | .trace => 3

/-- The payload of a type 0x30 entry (R450). -/
def telemPayload (t : TelemEntry) : List Byte :=
  [t.ev.src, t.ev.code] ++ leBytes 2 (b2n t.coalesced) ++ leBytes 4 t.count.toNat ++ leBytes 8 t.first
    ++ leBytes 8 t.last ++ t.ev.detail

/-- A telemetry entry as an event entry. -/
def telemBytes (t : TelemEntry) (time : Nat) : List Byte :=
  eventEntry (classCode t.ev.cls) 0x30 112 0 15 time (telemPayload t)

/-- Counts an event that did not reach the PF's ring as its own entry (R454). -/
def telemLost (m : Mod) (ev : TelemEv) : Mod := satReg m (rTelLost ev.src.toNat (classCode ev.cls)) 32 1

/-- The level of the queue's fill (Table 16.6). -/
def telemLevel (fill : Nat) : Nat := if fill < 256 then 0 else if fill < 384 then 1 else if fill < 480 then 2 else 3

/-- TELEM_STAT follows the queue. -/
def telemStat (m : Mod) : Mod :=
  wrN m rTelStat (m.telemQ.length * 2 ^ 16 + telemLevel m.telemQ.length)

/-- Coalesces an event into the queued open entry of its source and class (R451). -/
def coalesce (ev : TelemEv) (now : Nat) : List TelemEntry → Option (List TelemEntry)
  | [] => none
  | t :: q =>
    if t.coalesced ∧ !t.closed ∧ t.ev.src = ev.src ∧ t.ev.cls = ev.cls
    then some ({ t with count := BitVec.ofNat 32 (satAdd 32 t.count.toNat 1), last := now } :: q)
    else (coalesce ev now q).map (t :: ·)

/-- The head of the queue is closed to coalescing (R452). -/
def closeHead : List TelemEntry → List TelemEntry
  | [] => []
  | t :: q => { t with closed := true } :: q

/-- Admission of an event that is not an alarm by the queue's fill (R451, Table 16.6). -/
def telemAdmit (m : Mod) (ev : TelemEv) : Mod :=
  let m := satReg m (rTelCount (classCode ev.cls)) 32 1
  let fill := m.telemQ.length
  let lvl := telemLevel fill
  let own := lvl = 0 ∨ (ev.cls = .warning ∧ lvl ≤ 1) ∨ (ev.cls = .error ∧ lvl ≤ 2)
  let now := m.hclk
  let m :=
    if own then
      { m with telemQ := closeHead (m.telemQ ++ [⟨ev, false, true, 1, now, now⟩]) }
    else if ev.cls = .trace then telemLost m ev
    else match coalesce ev now m.telemQ with
      | some q => telemLost { m with telemQ := q } ev
      | none => if fill < 512 then { m with telemQ := closeHead (m.telemQ ++ [⟨ev, true, false, 1, now, now⟩]) }
                else telemLost m ev
  telemStat m

/-- The bytes of entry `e` of the alarm ring. -/
def alarmBytes (m : Mod) (e : Nat) : List Byte :=
  (List.range 16).flatMap (fun w => leBytes 8 (rd m (rAlarm e w)).toNat)

/-- Writes entry `e` of the alarm ring. -/
def setAlarm (m : Mod) (e : Nat) (bs : List Byte) : Mod :=
  (List.range 16).foldl (fun m w => wrN m (rAlarm e w) (leNat ((bs.drop (8 * w)).take 8))) m

/-- The unread entries of the alarm ring, from head to tail. -/
def alarmUnread (m : Mod) : List Nat :=
  let h := fld m rAlHead 4 0
  let t := fld m rAlTail 4 0
  (List.range ((t + 32 - h) % 32)).map (fun i => (h + i) % 32)

/-- The PF ring takes the alarm copies that wait while it has space (R453). -/
def alarmCopy : Nat → Mod → Mod
  | 0, m => m
  | fuel + 1, m =>
    match m.alarmWait with
    | e :: rest => if ringSpace m.modEq && !someWait m none
        then alarmCopy fuel (eventWrite { m with alarmWait := rest } none e) else m
    | [] => m

/-- Raises an alarm: a new entry of the alarm ring, copied once to the PF's ring, or coalesced into the unread entry of
its source (R453). The phase of an alarm-ring entry inverts on each wrap, as R400 states. -/
def raiseAlarm (m : Mod) (ev : TelemEv) : Mod :=
  let m := satReg (satReg m (rTelCount 0) 32 1) rAlN 32 1
  let now := m.hclk
  match (alarmUnread m).find? (fun e => (alarmBytes m e).getD 16 0 == ev.src) with
  | some e =>
    let bs := alarmBytes m e
    let n := satAdd 32 (leNat ((bs.drop 20).take 4)) 1
    telemLost (setAlarm m e (bs.take 20 ++ leBytes 4 n ++ (bs.drop 24).take 8 ++ leBytes 8 now ++ bs.drop 40)) ev
  | none =>
    let t := fld m rAlTail 4 0
    let bs := telemBytes ⟨ev, false, true, 1, now, now⟩ now
    let phase := 1 - ((alarmBytes m t).headD 0).toNat % 2
    let entry := match bs with | b :: r => put b 0 0 phase :: r | [] => []
    let m := wrN (setAlarm m t entry) rAlTail ((t + 1) % 32)
    alarmCopy 1 { m with alarmWait := m.alarmWait ++ [bs] }

/-- Raises a telemetry event by its class; trace events only while TELEM_CTL.trace_en is 1 (R451, R453). -/
def raise (m : Mod) (ev : TelemEv) : Mod :=
  match ev.cls with
  | .alarm => raiseAlarm m ev
  | .trace => if fld m rTelCtl 0 0 = 1 then telemAdmit m ev else m
  | _ => telemAdmit m ev

/-- An event of unit `unit` of die `die` with its detail from byte 40 (R449, Table 16.5a). -/
def telemEv (die unit code : Nat) (cls : EvClass) (detail : List Byte) : TelemEv :=
  ⟨BitVec.ofNat 8 (16 * die + unit), BitVec.ofNat 8 code, cls, detail⟩

/-! ## Dolly channels, clusters, events -/

/-- A channel's hidden state; the key is 16 × cluster + channel. -/
def chanAt (m : Mod) (k ch : Nat) : ChanSt := sget (fun _ => ChanSt.reset) m.chans (16 * k + ch)

/-- Sets a channel's hidden state. -/
def setChan (m : Mod) (k ch : Nat) (v : ChanSt) : Mod :=
  { m with chans := sset (fun _ => ChanSt.reset) m.chans (16 * k + ch) v }

/-- DOLLY_CH_STAT.state (Table 8.1). -/
def chState (m : Mod) (k ch : Nat) : Nat := fld m (rChStat k ch) 31 28

/-- A cluster's hidden state. -/
def clAt (m : Mod) (k : Nat) : ClusterSt := sget (fun _ => ClusterSt.reset) m.clusters k

/-- Sets a cluster's hidden state. -/
def setCl (m : Mod) (k : Nat) (v : ClusterSt) : Mod :=
  { m with clusters := sset (fun _ => ClusterSt.reset) m.clusters k v }

/-- The rung of a cluster (Table 15.6). -/
def clRung (m : Mod) (k : Nat) : Nat := fld m (rGafClStat k) 2 0

/-- The phase of a cluster: 0 steady, 1 draining, 2 entering, 3 exiting. -/
def clPhase (m : Mod) (k : Nat) : Nat := fld m (rGafClStat k) 7 6

/-- The cluster runs at Rolling, steady or draining, so that its clock runs (R410, R413). -/
def clRolling (m : Mod) (k : Nat) : Bool := clRung m k == 0 && decide (clPhase m k < 2)

/-- A wake of a cluster (R412 to R414, R513): it cancels a drain, is latched while the cluster enters a rung, and begins
the exit of a cluster at its rung; it discards a held request. -/
def wake (m : Mod) (k : Nat) : Mod :=
  let st := rGafClStat k
  let m := setCl m k { clAt m k with held := none }
  match clPhase m k with
  | 1 => satReg (setFld (setFld m st 5 3 0) st 7 6 0) (rGafClWakes k) 32 1
  | 2 => setFld m st 11 11 1
  | 3 => m
  | _ => if clRung m k = 0 then m
         else satReg (setFld (setFld (setFld m st 5 3 0) st 7 6 3) st 11 11 0) (rGafClWakes k) 32 1

/-- The keys of arbiter records: channel `ch` of block `b`, bank `bank` of cluster `k`'s store, output port `out` of cluster `k`'s mesh
node. A mesh block by itself is port 0 of its die's first node, whose pointer ARB_PTR shows (log 36). -/
def arbKeyBlock (b ch : Nat) : Nat := if b < 56 ∧ b % 7 = 6 then 82048 + 5 * (625 * (b / 7)) else 32 * b + ch
def arbKeyStore (k bank : Nat) : Nat := 2048 + 16 * k + bank
def arbKeyMesh (k out : Nat) : Nat := 82048 + 5 * k + out

/-- A request of a requester waits at the arbiter of a key. -/
def arbWaits (m : Mod) (key r : Nat) : Bool := (sget (fun _ => ArbSt.reset) m.arbs key).reqs.any (fun q => q.rq == r)

/-! ## Completions (14 R397, R400) -/

/-- A completion entry (Table 14.8) with the phase bit clear. -/
def cplEntry (opcode status tag w1 w2 time : Nat) : List Byte :=
  leBytes 8 (opcode * 2 ^ 8 + status * 2 ^ 16 + tag * 2 ^ 32) ++ leBytes 8 w1 ++ leBytes 8 w2 ++ leBytes 8 time

/-- Writes a completion into a context's ring, which has space, and sends its vector if the ring held no unread entry. -/
def cplPut (m : Mod) (x : Nat) (e : List Byte) : Mod :=
  let c := ctxAt m x
  let (m, r) := ringPut m c.cq 32 e
  let m := setCtx m x { ctxAt m x with cq := r }
  if ringEmpty c.cq then sendMsix m (fnOfPart m c.part.val) (bits c.vec 7 0) else m

/-- Sends a completion; it waits while the ring is full. -/
def cplSend (m : Mod) (x : Nat) (e : List Byte) : Mod :=
  let c := ctxAt m x
  if ringSpace c.cq && c.waitingCpl.isEmpty then cplPut m x e
  else setCtx m x { c with waitingCpl := c.waitingCpl ++ [e] }

/-- Writes the completions that wait while the ring has space; `fuel` bounds their number. -/
def flushCpl (x : Nat) : Nat → Mod → Mod
  | 0, m => m
  | fuel + 1, m =>
    let c := ctxAt m x
    match c.waitingCpl with
    | e :: rest => if ringSpace c.cq then flushCpl x fuel (cplPut (setCtx m x { c with waitingCpl := rest }) x e) else m
    | [] => m

/-- Word 0 of a command. -/
def cmdWord0 (c : CtxCmd) : W64 := c.words.headD 0

/-- A command completes: a completion is written if it failed or asked for one (R397). -/
def cmdDone (m : Mod) (x : Nat) (c : CtxCmd) (status w1 w2 : Nat) : Mod :=
  let w := cmdWord0 c
  if status ≠ 0 ∨ bit w 9 then cplSend m x (cplEntry (bits w 7 0) status (bits w 63 32) w1 w2 m.hclk) else m

/-- A START or STOP completes: counts and halt codes of the cores that stopped. -/
def coresDone (m : Mod) (x : Nat) (c : CtxCmd) : Mod :=
  if bits (cmdWord0 c) 7 0 = 1 then
    cmdDone m x c (if c.faulted = 0 then 0 else 5)
      (c.halted % 2 ^ 16 + c.faulted % 2 ^ 16 * 2 ^ 16 + c.haltOr.toNat * 2 ^ 32 + c.haltAnd.toNat * 2 ^ 48)
      (match c.lowFault with | some (k, f) => k + f * 2 ^ 32 | none => 0)
  else cmdDone m x c 0 0 0

/-- A command notes that a core it waits for has stopped: halted with a code, or faulted. -/
def noteStop (core : Nat) (fault : Option Nat) (code : W16) (c : CtxCmd) : CtxCmd :=
  if c.cores.contains core then
    let c := { c with cores := c.cores.erase core }
    match fault with
    | some f => { c with faulted := c.faulted + 1
                         lowFault := match c.lowFault with
                           | some (k, g) => if k < core then some (k, g) else some (core, f)
                           | none => some (core, f) }
    | none => { c with halted := c.halted + 1, haltOr := c.haltOr ||| code
                       haltAnd := if c.halted = 0 then code else c.haltAnd &&& code }
  else c

/-- The commands of a context note a stopped core; those that wait for no further core complete. -/
def ctxNoteStop (core : Nat) (fault : Option Nat) (code : W16) (m : Mod) (x : Nat) : Mod :=
  let s := ctxAt m x
  if s.cmds.any (fun c => c.cores.contains core) then
    let cmds := s.cmds.map (noteStop core fault code)
    let fin (c : CtxCmd) : Bool := c.cores.isEmpty && decide (bits (cmdWord0 c) 7 0 = 1 ∨ bits (cmdWord0 c) 7 0 = 2)
    let m := setCtx m x { s with cmds := cmds.filter (fun c => !fin c) }
    (cmds.filter fin).foldl (fun m c => coresDone m x c) m
  else m

/-- A core has halted with a code, or faulted: the START and STOP commands that wait for it go on (R399). -/
def coreStopped (m : Mod) (core : Nat) (fault : Option Nat) (code : W16) : Mod :=
  (m.ctxs.map (·.1)).foldl (ctxNoteStop core fault code) m

/-! ## What cores tell the print and storyboard engines -/

/-- A print engine's hidden state. -/
def prAt (m : Mod) (p : Nat) : PrintSt := sget (fun _ => PrintSt.reset) m.prints p

/-- Sets a print engine's hidden state. -/
def setPr (m : Mod) (p : Nat) (v : PrintSt) : Mod := { m with prints := sset (fun _ => PrintSt.reset) m.prints p v }

/-- PRINT_STAT.phase (Table 11.2): 0 Idle, 1 Open, 2 Closing, 3 Verdict, 4 Apply, 5 Vote, 6 Scrapped, 7 Held, 8 Replay. -/
def prPhase (m : Mod) (p : Nat) : Nat := fld m (rPrStat p) 3 0

/-- The blocks that Recovery takes in: HBM, die bridges and Dailies write-back (R276). -/
def recoveryBlocks : List Nat := (List.range 56).filter (fun b => decide (b % 7 < 6)) ++ [63]

/-- The arbiters enter Recovery, or return to the phase they held before (R276). -/
def recovery (m : Mod) (on : Bool) : Mod :=
  recoveryBlocks.foldl (fun m b =>
    let k := arbKeyBlock b 0
    let x := sget (fun _ => ArbSt.reset) m.arbs k
    let phase (m : Mod) (x : ArbSt) (ph : Nat) : Mod :=
      setFld { m with arbs := sset (fun _ => ArbSt.reset) m.arbs k x } (rArbCtl b) 17 16 ph
    if on then (if x.saved.isSome then m else phase m { x with saved := some (fld m (rArbCtl b) 17 16) } 3)
    else match x.saved with
      | some ph => phase m { x with saved := none } ph
      | none => m) m

/-- A replay is over: once no partition replays, the arbiters leave Recovery (R276, R294). -/
def replayOver (m : Mod) : Mod := if (List.range 12).any (fun q => prPhase m q == 8) then m else recovery m false

/-- Enters phase Held with a reason of Table 11.10. -/
def prHold (m : Mod) (p reason : Nat) : Mod :=
  let h := setFld (setFld m (rPrStat p) 23 20 reason) (rPrStat p) 3 0 7
  if prPhase m p = 8 then replayOver h else h

/-- A failure of Table 11.3 in a partition's own work: recorded while the take is open or closing (R286), and holding the
engine with reason 5 during Apply, Vote or Replay (R288). -/
def noteFailure (m : Mod) (p code : Nat) : Mod :=
  match prPhase m p with
  | 1 | 2 =>
    let s := prAt m p
    setPr m p { s with fail := if s.fail = 0 then code else min s.fail code }
  | 4 | 5 | 8 => setBit (prHold m p 5) (rPrErr p) 6
  | _ => m

/-- A contained uncorrectable error in data of partition `p` (R437): its event, and fail code 0x03 for a take that is open,
closing or awaiting its verdict, unless a filler to whom the cluster is lent met it (R311). `store` is a store code of Table 16.5a; the spec gives none for HBM, whose code is a free
value (log 21). -/
def contained (m : Mod) (p die : Nat) (store : Option Nat) (cluster core addr : Nat) (lent : Bool) : Mod :=
  let (v, m) := drawFree m
  let code := match store with | some s => s | none => bits v 7 0
  let m := raise m (telemEv die 3 2 .error ([BitVec.ofNat 8 code] ++ leBytes 2 cluster ++ [BitVec.ofNat 8 core] ++ leBytes 4 addr
    ++ [BitVec.ofNat 8 p]))
  if lent then m else noteFailure m p 3

/-- An uncontained error (R438): every take fails with code 0x03, and opens are refused until the next module reset. -/
def uncontain (m : Mod) : Mod := { (List.range 12).foldl (fun m p => noteFailure m p 3) m with uncontained := true }

/-- An uncontained error with its alarm: its kind and the module address (Table 16.5a). -/
def uncontained (m : Mod) (kind addr : Nat) : Mod :=
  uncontain (raise m (telemEv (min 7 (addr / 0x1800000000)) 3 3 .alarm ([BitVec.ofNat 8 kind] ++ List.replicate 7 0 ++ leBytes 8 addr)))

/-- An HBM or die-bridge arbiter is in Test for a burst of the screen test (R276, R445). -/
def arbTest (m : Mod) (b : Nat) : Mod :=
  let k := arbKeyBlock b 0
  let x := sget (fun _ => ArbSt.reset) m.arbs k
  if x.saved.isSome ∨ x.tested.isSome then m
  else setFld { m with arbs := sset (fun _ => ArbSt.reset) m.arbs k { x with tested := some (fld m (rArbCtl b) 17 16) } } (rArbCtl b) 17 16 2

/-- The bursts of the screen test have ended: their arbiters return to the phase they held, unless Recovery has come (R276, R445). -/
def arbTestEnd (m : Mod) : Mod :=
  ((List.range 56).filter (fun b => (sget (fun _ => ArbSt.reset) m.arbs (arbKeyBlock b 0)).tested.isSome)).foldl (fun m b =>
    let k := arbKeyBlock b 0
    let x := sget (fun _ => ArbSt.reset) m.arbs k
    let set (v : ArbSt) : Mod := { m with arbs := sset (fun _ => ArbSt.reset) m.arbs k v }
    if x.saved.isSome then set { x with saved := x.tested, tested := none }
    else setFld (set { x with tested := none }) (rArbCtl b) 17 16 (x.tested.getD 0)) m

/-- The verdict that the module holds for the slate a core runs under (R132, R288): that of its last attempt, until the slate is
opened again (R285). -/
def verdictFor (m : Mod) (p : Nat) (slate : W64) : Option Bool :=
  match (prAt m p).verdict with
  | some (sl, _, fin) => if sl = slate then some fin else none
  | none => none

/-- The windows of a partition's clusters whose cue the count has reached end, or all of them where the run stops or ends (R256):
a REST window's end wakes its cluster (R412), and a SCREEN window's end lets the screen test take or hold it no further. -/
def windowsEnd (m : Mod) (p : Nat) (cue : Option Nat) : Mod :=
  let ends (c : Option W32) : Bool := match c, cue with | some v, some n => decide (v.toNat ≤ n) | some _, none => true | none, _ => false
  ((m.clusters.map (·.1)).filter (fun k => partOfCluster m k == some p)).foldl (fun m k =>
    let x := clAt m k
    let m := if ends x.screenCue then setCl m k { x with screenCue := none } else m
    if ends x.restCue then wake (setCl m k { clAt m k with restCue := none }) k else m) m

/-- A set of a partition event by a core reaches the engines: the cue count of a storyboard engine (R250), with the windows
that end at it (R256), and the stage count of a print engine in phase Apply (R293). -/
def countSet (m : Mod) (p ev : Nat) : Mod :=
  let m := if fld m (rSbCtl p) 13 8 = ev then
      (let m := satReg m (rSbCue p) 32 1; windowsEnd m p (some (fld m (rSbCue p) 31 0)))
    else m
  if prPhase m p = 4 ∧ fld m (rPrCtl p) 15 10 = ev then
    (if fld m (rPrStaged p) 31 0 < fld m (rPrAtabN p) 31 0 then incReg m (rPrStaged p) 1 else setBit m (rPrErr p) 5)
  else m

end Sys2Proof.Machine
end

