-- ==== Sys2Proof/Machine/Fabric.lean ====
section
/-!
DEFINITION. The shared operations of the fabric: the torus, routes, messages sent and dropped, and the members of a group
(12_zwison_fabric.md R320 to R332).
-/
namespace Sys2Proof.Machine

/-- Coordinate `d` (0 x, 1 y, 2 z) of a coordinate word. -/
def coordOf (c d : Nat) : Nat := nbits c (5 * d + 4) (5 * d)

/-- A coordinate word with coordinate `d` set. -/
def setCoord (c d v : Nat) : Nat := nput c (5 * d + 4) (5 * d) v

/-- This module's coordinates. -/
def myCoord (m : Mod) : Nat := fld m rTopo 14 0

/-- The torus size in dimension `d`. -/
def topoSize (m : Mod) (d : Nat) : Nat := fld m rTopo (19 + 5 * d) (15 + 5 * d) + 1

/-- ZW_PORT_STAT.state: 0 Off, 1 Down, 2 Training, 3 Up, 4 Sleep, 5 Miswired. -/
def portState (m : Mod) (q : Nat) : Nat := fld m (rPortStat q) 2 0

/-- The coordinates of a port's neighbour (R318). -/
def neighbour (m : Mod) (q : Nat) : Nat :=
  let d := q / 2
  let s := topoSize m d
  let c := coordOf (myCoord m) d
  setCoord (myCoord m) d (if q % 2 = 0 then (c + 1) % s else (c + s - 1) % s)

/-- The whole path of `n` links along dimension `d` from coordinate `c` is clear in the line map (R322, R323). -/
def pathClear (m : Mod) (d c n : Nat) (pos : Bool) : Bool :=
  let s := topoSize m d
  (List.range n).all (fun i => !bit (rd m (rLinemap d)) (if pos then (c + i) % s else (c + s - 1 - i % s) % s))

/-- The port a message takes in dimension `d` toward a coordinate at which it differs from `cur` (R322). -/
def chooseDir (m : Mod) (cur dst d : Nat) : Option Nat :=
  let s := topoSize m d
  let c := coordOf cur d
  let fwd := (coordOf dst d + s - c) % s
  let bwd := s - fwd
  let pos := pathClear m d c fwd true
  let neg := pathClear m d c bwd false
  if fwd ≤ bwd then (if pos then some (2 * d) else if neg then some (2 * d + 1) else none)
  else (if neg then some (2 * d + 1) else if pos then some (2 * d) else none)

/-- The first dimension in which a destination differs from this module, by d = (destination − current) mod S (R322). -/
def nextDim (m : Mod) (dst : Nat) : Option Nat :=
  [0, 1, 2].find? (fun d => let s := topoSize m d; (coordOf dst d + s - coordOf (myCoord m) d) % s != 0)

/-- A port that carries traffic: Up, or asleep and woken by it (R343). -/
def portUsable (m : Mod) (q : Nat) : Bool := portState m q == 3 || portState m q == 4

/-- The output port a message leaves on crosses the dateline of its dimension (R324). -/
def dateline (m : Mod) (q : Nat) : Bool :=
  let d := q / 2
  let c := coordOf (myCoord m) d
  if q % 2 = 0 then c + 1 == topoSize m d else c == 0

/-- Counts a dropped message and raises its warning (R327); `port` is the port of arrival, 7 for a local source. -/
def dropMsg (m : Mod) (cause port : Nat) (w0 : W64) : Mod :=
  raise (satReg m (rZwDrop cause) 32 1)
    (telemEv 8 6 1 .warning ([BitVec.ofNat 8 cause, BitVec.ofNat 8 port] ++ List.replicate 6 0 ++ leBytes 8 w0.toNat))

/-- Word 0 of a head flit this module sends. -/
def headWord0 (m : Mod) (dst vc typ nflit part : Nat) : W64 :=
  BitVec.ofNat 64 (dst + myCoord m * 2 ^ 15 + vc * 2 ^ 30 + typ * 2 ^ 32 + nflit * 2 ^ 40 + part * 2 ^ 51)

/-- A head flit. -/
def mkHead (w0 : W64) (tag epoch index : Nat) (rest : List W64) : List W64 :=
  (w0 :: BitVec.ofNat 64 (tag % 2 ^ 16 + epoch % 2 ^ 16 * 2 ^ 16 + index % 2 ^ 32 * 2 ^ 32) :: rest ++ List.replicate 6 0).take 8

/-- A port's hidden state. -/
def portAt (m : Mod) (q : Nat) : PortSt := sget (fun _ => PortSt.reset) m.ports q

/-- Sets a port's hidden state. -/
def setPort (m : Mod) (q : Nat) (v : PortSt) : Mod := { m with ports := sset (fun _ => PortSt.reset) m.ports q v }

/-! ## Output queues (R279, R319, R325, R344) -/

/-- The flits of an input buffer or output queue by VC × 2 + class (Table 12.5), which are also a link's credits when it comes Up. -/
def linkCredits : List Nat := [64, 64, 256, 256, 256, 256, 192, 192]

/-- The channel of a message that waits: VC × 2 + class. -/
def txCh (t : TxMsg) : Nat := 2 * bits (t.head.headD 0) 31 30 + b2n t.cls

/-- The flits of 64 bytes of a list; the last is filled with zeros. -/
def flitsOf (bs : List Byte) : List (List Byte) :=
  (List.range ((bs.length + 63) / 64)).map (fun i => let f := (bs.drop (64 * i)).take 64; f ++ List.replicate (64 - f.length) 0)

/-- The flits of a message: head, body, and the abort flit that ends a cut one (R319). -/
def txFlits (t : TxMsg) : List TxFlit :=
  ⟨txCh t, 1, t.head.flatMap (fun w => leBytes 8 w.toNat)⟩ :: (flitsOf t.body).map (fun f => ⟨txCh t, 2, f⟩)
    ++ (if t.cut then [⟨txCh t, 3, List.replicate 64 0⟩] else [])

/-- Messages of port `q` enter its output queue, in order, as far as their channel's share has room: the flits that enter, and the
messages that still wait (R279, R325). -/
def fillQueue (q : Nat) : List Nat → List TxMsg → List TxFlit × List TxMsg
  | _, [] => ([], [])
  | room, t :: ts =>
    if t.port ≠ q then let r := fillQueue q room ts; (r.1, t :: r.2) else
    let fl := (txFlits t).drop t.moved
    let k := room.getD (txCh t) 0
    if fl.length ≤ k then let r := fillQueue q (room.set (txCh t) (k - fl.length)) ts; (fl ++ r.1, r.2)
    else let r := fillQueue q (room.set (txCh t) 0) ts; (fl.take k ++ r.1, { t with moved := t.moved + k } :: r.2)

/-- The room in a port's output queue by channel. -/
def queueRoom (x : PortSt) : List Nat := linkCredits.mapIdx (fun i n => n - (x.outq.filter (fun f => f.ch == i)).length)

/-- Fills a port's output queue. -/
def portFill (m : Mod) (q : Nat) : Mod :=
  let x := portAt m q
  let r := fillQueue q (queueRoom x) m.tx
  setPort { m with tx := r.2 } q { x with outq := x.outq ++ r.1 }

/-- The class whose flit virtual channel `v` may send next, with a credit: that of the message begun on it, else that of the first
flit in the queue which has one (R325; the flits of a message are contiguous on a virtual channel). -/
def nextFlit (x : PortSt) (v : Nat) : Option TxFlit :=
  let mayGo (f : TxFlit) : Bool := f.ch / 2 == v && decide (0 < x.credits.getD f.ch 0)
  match x.begun.find? (fun e => e.1 == v) with
  | some e => (x.outq.find? (fun f => f.ch == e.2.1)).filter mayGo
  | none => x.outq.find? mayGo

/-- What is left of the message begun on a virtual channel after a flit of it. -/
def begunAfter (x : PortSt) (v : Nat) (f : TxFlit) : List (Nat × Nat × Nat) :=
  let rest := x.begun.filter (fun e => e.1 != v)
  let left := match f.kind with
    | 1 => nbits (leNat (f.data.take 8)) 50 40
    | 2 => (match x.begun.find? (fun e => e.1 == v) with | some e => e.2.2 - 1 | none => 0)
    | _ => 0
  if left = 0 then rest else (v, f.ch, left) :: rest

/-- A grant of `n` beats to virtual channel `v` moves as many flits on, each for a credit (R325, R326). -/
def portTake (v : Nat) : Nat → PortSt → PortSt
  | 0, x => x
  | n + 1, x =>
    match nextFlit x v with
    | none => x
    | some f => portTake v n { x with outq := x.outq.erase f, slots := x.slots ++ [f], begun := begunAfter x v f
                                      credits := x.credits.set f.ch (x.credits.getD f.ch 0 - 1) }

/-- A fabric output port's arbiter has granted `n` beats to a virtual channel. -/
def portGranted (m : Mod) (q v n : Nat) : Mod :=
  let m := portFill m q
  setPort m q (portTake v n (portAt m q))

/-- Nothing waits to be sent on a port. -/
def portQuiet (m : Mod) (q : Nat) : Bool :=
  let x := portAt m q
  x.outq.isEmpty && x.slots.isEmpty && !m.tx.any (fun t => t.port == q)

/-- Traffic races the sleep handshake (R344): after the commit point, or in Sleep, the wake is latched; after a request it is
held, and a CANCEL goes out. -/
def portTraffic (m : Mod) (q : Nat) : Mod :=
  let x := portAt m q
  if x.committed ∨ portState m q = 4 then setPort m q { x with latched := true }
  else if x.requested ∧ !x.busy then setPort m q { x with busy := true, cmds := x.cmds ++ [4] } else m

/-- Puts a message into a port's output queue (log 28). -/
def sendOn (m : Mod) (q : Nat) (cls : Bool) (head : List W64) (body : List Byte) : Mod :=
  let m := portTraffic m q
  { m with tx := m.tx ++ [⟨q, cls, head, body, 0, false⟩] }

/-- Sends a message to the neighbour of a port; over a link that is Down it is dropped with cause 1. -/
def sendNear (m : Mod) (q vc typ part tag epoch index : Nat) (rest : List W64) (body : List Byte) : Mod :=
  let w0 := headWord0 m (neighbour m q) vc typ (body.length / 64) part
  if portUsable m q then sendOn m q (dateline m q) (mkHead w0 tag epoch index rest) body else dropMsg m 1 7 w0

/-- The port and class of a message of this module by the routes of R322; none without a route, or over a link that is Down. -/
def routeOwn (m : Mod) (dst d : Nat) : Option (Nat × Bool) :=
  match chooseDir m (myCoord m) dst d with
  | some q => if portUsable m q then some (q, dateline m q) else none
  | none => none

/-- Sends a message of this module by the routes of R322; without a route it is dropped with cause 1. -/
def sendTo (m : Mod) (dst vc typ part tag epoch index : Nat) (rest : List W64) (body : List Byte) : Mod :=
  let w0 := headWord0 m dst vc typ ((body.length + 63) / 64) part
  match nextDim m dst with
  | none => m
  | some d => match routeOwn m dst d with
    | none => dropMsg m 1 7 w0
    | some e => sendOn m e.1 e.2 (mkHead w0 tag epoch index rest) body

/-- The port and class on which a message leaves that arrived on `port`, or is this module's own (R322, R324): a later module on the
same line keeps the direction. -/
def routeOut (m : Mod) (port : Option (Nat × Bool)) (dst d : Nat) : Option (Nat × Bool) :=
  match port with
  | some (q, cls) =>
    if q / 2 = d then
      (let r := if q % 2 = 0 then q + 1 else q - 1
       if portUsable m r then some (r, cls || dateline m r) else none)
    else routeOwn m dst d
  | none => routeOwn m dst d

/-- Ends on its output a message of which only a part arrived, with an abort flit (R319): its first bytes, as they came on channel
`ch` of port `q`. The final receiver discards it under cause 5. -/
def cutPart (m : Mod) (q : Nat) (e : Nat × List Byte) : Mod :=
  let head := (List.range 8).map (fun i => BitVec.ofNat 64 (leNat ((e.2.drop (8 * i)).take 8)))
  let w0 := head.headD 0
  match nextDim m (bits w0 14 0) with
  | none => dropMsg m 5 q w0
  | some d => match routeOut m (some (q, e.1 % 2 == 1)) (bits w0 14 0) d with
    | none => dropMsg m 1 q w0
    | some (r, cls) =>
      let m := portTraffic m r
      setBit { m with tx := m.tx ++ [⟨r, cls, head, e.2.drop 64, 0, true⟩] } (rPortErr r) 4

/-! ## Groups -/

/-- A group's hidden state. -/
def grpAt (m : Mod) (p : Nat) : GroupSt := sget (fun _ => GroupSt.reset) m.groups p

/-- Sets a group's hidden state. -/
def setGrp (m : Mod) (p : Nat) (v : GroupSt) : Mod := { m with groups := sset (fun _ => GroupSt.reset) m.groups p v }

/-- ZW_GRP_STAT.state: 0 Off, 1 Forming, 2 Formed, 3 Reforming, 4 Held. -/
def grpState (m : Mod) (p : Nat) : Nat := fld m (rGrpStat p) 2 0

/-- The group id of a partition's group. -/
def grpId (m : Mod) (p : Nat) : Nat := fld m (rGrpCtl p) 31 16

/-- The group epoch. -/
def grpEpoch (m : Mod) (p : Nat) : Nat := fld m (rGrpEpoch p) 31 0

/-- A coordinate lies inside a group's box (R328). -/
def inBox (m : Mod) (p c : Nat) : Bool :=
  let box := (rd m (rGrpBox p)).toNat
  [0, 1, 2].all (fun d =>
    let s := topoSize m d
    decide ((coordOf c d + s - coordOf box d % s) % s ≤ nbits box (19 + 5 * d) (15 + 5 * d)))

/-- The sort key of a member: z, then y, then x, each counted from the box start (R328). -/
def rankKey (m : Mod) (p c : Nat) : Nat :=
  let box := (rd m (rGrpBox p)).toNat
  let off (d : Nat) : Nat := let s := topoSize m d; (coordOf c d + s - coordOf box d % s) % s
  off 2 * 1024 + off 1 * 32 + off 0

/-- Inserts a member into a list in rank order. -/
def insertRank (m : Mod) (p c : Nat) : List Nat → List Nat
  | [] => [c]
  | x :: xs => if rankKey m p c < rankKey m p x then c :: x :: xs else if c = x then x :: xs else x :: insertRank m p c xs

/-- Members in rank order. -/
def sortRank (m : Mod) (p : Nat) (cs : List Nat) : List Nat := cs.foldl (fun acc c => insertRank m p c acc) []

/-- A module's place in a list of members. -/
def indexOf (c : Nat) : List Nat → Nat
  | [] => 0
  | x :: xs => if x = c then 0 else indexOf c xs + 1

/-- The members that share this module's other two coordinates, ascending in dimension `d` from the box start (R336). -/
def lineMembers (m : Mod) (p d : Nat) : List Nat :=
  let me := myCoord m
  (grpAt m p).members.filter (fun c => [0, 1, 2].all (fun e => e == d || coordOf c e == coordOf me e))

/-- The bitmap bit of a coordinate word: x + 32 × (y + 32 × z), which is the word itself (R328). -/
def mapMembers (bs : List Byte) : List Nat :=
  (List.range bs.length).flatMap (fun i => (List.range 8).filterMap (fun b =>
    if bit (bs.getD i 0) b then some (8 * i + b) else none))

/-- The 4 KiB bitmap of a member list. -/
def mapBytes (cs : List Nat) : List Byte :=
  (List.range 4096).map (fun i => BitVec.ofNat 8 ((List.range 8).foldl (fun a b => if cs.contains (8 * i + b) then a + 2 ^ b else a) 0))

/-! ## What an access meets (R221, R243, R245, R384, R412, R413) -/

/-- What a request meets: it may go on at a module address, must issue again (R221), must wait for its target, faults (kind of
Table 8.4), or ends a dolly's descriptor in Error with a code. -/
inductive Meet where
  | ok (a : Nat)
  | retry
  | wait
  | fault (kind : Nat)
  | err (code : Nat)
  deriving DecidableEq, Repr

/-- A cluster's stores answer requests from elsewhere: retry while it drains, wait (and wake it) below Rolling (R221, R412,
R413). `k` is the requesting cluster, 5000 for an agent of no cluster. -/
def nearMeet (m : Mod) (k a : Nat) : Meet :=
  match clusterOfNear a with
  | some k2 =>
    if k2 = k then .ok a
    else if clPhase m k2 = 1 then .retry
    else if clRung m k2 ≠ 0 ∨ clPhase m k2 ≠ 0 then .wait
    else match partOfCluster m k2 with
      | some p => if partState m p = 1 then .retry else .ok a
      | none => .ok a
  | none => .ok a

/-- What an access at a module address meets: a granule being zeroed (R384), one being migrated, the cluster store that holds it. -/
def memMeet (m : Mod) (k a : Nat) : Meet :=
  if granuleBusy m a then .retry else if migWaits m a then .wait
  else match nearMeet m k (memKey m a) with | .ok _ => .ok a | x => x

/-- A table entry that a walk reads lies where the access meets a retry or a wait (R384, R391). -/
def walkMeet (m : Mod) (part va k : Nat) : Nat → Nat → Option Meet
  | 0, _ => none
  | l + 1, table =>
    let ea := table + 8 * nbits va (12 + 9 * l + 8) (12 + 9 * l)
    if !addrAllowed m part ea then none else
    match memMeet m k ea with
    | .ok _ =>
      let e := memNat m ea 8
      if nbits e 0 0 = 0 ∨ nbits e 2 2 = 1 then none else walkMeet m part va k l (nbits e 51 12 * 4096)
    | x => some x

/-- What an access at a device virtual address of a context meets, for a requester of cluster `k`: its walk's entries, its
translation, its target (R205, R221, R390). -/
def vaMeetAt (m : Mod) (x k va : Nat) (write : Bool) : Meet :=
  match (if va < 2 ^ 57 then walkMeet m (ctxAt m x).part.val va k 5 (ctxAt m x).root.toNat else none) with
  | some r => r
  | none => match translate m x va write with
    | .error kind => .fault kind
    | .ok a => memMeet m k a

/-- The lines of 64 bytes that a range touches, by address. -/
def rangeLines (va n : Nat) : List Nat := if n = 0 then [] else (natsFrom (va / 64) ((va + n - 1) / 64 - va / 64 + 1)).map (64 * ·)

/-- An access is refused with retry status or waits for its target. -/
def meetHeld (x : Meet) : Bool := match x with | .retry | .wait => true | _ => false

/-- A line of a range of an engine is refused with retry status or waits for its target, so that the transfer goes on later. -/
def rangeBusy (m : Mod) (x va n : Nat) (write : Bool) : Bool :=
  (rangeLines va n).any (fun a => meetHeld (vaMeetAt m x 5000 a write))

/-- Accesses to a range wake the clusters below Rolling whose stores it reaches (R412). -/
def rangeWake (m : Mod) (x va n : Nat) (write : Bool) : Mod :=
  (rangeLines va n).foldl (fun m a =>
    if vaMeetAt m x 5000 a write = .wait then
      (match translate m x a write with | .ok a => (match clusterOfNear (memKey m a) with | some k => wake m k | none => m) | .error _ => m)
    else m) m

/-- A context is Active and belongs to a partition (R386). -/
def ctxOf (m : Mod) (x p : Nat) : Bool := (ctxAt m x).active && (ctxAt m x).part.val == p

/-! ## Pages mapped for an engine -/

/-- Every page of a range of device virtual addresses is mapped in an Active context. -/
def rangeMapped (m : Mod) (x va n : Nat) : Bool :=
  (ctxAt m x).active &&
    (if n = 0 then true else
      (natsFrom (va / 4096) ((va + n - 1) / 4096 - va / 4096 + 1)).all
        (fun pg => match translate m x (4096 * pg) false with | .ok _ => true | .error _ => false))

/-- `n` bytes an engine reads in a context; a byte that does not translate is a free value (R191: the pages must stay
mapped). -/
def vaBytes (m : Mod) (x va : Nat) : Nat → List Byte
  | 0 => []
  | n + 1 =>
    (match translate m x va false with
      | .ok a => memByte m a
      | .error _ => Config.carveByte m.free va) :: vaBytes m x (va + 1) n

/-- Bytes an engine writes in a context; a byte that does not translate is not written. -/
def vaPuts (m : Mod) (x va : Nat) : List Byte → Mod
  | [] => m
  | b :: bs =>
    vaPuts (match translate m x va true with | .ok a => memPut m a b | .error _ => m) x (va + 1) bs

/-- The table entry with an uncorrectable error that a walk reads first. -/
def walkBad (m : Mod) (part va : Nat) : Nat → Nat → Option Nat
  | 0, _ => none
  | l + 1, table =>
    let ea := table + 8 * nbits va (12 + 9 * l + 8) (12 + 9 * l)
    if !addrAllowed m part ea then none else if memBad m ea 8 then some ea else
    let e := memNat m ea 8
    if nbits e 0 0 = 0 ∨ nbits e 2 2 = 1 then none else walkBad m part va l (nbits e 51 12 * 4096)

/-- What an engine's read meets of uncorrectable errors: one in a table entry of its walk is uncontained, and so is one in a journal,
an apply table or a storyboard entry, named by its kind of Table 16.5a (R438); one in other data is contained (R437). The data are
returned as read (log 34). -/
def eccRead (m : Mod) (x va n : Nat) (kind : Option Nat) : Mod :=
  if m.ecc.isEmpty then m else
  let p := (ctxAt m x).part.val
  (rangeLines va n).foldl (fun m a =>
    match walkBad m p a 5 (ctxAt m x).root.toNat with
    | some e => uncontained m 0 e
    | none => match translate m x a false with
      | .ok pa =>
        if !memBad m pa (min 64 n) then m
        else match kind with
          | some k => uncontained m k pa
          | none => contained m p (min 7 (pa / 0x1800000000)) none 0 0 pa false
      | .error _ => m) m

/-- Bytes an engine writes in a context; a range that meets a retry or a wait is written later, after the writes that wait already
(R221, R384). -/
def vaLate (m : Mod) (x va : Nat) (bs : List Byte) : Mod :=
  if !m.lateWrites.isEmpty || rangeBusy m x va bs.length true then
    rangeWake { m with lateWrites := m.lateWrites ++ [(x, va, bs)] } x va bs.length true
  else vaPuts m x va bs

/-- The writes that wait are made, in order, as far as their targets take them. -/
def lateFlush : Nat → Mod → Mod
  | 0, m => m
  | fuel + 1, m =>
    match m.lateWrites with
    | [] => m
    | (x, va, bs) :: rest =>
      if rangeBusy m x va bs.length true then m else lateFlush fuel (vaPuts { m with lateWrites := rest } x va bs)

end Sys2Proof.Machine
end

