-- ==== Sys2Proof/Machine/Arb.lean ====
section
/-!
DEFINITION. Arbiters (10_arbitration.md R263 to R281): slot tables, decisions, ranking, cancels, locked sequences, pre-emption,
service phases and starvation.
-/
namespace Sys2Proof.Machine

/-- The key of an arbiter's record. -/
def arbKey : ArbId → Nat
  | .block b ch => arbKeyBlock b.val ch.val
  | .store k bank => arbKeyStore k.val bank.val
  | .mesh k out => arbKeyMesh k.val out.val

/-- The register block of an arbiter (Table 10.5); the cluster stores have Table 10.9. -/
def arbBlock : ArbId → Option Nat
  | .block b _ => some b.val
  | .store _ _ => none
  | .mesh k _ => some (7 * (k.val / 625) + 6)

/-- An arbiter of an HBM channel: its die and its stack in the die. -/
def arbHbmOf : ArbId → Option (Nat × Nat)
  | .block b _ => if b.val < 56 ∧ b.val % 7 < 2 then some (b.val / 7, b.val % 7) else none
  | _ => none

/-- The arbiter's hidden state. -/
def arbAt (m : Mod) (a : ArbId) : ArbSt := sget (fun _ => ArbSt.reset) m.arbs (arbKey a)

/-- ARB_PTR of a block shows channel 0 of an HBM (R280) and the first port of a mesh (log 36). -/
def arbShows : ArbId → Option Nat
  | .block b ch => if ch.val = 0 then some b.val else none
  | .store _ _ => none
  | .mesh k out => if k.val % 625 = 0 ∧ out.val = 0 then some (7 * (k.val / 625) + 6) else none

/-- Sets the arbiter's hidden state. -/
def setArb (m : Mod) (a : ArbId) (v : ArbSt) : Mod :=
  let m := { m with arbs := sset (fun _ => ArbSt.reset) m.arbs (arbKey a) v }
  match arbShows a with
  | some b => wrN m (rArbPtr b) v.ptr
  | none => m

/-- Number of requesters (Table 10.1). -/
def arbReqs (a : ArbId) : Nat := match arbBlock a with | some b => (arbKind b).nreq | none => 18

/-- The arbiters whose slots partitions own: HBM, die bridges, injection, Dailies write-back (Table 10.1). -/
def arbOwned (b : Nat) : Bool := (decide (b < 56) && decide (b % 7 < 6)) || decide (62 ≤ b)

/-- The slot owner of a request: the partition where partitions own the slots, and the requester elsewhere (R263). -/
def arbOwner (a : ArbId) (q : ArbReq) : Nat :=
  match arbBlock a with | some b => if arbOwned b then q.owner else q.rq | none => q.rq

/-- The largest owner code of Table 10.1. -/
def arbOwnerMax (a : ArbId) : Nat :=
  match arbBlock a with | some b => if arbOwned b then 12 else (arbKind b).nreq - 1 | none => 17

/-- L (R264, Tables 10.7 and 10.9). -/
def arbLen (m : Mod) : ArbId → Nat
  | .store k _ => min 27 (fld m (rArbClCtl k.val) 4 0) + 1
  | a => match arbBlock a with | some b => fld m (rArbCtl b) 5 0 + 1 | none => 1

/-- The byte of entry `e` of an arbiter's slot table. -/
def arbSlotByte (m : Mod) (a : ArbId) (e : Nat) : W64 :=
  match a with
  | .store k _ => rd m (rArbClSlot k.val e)
  | a => match arbBlock a with | some b => rd m (rArbSlot b e) | none => 0

/-- Entry `e`: its owner, 31 for an open one, and lk (R264). -/
def arbEntry (m : Mod) (a : ArbId) (e : Nat) : Nat × Bool :=
  let v := arbSlotByte m a e
  let o := bits v 4 0
  (if arbOwnerMax a < o then 31 else o, match arbBlock a with | some b => (arbKind b).lockable && bit v 6 | none => false)

/-- The length of an entry (R265). -/
def arbUnit (a : ArbId) (lk : Bool) : Nat := match a with | .store _ _ => 1 | _ => if lk then 64 else 4

/-- The service phase (R276): 0 Start-up, 1 Normal, 2 Test, 3 Recovery. A cluster-store arbiter has no phase field: it is in
Test while the screen test holds its cluster, and otherwise in Normal from Ready (log 23). -/
def arbPhase (m : Mod) : ArbId → Nat
  | .store k _ => if (clAt m k.val).screenHeld then 2 else if fld m rBootStat 31 28 = 2 then 1 else 0
  | a => match arbBlock a with | some b => fld m (rArbCtl b) 17 16 | none => 1

/-- The system requester, privileged in Recovery (R274). -/
def arbSystem (b : Nat) : Option Nat :=
  if b < 56 then (if b % 7 < 2 then some 9 else if b % 7 < 6 then some 6 else none) else if b = 63 then some 12 else none

/-- A requester is privileged (R274); none is at the cluster store and the mesh. -/
def arbPriv (m : Mod) (a : ArbId) (r : Nat) : Bool :=
  match arbBlock a with
  | none => false
  | some b =>
    !(decide (b < 56) && decide (b % 7 = 6)) && (bit (rd m (rArbPriv b)) r || (arbPhase m a == 3 && arbSystem b == some r))

/-- The table period P (R265). -/
def arbPeriod (m : Mod) (a : ArbId) : Nat :=
  ((List.range (arbLen m a)).map (fun e => arbUnit a (arbEntry m a e).2)).foldl (· + ·) 0
    + (if (List.range (arbReqs a)).any (arbPriv m a) then 64 else 0)

/-- A requester is masked (R278). -/
def arbMasked (m : Mod) (a : ArbId) (x : ArbSt) (r : Nat) : Bool :=
  let ph := arbPhase m a
  if ph = 1 then false else
  match arbBlock a with
  | none => ph == 2 && r != 17
  | some b =>
    let q := if r < arbReqs a then (rd m (rArbQuota b r)).toNat else 0
    !bit (rd m (rArbAdmit b ph)) r || (decide (q ≠ 0) && decide (q ≤ sget (fun _ => 0) x.used r))

/-- The bits of ARB_MASKED. -/
def arbMaskedBits (m : Mod) (b : Fin 64) : Nat :=
  let a := ArbId.block b 0
  (List.range (arbReqs a)).foldl (fun n r => if arbMasked m a (arbAt m a) r then n + 2 ^ r else n) 0

/-! ## Routes between dies (R19) -/

/-- The bridge blocks that a transfer from one die to another crosses, in order (8 the hub die): the ring bridge between C-dies
whose numbers differ by 1 modulo 8, the two hub bridges between any others, and one hub bridge to or from the hub die (R19). -/
def bridgeRoute (src dst : Nat) : List Nat :=
  if src = dst then []
  else if src = 8 then [7 * dst + 5]
  else if dst = 8 then [7 * src + 4]
  else if dst = (src + 1) % 8 then [7 * src + 2]
  else if dst = (src + 7) % 8 then [7 * src + 3]
  else [7 * src + 4, 7 * dst + 5]

/-- A request meets a die-bridge arbiter only where its transfer crosses that bridge (R19). -/
def arbOnRoute (a : ArbId) (q : ArbReq) : Bool :=
  match arbBlock a with
  | some b => !(decide (b < 56) && decide (2 ≤ b % 7) && decide (b % 7 < 6)) || (bridgeRoute q.src.val q.dst.val).contains b
  | none => true

/-! ## Which requests an arbiter takes (R269, R272, R279) -/

/-- A requester that carries writes of the Dailies write-back, the print journal writer, the switch reduction write-back or the
MMC, which alone issue locked sequences (R272). Dollies, cores, movers, BAR4, the reel, responses and transit are none; the
numbers Table 10.1 gives the four agents' paths are the hub bridge and the system (log 37). -/
def arbLocks (a : ArbId) (r : Nat) : Bool :=
  match arbBlock a with
  | none => false
  | some b =>
    if b = 63 then true
    else if b < 56 then
      (if b % 7 < 2 then r == 7 || r == 9 else if b % 7 = 5 then r == 1 || r == 6 else decide (b % 7 < 5) && r == 6)
    else false

/-- A request that an agent may issue at an arbiter: an unlocked one has at most 4 beats, and one at a cluster store; a locked
sequence has 2 to 64 (R265, R271, R272). A bridge takes the transfers that cross it. -/
def arbTakes (a : ArbId) (q : ArbReq) : Bool :=
  decide (q.rq < arbReqs a) && arbOnRoute a q && (if q.locked then arbLocks a q.rq && decide (2 ≤ q.beats) && decide (q.beats ≤ 64)
    else decide (1 ≤ q.beats) && decide (q.beats ≤ arbUnit a false))

/-- The lines of a locked sequence that lie in the 256-byte unit `u` of its die: the first line's address and their number. -/
def unitPart (q : ArbReq) (u : Nat) : ArbReq :=
  let lo := max (q.addr / 64) (4 * u)
  let hi := min (q.addr / 64 + q.beats) (4 * u + 4)
  { q with addr := 64 * lo, beats := hi - lo }

/-- The parts of a locked sequence that meet at an HBM channel's arbiter: one for each 256-byte unit that the channel holds
(R234, R272). Any other request is one part. -/
def arbParts (a : ArbId) (q : ArbReq) : List ArbReq :=
  match arbHbmOf a, a with
  | some (_, i), .block _ ch =>
    if q.locked then
      let lo := q.addr / 256
      ((natsFrom lo ((q.addr / 64 + q.beats - 1) / 4 + 1 - lo)).filter (fun u =>
        u % 2 == i && Config.hbmChannel (u / 2) % 32 == ch.val)).map (unitPart q)
    else [q]
  | _, _ => [q]

/-- Requests of requesters 5 to 9 that one HBM arbiter holds: those that wait and those granted. -/
def arbHolds (x : ArbSt) : Nat :=
  (x.reqs.filter (fun q => decide (5 ≤ q.rq))).length + ((x.run.toList ++ x.cut.toList).filter (fun g => decide (5 ≤ g.rq))).length

/-- Outstanding requests of requesters 5 to 9 at the HBM arbiters of die `d` (R279). -/
def hbmOut (m : Mod) (d : Nat) : Nat :=
  ((List.range 64).map (fun i => arbHolds (sget (fun _ => ArbSt.reset) m.arbs (arbKeyBlock (7 * d + i / 32) (i % 32))))).foldl (· + ·) 0

/-- The HBM arbiters of a die have taken all the requests they admit of requesters 5 to 9 (R279). -/
def hbmFull (m : Mod) (d : Nat) : Bool := decide (32000 ≤ hbmOut m d)

/-- The die that a bridge block leads to. -/
def bridgeTo (b : Nat) : Option Nat :=
  if 56 ≤ b then none else match b % 7 with
    | 2 => some ((b / 7 + 1) % 8)
    | 3 => some ((b / 7 + 7) % 8)
    | 5 => some (b / 7)
    | _ => none

/-- A request waits at the bridge or hub arbiter upstream while the HBM arbiters beyond it admit no further one (R279). -/
def arbHeld (m : Mod) (a : ArbId) (q : ArbPend) : Bool :=
  q.hbm && (match (arbBlock a).bind bridgeTo with | some d => hbmFull m d | none => false)

/-! ## Decisions -/

/-- An entry can carry a request (R265, R272, R273). -/
def arbCarry (a : ArbId) (e : Nat × Bool) (q : ArbPend) : Bool :=
  if q.locked then e.2 && (e.1 == q.owner || e.1 == 31) else decide (q.beats ≤ arbUnit a e.2)

/-- A request ranks before another (R267): ready for longer, and at a tie the first requester number from `from`. -/
def arbBefore (a : ArbId) (tieFrom : Nat) (p q : ArbPend) : Bool :=
  let n := arbReqs a
  let d (r : Nat) : Nat := (r + n - tieFrom % n) % n
  decide (q.age < p.age) || (decide (q.age = p.age) && decide (d p.rq < d q.rq))

/-- The highest-ranked request of a list (R267). -/
def arbBest (a : ArbId) (tieFrom : Nat) : List ArbPend → Option ArbPend
  | [] => none
  | q :: qs => match arbBest a tieFrom qs with
    | none => some q
    | some p => some (if arbBefore a tieFrom p q then p else q)

/-- The request a ranking picks from the candidates, and whether a tie between requesters was broken for it (R267). -/
def arbPick (a : ArbId) (x : ArbSt) (l : List ArbPend) : Option (ArbPend × Bool) :=
  (arbBest a x.tieFrom l).map (fun q => (q, l.any (fun p => p.rq != q.rq && p.age == q.age)))

/-- The requests that take part in a decision (R266, R278, R279). -/
def arbEligible (m : Mod) (a : ArbId) (x : ArbSt) : List ArbPend :=
  x.reqs.filter (fun q => !arbMasked m a x q.rq && !arbHeld m a q)

/-- The privileged requests that the pre-emption budget admits: at most 4 beats, or a locked sequence (R275). -/
def arbUrgent (m : Mod) (a : ArbId) (x : ArbSt) : List ArbPend :=
  (arbEligible m a x).filter (fun q => arbPriv m a q.rq && (q.locked || decide (q.beats ≤ 4)))

/-- What a decision chooses, whether by the pre-emption budget, and whether a tie was broken (R266, R270). -/
def arbChoose (m : Mod) (a : ArbId) (x : ArbSt) : Option (ArbPend × Bool × Bool) :=
  let el := arbEligible m a x
  let e := arbEntry m a x.ptr
  match (if x.again || x.spent then none else arbPick a x (arbUrgent m a x)) with
  | some (q, tie) => some (q, true, tie)
  | none =>
    match (if x.again then none else arbPick a x (el.filter (fun q => q.owner == e.1 && arbCarry a e q))) with
    | some (q, tie) => some (q, false, tie)
    | none => (arbPick a x (el.filter (arbCarry a e))).map (fun p => (p.1, false, p.2))

/-- The pointer advances `n` entries; at entry 0 a new period begins (R266, R275, R278). -/
def arbAdvance (m : Mod) (a : ArbId) (x : ArbSt) (n : Nat) : ArbSt :=
  let l := arbLen m a
  if x.ptr + n < l then { x with ptr := x.ptr + n } else { x with ptr := (x.ptr + n) % l, spent := false, used := [] }

/-- Counter `i` of Table 10.6: 0 grants and 1 beats wrap, 3 is a maximum, the others saturate. A cluster store has its waits
and late cancels only (Table 10.9). -/
def arbCount (m : Mod) (a : ArbId) (r i n : Nat) : Mod :=
  match a with
  | .store k _ => if i = 2 then satReg m (rArbClWait k.val r) 32 n else if i = 6 then satReg m (rArbClLate k.val) 32 n else m
  | a => match arbBlock a with
    | some b =>
      let c := rArbCnt b r i
      if i < 2 then incReg m c n else if i = 3 then wrN m c (max (rd m c).toNat (min n (2 ^ 32 - 1))) else satReg m c 32 n
    | none => m

/-- Beats a grant still has to run. -/
def runLeft (g : ArbRun) : Nat := g.stop - g.own

/-- Beats until the next decision beat while a grant runs: its own and those of the grant it interrupts. -/
def arbLeft (x : ArbSt) : Nat := ((x.run.toList ++ x.cut.toList).map runLeft).foldl (· + ·) 0

/-- The longest wait of a requester's requests: 0 with none (R281). -/
def arbWaited (l : List ArbPend) (r : Nat) : Nat := (l.filter (fun q => q.rq == r)).foldl (fun n q => max n q.age) 0

/-- Beats that a grant has received count against its requester's quota (R278). -/
def arbReceive (x : ArbSt) (r n : Nat) : ArbSt :=
  { x with used := sset (fun _ => 0) x.used r (sget (fun _ => 0) x.used r + n) }

/-- The running grant moves on `n` beats, and the interrupted one follows it at once (R275). -/
def arbRunOn (x : ArbSt) (n : Nat) : ArbSt :=
  match x.run with
  | none => x
  | some g =>
    let k := min n (runLeft g)
    let x := arbReceive { x with run := some { g with own := g.own + k } } g.rq k
    match x.cut with
    | some c => if runLeft g ≤ n then
        arbReceive { x with run := some { c with own := c.own + (n - k) }, cut := none } c.rq (n - k) else x
    | none => x

/-- Beats pass: a requester with a request that waits was ready and not granted in each, every request has been ready for so
much longer, and the running grant moves on. -/
def arbElapse (m : Mod) (a : ArbId) (n : Nat) : Mod :=
  let x := arbAt m a
  let m := (List.range (arbReqs a)).foldl (fun m r =>
    if x.reqs.any (fun q => q.rq == r) then arbCount (arbCount m a r 2 n) a r 3 (arbWaited x.reqs r + n) else m) m
  setArb m a (arbRunOn { x with reqs := x.reqs.map (fun q => { q with age := q.age + n }) } n)

/-- One request joins: at a full HBM one of requesters 5 to 9 stays upstream (R279). Its wait so far counts as far as no other
request of its requester has counted it. -/
def arbJoinOne (a : ArbId) (m : Mod) (q : ArbReq) : Mod :=
  let full := match arbHbmOf a with | some (d, _) => decide (5 ≤ q.rq) && hbmFull m d | none => false
  if full then m else
  let x := arbAt m a
  let m := arbCount (arbCount m a q.rq 2 (q.age - arbWaited x.reqs q.rq)) a q.rq 3 q.age
  setArb m a { x with reqs := x.reqs ++ [{ q with owner := arbOwner a q, starved := false }] }

/-- Requests that have become ready join (R263, R272, R279). -/
def arbJoin (m : Mod) (a : ArbId) (rs : List ArbReq) : Mod :=
  ((rs.filter (arbTakes a)).flatMap (arbParts a)).foldl (arbJoinOne a) m

/-- The grant of a request, before its first beat. -/
def arbRunOf (q : ArbPend) : ArbRun := ⟨q.rq, q.id, q.dolly, q.locked, 0, q.beats, false⟩

/-- The fabric output port an arbiter serves. -/
def arbFabricPort : ArbId → Option Nat
  | .block b _ => if 56 ≤ b.val ∧ b.val < 62 then some (b.val - 56) else none
  | _ => none

/-- The request is granted: it leaves the list and runs (R269); a virtual channel's flits go on to the link (R325). -/
def arbGrant (m : Mod) (a : ArbId) (x : ArbSt) (q : ArbPend) (tie : Bool) : Mod :=
  let m := arbCount (arbCount m a q.rq 0 1) a q.rq 1 q.beats
  let m := setArb m a { x with reqs := x.reqs.erase q, tieFrom := if tie then q.rq + 1 else x.tieFrom, run := some (arbRunOf q) }
  match arbFabricPort a with
  | some port => portGranted m port q.rq q.beats
  | none => m

/-- A decision `n` beats after the arbiter's last event (R266, R269): at the last beat of a running grant, in the next beat of an
arbiter with requests, after `n - 1` empty ones of an arbiter without, or at once in a beat a cancel has reached. -/
def arbDecide (a : ArbId) (n : Nat) (ready : List ArbReq) (m : Mod) : Mod :=
  let x := arbAt m a
  let ok := if x.due then n == 0 else match x.run with
    | some _ => n == arbLeft x
    | none => n == 1 || (decide (1 ≤ n) && x.reqs.isEmpty)
  if !ok then m else
  let m := arbElapse m a n
  let y := arbAt m a
  let m := setArb m a (if x.run.isNone && !x.due then arbAdvance m a y (n - 1) else y)
  let m := arbJoin m a ready
  let x := arbAt m a
  let choice := arbChoose m a x
  let x := { x with due := false, again := false, run := none }
  match choice with
  | none => setArb m a (arbAdvance m a x 1)
  | some (q, priv, tie) => arbGrant m a (arbAdvance m a { x with spent := x.spent || priv } 1) q tie

/-- A privileged request pre-empts the running grant at a beat boundary, at most once in a period (R275): the highest-ranked of
those ready runs, and the interrupted grant resumes after it, or a locked sequence restarts. -/
def arbPreempt (a : ArbId) (req : ArbReq) (n : Nat) (m : Mod) : Mod :=
  let x := arbAt m a
  match x.run with
  | none => m
  | some _ =>
    if n = 0 ∨ arbLeft x ≤ n ∨ x.due ∨ x.spent ∨ x.cut.isSome then m else
    let j := arbJoin (arbElapse m a n) a [req]
    let x := arbAt j a
    match arbPick a x (arbUrgent j a x), x.run with
    | some (q, tie), some g =>
      let j := arbGrant (arbCount j a g.rq 7 1) a { x with spent := true } q tie
      setArb j a { arbAt j a with cut := some { g with own := if g.locked then 0 else g.own } }
    | _, _ => m

/-- A late cancel ends a grant at its next burst boundary (R271); the beats it drops were not granted. -/
def arbLate (m : Mod) (a : ArbId) (g : ArbRun) (waits : Bool) : Mod × ArbRun :=
  let stop := min g.stop (if waits then g.own / 4 * 4 + 4 else (max 1 g.own + 3) / 4 * 4)
  let m := arbCount m a g.rq 6 1
  let m := match arbBlock a with
    | some b => let c := rArbCnt b g.rq 1; wrN m c (((rd m c).toNat + 2 ^ 32 - (g.stop - stop)) % 2 ^ 32)
    | none => m
  (m, { g with stop := stop, late := true })

/-- A late cancel of the running grants that `p` names (R271): an interrupted one counts its own beats only. -/
def arbLateIf (m : Mod) (a : ArbId) (p : ArbRun → Bool) : Mod :=
  let x := arbAt m a
  match x.run.filter (fun g => p g && !g.late), x.cut.filter (fun g => p g && !g.late) with
  | some g, _ => let (m, g) := arbLate m a g false; setArb m a { x with due := false, run := some g }
  | none, some g => let (m, g) := arbLate m a g true; setArb m a { x with cut := some g }
  | none, none => m

/-- A request leaves before its grant edge (R270): a chosen one, in the decision beat, leaves the decision to background
ranking. -/
def arbRemove (m : Mod) (a : ArbId) (q : ArbPend) : Mod :=
  let x := arbAt m a
  let chosen := x.due && (match arbChoose m a x with | some (p, _) => p == q | none => false)
  arbCount (setArb m a { x with reqs := x.reqs.erase q, again := x.again || chosen }) a q.rq 5 1

/-- A cancel of request `id` of a requester reaches the arbiter `n` beats after its last event (R270, R271): it removes the
request while it waits, and cuts a grant of it that runs or was interrupted. -/
def arbCancel (a : ArbId) (r id n : Nat) (ready : List ArbReq) (m : Mod) : Mod :=
  let x := arbAt m a
  let ok := if x.due then n == 0 else match x.run with
    | some _ => decide (n ≤ arbLeft x)
    | none => n == 1
  if !ok then m else
  let last := x.due || (match x.run with | some _ => n == arbLeft x | none => true)
  let m := arbJoin (arbElapse m a n) a ready
  let m := setArb m a { arbAt m a with due := last }
  match (arbAt m a).reqs.find? (fun q => q.rq == r && q.id == id) with
  | some q => arbRemove m a q
  | none => arbLateIf m a (fun g => g.rq == r && g.id == id)

/-- The arbiter of a key (its record's key in State). -/
def arbOfKey (key : Nat) : Option ArbId :=
  if h : key < 2048 then some (.block ⟨key / 32, by omega⟩ ⟨key % 32, by omega⟩)
  else if h : key < 82048 then some (.store ⟨(key - 2048) / 16, by omega⟩ ⟨(key - 2048) % 16, by omega⟩)
  else if h : key < 107048 then some (.mesh ⟨(key - 82048) / 5, by omega⟩ ⟨(key - 82048) % 5, by omega⟩)
  else none

/-- A dolly cancels requests of one of its channels at every arbiter that holds one: those not yet granted leave, and a cancel of
a granted one is late (R214, R270, R271). -/
def arbDropDolly (m : Mod) (k ch : Nat) (p : DollyTag → Bool) : Mod :=
  let mine (t : Option DollyTag) : Bool := match t with | some t => t.k.val == k && t.ch.val == ch && p t | none => false
  (m.arbs.filterMap (fun e => arbOfKey e.1)).foldl (fun m a =>
    let m := ((arbAt m a).reqs.filter (fun q => mine q.dolly)).foldl (fun m q => arbRemove m a q) m
    arbLateIf m a (fun g => mine g.dolly)) m

/-- The control-space offset of the arbiter's block, and its die. -/
def arbPlace : ArbId → Nat × Nat
  | .store k _ => (rArbClCtl k.val, k.val / 625)
  | a => match arbBlock a with | some b => (arbBase b, if b < 56 then b / 7 else 8) | none => (0, 0)

/-- A request has waited beyond the threshold (R277, R281): `n` beats after the arbiter's last decision. -/
def arbStarve (a : ArbId) (r n : Nat) (m : Mod) : Mod :=
  let x := arbAt m a
  let starve := match arbBlock a with | some b => fld m (rArbCtl b) 31 24 | none => 4
  match x.reqs.find? (fun q => q.rq == r && !q.starved && decide (starve * arbPeriod m a < q.age + n)) with
  | none => m
  | some q =>
    if arbPhase m a ≠ 1 ∨ starve = 0 then m else
    let m := setArb m a { x with reqs := x.reqs.map (fun p => if p = q then { p with starved := true } else p) }
    let m := match a with
      | .store k _ => setBit m (rArbClStarved k.val) r
      | a => match arbBlock a with | some b => arbCount (setBit m (rArbStarved b) r) a r 4 1 | none => m
    let (off, die) := arbPlace a
    let m := raise m (telemEv die 7 1 .warning (leBytes 4 off ++ [BitVec.ofNat 8 r]))
    match arbBlock a with
    | some b => if fld m (rArbCtl b) 13 13 = 1 then sendOpaque m none 0x21 0 15 else m
    | none => m

/-- Zeroes every counter of a block (Table 10.6). -/
def arbZero (m : Mod) (b : Nat) : Mod :=
  (List.range (arbKind b).nreq).foldl (fun m r => (List.range 8).foldl (fun m i => wrN m (rArbCnt b r i) 0) m) m

/-- Some arbiter that an open needs is in Start-up (R487). -/
def arbStartUp (m : Mod) : Bool := recoveryBlocks.any (fun b => fld m (rArbCtl b) 17 16 == 0)

/-- MOD_BOOT_CMD.service: every arbiter in Start-up goes to Normal (R487); ignored before Ready. -/
def arbService (m : Mod) : Mod :=
  if fld m rBootStat 31 28 ≠ 2 then m else
  (List.range arbBlocks).foldl (fun m b => if fld m (rArbCtl b) 17 16 = 0 then setFld m (rArbCtl b) 17 16 1 else m) m

/-! ## The rows -/

/-- An arbiter decides (R266). -/
def execArbDecision (a : ArbId) (beats : Nat) (ready : List ArbReq) (s : State) : Host.Outcome State Fault Refusal :=
  .next (s.onMod (arbDecide a beats ready))

/-- A privileged request pre-empts (R275). -/
def execArbPreempt (a : ArbId) (req : ArbReq) (beat : Nat) (s : State) : Host.Outcome State Fault Refusal :=
  .next (s.onMod (arbPreempt a req beat))

/-- A cancel reaches an arbiter (R270, R271). -/
def execArbCancel (a : ArbId) (r : ArbName) (beat : Nat) (ready : List ArbReq) (s : State) : Host.Outcome State Fault Refusal :=
  .next (s.onMod (arbCancel a r.rq r.id beat ready))

/-- A request is flagged as starved (R277). -/
def execArbStarveTimeout (a : ArbId) (requester waited : Nat) (s : State) : Host.Outcome State Fault Refusal :=
  .next (s.onMod (arbStarve a requester waited))

end Sys2Proof.Machine
end

