-- ==== Sys2Proof/Machine/Binary64.lean ====
section
/-!
DEFINITION. The binary64 operations of the gradient-noise statistics (11_takes_prints.md R305, R306; 12_zwison_fabric.md R339):
each exact, then rounded once to nearest even.
-/
namespace Sys2Proof.Machine

/-- Units of 2^-1074 of the largest finite binary64. -/
def d64MaxUnits : Nat := (2 ^ 53 - 1) <<< 2045

/-- A signed infinity. -/
def d64Inf (neg : Bool) : W64 := if neg then 0xFFF0000000000000 else 0x7FF0000000000000

/-- A signed zero. -/
def d64Zero (neg : Bool) : W64 := if neg then 0x8000000000000000 else 0

/-- A NaN; the bits a register receives for one are free but for those that make it a quiet NaN (log 25). -/
def d64NaN : W64 := 0x7FF8000000000000

/-- The exact value of a binary64 pattern. -/
def d64X (a : W64) : XV :=
  let neg := bit a 63
  if bits a 62 52 = 2047 then (if bits a 51 0 = 0 then .inf neg else .nan)
  else .fin neg (codeUnits 52 (bits a 62 52) (bits a 51 0)) (-1074)

/-- NaN. -/
def d64IsNaN (a : W64) : Bool := decide (d64X a = .nan)

/-- `n × 2^q` rounded once into binary64. -/
def d64Round (neg : Bool) (n : Nat) (q : Int) : W64 :=
  let u := roundExact .nearest 53 (-1074) n q
  if d64MaxUnits < u then d64Inf neg else BitVec.ofNat 64 (b2n neg * 2 ^ 63 + unitsCode 52 u)

/-- Addition. -/
def d64Add (a b : W64) : W64 :=
  match d64X a, d64X b with
  | .nan, _ | _, .nan => d64NaN
  | .inf s, .inf t => if s = t then d64Inf s else d64NaN
  | .inf s, _ => d64Inf s
  | _, .inf t => d64Inf t
  | .fin s n q, .fin t m _ =>
    let x := xvInt s n + xvInt t m
    if x = 0 then d64Zero (if n = 0 ∧ m = 0 then s && t else false) else d64Round (decide (x < 0)) x.natAbs q

/-- Subtraction. -/
def d64Sub (a b : W64) : W64 := d64Add a (if d64IsNaN b then b else b ^^^ 0x8000000000000000)

/-- Multiplication. -/
def d64Mul (a b : W64) : W64 :=
  match xvMul (d64X a) (d64X b) with
  | .nan => d64NaN
  | .inf s => d64Inf s
  | .fin s n q => if n = 0 then d64Zero s else d64Round s n q

/-- Division: the quotient is taken to bits below the smallest subnormal and made sticky. -/
def d64Div (a b : W64) : W64 :=
  match d64X a, d64X b with
  | .nan, _ | _, .nan => d64NaN
  | .inf _, .inf _ => d64NaN
  | .inf s, .fin t _ _ => d64Inf (s != t)
  | .fin s _ _, .inf t => d64Zero (s != t)
  | .fin s n _, .fin t m _ =>
    if m = 0 then (if n = 0 then d64NaN else d64Inf (s != t))
    else
      let x := n <<< 1140
      d64Round (s != t) (2 * (x / m) + (if x % m = 0 then 0 else 1)) (-1141)

/-- Above zero. -/
def d64Pos (a : W64) : Bool := match d64X a with | .inf s => !s | .fin s n _ => !s && decide (n ≠ 0) | .nan => false

/-- A natural number in binary64. -/
def d64OfNat (n : Nat) : W64 := d64Round false n 0

/-- 2^e. -/
def d64Pow2 (e : Int) : W64 := d64Round false 1 e

/-- S and G2 of a branch (R305), and whether they are valid: m at least 2 and G2 above 0. -/
def noiseStats (m : Nat) (sq ns : W64) (total : Nat) (e : Int) : W64 × W64 × Bool :=
  let bT := d64OfNat total
  let mm := d64OfNat m
  let l := d64Pow2 e
  let b := d64Div bT mm
  let bl := d64Mul b l
  let tl := d64Mul bT l
  let s := d64Div sq (d64Mul (d64Mul mm bl) bl)
  let g := d64Div ns (d64Mul tl tl)
  let g2 := d64Div (d64Sub (d64Mul bT g) (d64Mul b s)) (d64Sub bT b)
  let one := d64OfNat 1
  let sE := d64Div (d64Sub s g) (d64Sub (d64Div one b) (d64Div one bT))
  (sE, g2, decide (2 ≤ m) && d64Pos g2)

end Sys2Proof.Machine
end

