-- ==== Sys2Proof/Machine/Reel.lean ====
section
/-!
DEFINITION. The reel engine (07_attention_reel.md R179 to R192): passes, segments, credits and taps.
-/
namespace Sys2Proof.Machine

/-- A reel context's hidden state. -/
def reelAt (m : Mod) (r : Nat) : ReelSt := sget (fun _ => ReelSt.reset) m.reels r

/-- Sets a reel context's hidden state. -/
def setReel (m : Mod) (r : Nat) (v : ReelSt) : Mod := { m with reels := sset (fun _ => ReelSt.reset) m.reels r v }

/-- ZW_REEL_GO.status: 0 idle, 1 running, 2 done, 3 and 4 refused, 5 aborted, 6 stalled. -/
def reelStatus (m : Mod) (r : Nat) : Nat := fld m (rRlGo r) 19 16

/-- Sets the status; go reads 1 while it is 1 or 6. -/
def setReelStatus (m : Mod) (r st : Nat) : Mod :=
  setFld (setFld m (rRlGo r) 19 16 st) (rRlGo r) 0 0 (b2n (st == 1 || st == 6))

/-- The pass runs or is stalled. -/
def reelRuns (m : Mod) (r : Nat) : Bool := reelStatus m r == 1 || reelStatus m r == 6

/-- Accumulate mode. -/
def reelAccum (m : Mod) (r : Nat) : Bool := fld m (rRlCtl r) 1 1 == 1

/-- B, segments in a block. -/
def reelB (m : Mod) (r : Nat) : Nat := fld m (rRlSeg r) 31 12

/-- Bytes of a segment. -/
def reelSegBytes (m : Mod) (r : Nat) : Nat := 64 * (fld m (rRlSeg r) 9 0 + 1)

/-- Z, slots of the ring. -/
def reelZ (m : Mod) (r : Nat) : Nat := 2 ^ fld m (rRlBuf r) 3 0

/-- The context whose address space holds SRC and BUF. -/
def reelCtx (m : Mod) (r : Nat) : Nat := fld m (rRlCtl r) 27 16

/-- The base of the slot ring. -/
def reelBuf (m : Mod) (r : Nat) : Nat := fld m (rRlBuf r) 56 16 * 65536

/-- Incoming segments that are forwarded (Table 7.3). -/
def reelForwards (m : Mod) (r : Nat) : Nat :=
  let g1 := fld m (rRlRing r) 5 0
  (if reelAccum m r then g1 else g1 - 1) * reelB m r

/-- Length of the outgoing stream (R182). -/
def reelLen (m : Mod) (r : Nat) : Nat := reelForwards m r + reelB m r

/-- Taps counted for an incoming segment. -/
def reelTaps (m : Mod) (r n : Nat) : Nat := sget (fun _ => 0) (reelAt m r).taps n

/-- A landed segment has every tap. -/
def tapsDone (m : Mod) (r n : Nat) : Bool := fld m (rRlTaps r) 15 0 ≤ reelTaps m r n

/-- Incoming segment `n` is freed (R185, Table 7.3). -/
def segFreed (m : Mod) (r n : Nat) : Bool :=
  decide (n < fld m (rRlLanded r) 31 0) && tapsDone m r n
    && (decide (reelForwards m r ≤ n) || decide (reelB m r + n < fld m (rRlSent r) 31 0))

/-- Grants credits to the predecessor on virtual channel 0 (R184). -/
def reelGrant (m : Mod) (r n : Nat) : Mod :=
  sendNear m (fld m (rRlRing r) 14 12) 0 2 (fld m (rRlCtl r) 7 4) (fld m (rRlRing r) 31 16) (fld m (rRlGo r) 15 8) n [] []

/-- Any progress returns a stalled pass to running (R190). -/
def reelProgress (m : Mod) (r : Nat) : Mod := if reelStatus m r = 6 then setReelStatus m r 1 else m

/-- FREED advances over freed segments, each of which grants a credit; `fuel` bounds them. -/
def reelFree (r : Nat) : Nat → Mod → Mod
  | 0, m => m
  | fuel + 1, m =>
    if segFreed m r (fld m (rRlFreed r) 31 0) then
      reelFree r fuel (reelProgress (reelGrant (incReg m (rRlFreed r) 1) r 1) r)
    else m

/-- Frees what can be freed, and completes the pass when LANDED, SENT and FREED equal the stream length (R188). -/
def reelSettle (m : Mod) (r : Nat) : Mod :=
  let m := reelFree r (fld m (rRlLanded r) 31 0 - fld m (rRlFreed r) 31 0) m
  let n := reelLen m r
  if fld m (rRlLanded r) 31 0 = n ∧ fld m (rRlSent r) 31 0 = n ∧ fld m (rRlFreed r) 31 0 = n
  then setReelStatus m r 2 else m

/-- The number of the current or last pass. -/
def reelPass (m : Mod) (r : Nat) : Nat := fld m (rRlGo r) 15 8

/-- The current pass was aborted (R189), whatever a start that was refused since has made of the status. -/
def reelDead (m : Mod) (r : Nat) : Bool := !reelRuns m r && (reelAt m r).dead.contains (reelPass m r)

/-- A write of 1 to go (R181). Where causes of both statuses hold the start is refused with status 3, and a context of another partition
maps nothing (R386); taps on their way are kept, and act on the new pass, while a segment that had arrived and not yet landed is
never written (log 39). A segment of an aborted pass that is being sent still completes (R189). -/
def reelStart (m : Mod) (r : Nat) : Mod :=
  if reelRuns m r then m else
  let x := reelCtx m r
  if fld m (rRlCtl r) 0 0 = 0 ∨ 11 < fld m (rRlCtl r) 7 4 ∨ fld m (rRlRing r) 5 0 = 0 ∨ 6 ≤ fld m (rRlRing r) 14 12
      ∨ 6 ≤ fld m (rRlRing r) 10 8 ∨ reelB m r = 0 ∨ fld m (rRlTaps r) 15 0 = 0 then
    setBit (setReelStatus m r 3) (rRlErr r) 0
  else if !ctxOf m x (fld m (rRlCtl r) 7 4) || !rangeMapped m x (fld m (rRlSrc r) 56 6 * 64) (reelSegBytes m r * reelB m r)
      || !rangeMapped m x (reelBuf m r) (65536 * reelZ m r) then
    setBit (setReelStatus m r 4) (rRlErr r) 0
  else
    let m := wrN (wrN (wrN (wrN m (rRlLanded r) 0) (rRlSent r) 0) (rRlFreed r) 0) (rRlCredit r) 0
    let m := setFld m (rRlGo r) 15 8 (reelPass m r + 1)
    let s := reelAt m r
    let m := setReel m r { ReelSt.reset with
      tapMsgs := s.tapMsgs, sending := s.sending.map (fun g => { g with old := true }), dead := s.dead.filter (· != reelPass m r) }
    reelGrant (setReelStatus m r 1) r (reelZ m r)

/-- A write of 0 to go aborts a running or stalled pass (R189). -/
def reelAbort (m : Mod) (r : Nat) : Mod :=
  if reelRuns m r then
    let s := reelAt m r
    setReelStatus (setReel m r { s with dead := reelPass m r :: s.dead.filter (· != reelPass m r) }) r 5
  else m

/-- A reel segment arrives on a port (R180). -/
def reelSegment (q : Nat) (h : Head) (data : List Byte) (m : Mod) : Mod :=
  let w1 := h.getD 1 0
  match (List.range 16).find? (fun r => fld m (rRlCtl r) 0 0 == 1 && fld m (rRlRing r) 31 16 == bits w1 15 0
      && fld m (rRlRing r) 14 12 == q) with
  | none => dropMsg m 2 q (h.getD 0 0)
  | some r =>
    let x := reelAt m r
    let n := fld m (rRlLanded r) 31 0 + x.arrived.length
    if x.dead.contains (bits w1 23 16) then setBit m (rRlErr r) 5
    else if reelRuns m r ∧ bits w1 23 16 = fld m (rRlGo r) 15 8 ∧ bits w1 63 32 = n ∧ n < reelLen m r then
      setReel m r { x with arrived := x.arrived ++ [(n, data)] }
    else setBit m (rRlErr r) 3

/-- The oldest arrived segment has been written to its slot (R182, R183); a write that is refused or waits is made again (R384). -/
def reelLand (r : Nat) (m : Mod) : Mod :=
  let x := reelAt m r
  match x.arrived with
  | (n, data) :: rest =>
    if !reelRuns m r then m else
    let va := reelBuf m r + 65536 * (n % reelZ m r)
    if rangeBusy m (reelCtx m r) va data.length true then rangeWake m (reelCtx m r) va data.length true else
    let m := vaPuts (setReel m r { x with arrived := rest }) (reelCtx m r) va data
    reelSettle (reelProgress (incReg m (rRlLanded r) 1) r) r
  | [] => m

/-- A credit grant arrives from the successor; one for another pass is ignored (R184). -/
def reelCredit (r pass n : Nat) (m : Mod) : Mod :=
  if reelRuns m r ∧ pass = fld m (rRlGo r) 15 8 then setFld m (rRlCredit r) 15 0 (satAdd 16 (fld m (rRlCredit r) 15 0) n) else m

/-- A tap on its way from a dolly channel arrives (R186). -/
def reelTap (r n : Nat) (m : Mod) : Mod :=
  let x := reelAt m r
  if !x.tapMsgs.contains n then m else
  let m := setReel m r { x with tapMsgs := x.tapMsgs.erase n }
  let warn (m : Mod) (code : Nat) : Mod :=
    raise m (telemEv 8 8 code .warning (leBytes 4 r ++ leBytes 4 n))
  if reelDead m r then m
  else if fld m (rRlLanded r) 31 0 ≤ n then warn (setBit m (rRlErr r) 1) 1
  else if tapsDone m r n then warn (setBit m (rRlErr r) 2) 2
  else
    let x := reelAt m r
    reelSettle (setReel m r { x with taps := sset (fun _ => 0) x.taps n (reelTaps m r n + 1) }) r

/-- The next outgoing segment leaves once a credit is held: an own one from SRC, or a forwarded one from its slot (R182,
R184, R185); a read that is refused or waits is made again (R384). -/
def reelSend (r : Nat) (m : Mod) : Mod :=
  let x := reelAt m r
  let j := x.next
  let b := reelB m r
  let ready := decide (j < b) || (decide (j - b < fld m (rRlLanded r) 31 0) && (!reelAccum m r || tapsDone m r (j - b)))
  if reelRuns m r && x.sending.isNone && decide (0 < fld m (rRlCredit r) 15 0) && decide (j < reelLen m r) && ready then
    let va := if j < b then fld m (rRlSrc r) 56 6 * 64 + reelSegBytes m r * j else reelBuf m r + 65536 * ((j - b) % reelZ m r)
    if rangeBusy m (reelCtx m r) va (reelSegBytes m r) false then rangeWake m (reelCtx m r) va (reelSegBytes m r) false else
    let body := vaBytes m (reelCtx m r) va (reelSegBytes m r)
    let m := eccRead m (reelCtx m r) va (reelSegBytes m r) none
    let m := { setFld m (rRlCredit r) 15 0 (fld m (rRlCredit r) 15 0 - 1) with free := m.free + 1 }
    let m := setReel m r { x with sending := some ⟨reelSegBytes m r, false⟩, next := j + 1 }
    sendNear m (fld m (rRlRing r) 10 8) 2 1 (fld m (rRlCtl r) 7 4) (fld m (rRlRing r) 31 16) (fld m (rRlGo r) 15 8) j [] body
  else m

/-- The last flit of the segment that is being sent leaves (R185, R189). -/
def reelSent (r : Nat) (m : Mod) : Mod :=
  let x := reelAt m r
  match x.sending with
  | none => m
  | some g =>
    let m := satReg (setReel m r { x with sending := none }) (rRlBytes r) 48 g.bytes
    if g.old then m else
    let m := incReg m (rRlSent r) 1
    if reelRuns m r then reelSettle (reelProgress m r) r else m

/-- A running pass sees no progress for ZW_REEL_STALL microseconds (R190). -/
def reelStall (r : Nat) (m : Mod) : Mod :=
  if reelStatus m r = 1 ∧ fld m (rRlStall r) 23 0 ≠ 0 then
    raise (setBit (setReelStatus m r 6) (rRlErr r) 4)
      (telemEv 8 8 3 .error (leBytes 4 r ++ leBytes 4 (fld m (rRlLanded r) 31 0) ++ leBytes 4 (fld m (rRlSent r) 31 0)
        ++ leBytes 4 (fld m (rRlFreed r) 31 0)))
  else m

/-! ## The rows -/

/-- A reel segment arrives and is matched to a context or dropped (R180). -/
def execReelSegment (q : Port) (h : Head) (data : List Byte) (s : State) : Host.Outcome State Fault Refusal :=
  .next (s.onMod (reelSegment q.val h data))

/-- Every byte of a segment is in its slot, and LANDED increments (R183). -/
def execReelSegmentLanded (r : Fin 16) (s : State) : Host.Outcome State Fault Refusal :=
  .next (s.onMod (reelLand r.val))

/-- A credit grant arrives (R184). -/
def execReelCreditGrant (r : Fin 16) (pass : Byte) (n : Nat) (s : State) : Host.Outcome State Fault Refusal :=
  .next (s.onMod (reelCredit r.val pass.toNat n))

/-- A dolly tap arrives (R186). -/
def execReelTap (r : Fin 16) (n : Nat) (s : State) : Host.Outcome State Fault Refusal :=
  .next (s.onMod (reelTap r.val n))

/-- The next outgoing segment leaves (R182). -/
def execReelSend (r : Fin 16) (s : State) : Host.Outcome State Fault Refusal :=
  .next (s.onMod (reelSend r.val))

/-- A segment's last flit leaves (R185). -/
def execReelSegmentSent (r : Fin 16) (s : State) : Host.Outcome State Fault Refusal :=
  .next (s.onMod (reelSent r.val))

/-- A pass makes no progress (R190). -/
def execReelStallTimeout (r : Fin 16) (s : State) : Host.Outcome State Fault Refusal :=
  .next (s.onMod (reelStall r.val))

end Sys2Proof.Machine
end

