-- ==== Sys2Proof/Machine/Stream.lean ====
section
/-!
DEFINITION. Collective streams (12_zwison_fabric.md R334 to R342): runs, contributions, the reduction order, results, the
exchange, and stalls.
-/
namespace Sys2Proof.Machine

/-- A stream's hidden state. -/
def csAt (m : Mod) (i : Nat) : StreamSt := sget (fun _ => StreamSt.reset) m.streams i

/-- Sets a stream's hidden state. -/
def setCs (m : Mod) (i : Nat) (v : StreamSt) : Mod := { m with streams := sset (fun _ => StreamSt.reset) m.streams i v }

/-- ZW_CS_GO.status: 0 idle, 1 running, 2 done, 3 refused, 4 aborted, 5 stalled. -/
def csStatus (m : Mod) (i : Nat) : Nat := fld m (rCsGo i) 19 16

/-- Sets the status; go reads 1 while it is 1 or 5. -/
def setCsStatus (m : Mod) (i st : Nat) : Mod :=
  setFld (setFld m (rCsGo i) 19 16 st) (rCsGo i) 0 0 (b2n (st == 1 || st == 5))

/-- The run goes on. -/
def csRuns (m : Mod) (i : Nat) : Bool := csStatus m i == 1 || csStatus m i == 5

def csKind (m : Mod) (i : Nat) : Nat := fld m (rCsCtl i) 10 8
def csPart (m : Mod) (i : Nat) : Nat := fld m (rCsCtl i) 7 4
def csCtx (m : Mod) (i : Nat) : Nat := fld m (rCsCtl i) 43 32
def csOp (m : Mod) (i : Nat) : Nat := fld m (rCsCtl i) 14 12
def csRun (m : Mod) (i : Nat) : Nat := fld m (rCsGo i) 15 8
def csLen (m : Mod) (i : Nat) : Nat := fld m (rCsLen i) 31 0

/-- Bytes of an element of fin, and of fout: 0x0 is FP32, 0x1 BF16. -/
def csInSize (m : Mod) (i : Nat) : Nat := if fld m (rCsCtl i) 19 16 = 0 then 4 else 2
def csOutSize (m : Mod) (i : Nat) : Nat := if fld m (rCsCtl i) 23 20 = 0 then 4 else 2

/-- Members of the stream's group, and this module's rank. -/
def csMembers (m : Mod) (i : Nat) : Nat := (grpAt m (csPart m i)).members.length
def csRank (m : Mod) (i : Nat) : Nat := fld m (rGrpRank (csPart m i)) 14 0

/-- Row size and capacity of an exchange. -/
def csRowBytes (m : Mod) (i : Nat) : Nat := 64 * fld m (rCsXcap i) 22 16
def csCap (m : Mod) (i : Nat) : Nat := fld m (rCsXcap i) 15 0

/-- Bytes of the contribution (R334, R341). -/
def csInBytes (m : Mod) (i : Nat) : Nat := if csKind m i = 3 then (csRowBytes m i + 2) * csLen m i else csLen m i

/-- Units of 32 elements. -/
def csUnits (m : Mod) (i : Nat) : Nat := csLen m i / (32 * csInSize m i)

/-- Bytes of the result buffer. -/
def csOutBytes (m : Mod) (i : Nat) : Nat :=
  match csKind m i with
  | 2 => csLen m i * csMembers m i
  | 3 => (csRowBytes m i * csCap m i + 4) * csMembers m i
  | _ => csUnits m i * 32 * csOutSize m i

/-- Addresses of the contribution and the result. -/
def csLbuf (m : Mod) (i : Nat) : Nat := fld m (rCsLbuf i) 56 6 * 64
def csRbuf (m : Mod) (i : Nat) : Nat := fld m (rCsRbuf i) 56 6 * 64

/-- part(lo, hi, k, i) of R336. -/
def csSplit (r : Nat × Nat) (k i : Nat) : Nat × Nat :=
  let g := r.2 - r.1
  (r.1 + g * i / k, r.1 + g * (i + 1) / k)

/-- The members of the stream's line in dimension `d`, and this module's place among them. -/
def csLine (m : Mod) (i d : Nat) : List Nat := lineMembers m (csPart m i) d
def csPlace (m : Mod) (i d : Nat) : Nat := indexOf (myCoord m) (csLine m i d)

/-- The range R at the entry to dimension `d`; at 3 the owned range (R336). -/
def csRange (m : Mod) (i : Nat) : Nat → Nat × Nat
  | 0 => (0, csUnits m i)
  | d + 1 => csSplit (csRange m i d) (csLine m i d).length (csPlace m i d)

/-- The field rules of Table 12.12 and R334 for a start. -/
def csAllowed (m : Mod) (i : Nat) : Bool :=
  let fin := fld m (rCsCtl i) 19 16
  let fout := fld m (rCsCtl i) 23 20
  let op := csOp m i
  let kind := csKind m i
  let len := csLen m i
  decide (fin ≤ 1) && decide (fout ≤ 1) && decide (kind ≤ 3)
    && (if kind ≤ 1 then decide (op ≤ 4) && (decide (op < 3) || decide (fin = 0 ∧ fout = 0)) else decide (op = 0))
    && (fld m (rCsCtl i) 1 1 == 0 || op == 0)
    && (if kind = 3 then decide (1 ≤ len) && decide (len ≤ 2 ^ 24) && decide (1 ≤ csCap m i)
          && decide (64 ≤ csRowBytes m i) && decide (csRowBytes m i ≤ 4096)
        else decide (len ≠ 0) && decide (len % (32 * csInSize m i) = 0) && decide (fld m (rCsXcap i) 31 0 = 0))

/-- Aborts a run that is not done (R334). -/
def csAbort (m : Mod) (i : Nat) : Mod := if csRuns m i then setCsStatus m i 4 else m

/-- Starts a run, or refuses it with status 3 (R334); the context is one of the stream's partition (R386). -/
def csStart (m : Mod) (i : Nat) : Mod :=
  let m := csAbort m i
  let p := csPart m i
  let refuse := setBit (setCsStatus m i 3) (rCsErr i) 0
  if fld m (rCsCtl i) 0 0 = 0 ∨ 11 < p then refuse
  else if grpState m p ≠ 2 ∨ !csAllowed m i ∨ !ctxOf m (csCtx m i) p then refuse
  else
    let x := csCtx m i
    if !rangeMapped m x (csLbuf m i) (csInBytes m i) || !rangeMapped m x (csRbuf m i) (csOutBytes m i)
        || !rangeMapped m x (fld m (rCsLand i) 56 16 * 65536) 0x100000 then refuse
    else
      let m := setFld (setFld m (rCsGo i) 15 8 (csRun m i + 1)) (rCsGo i) 20 20 0
      let m := setFld (wrN (setCs m i StreamSt.reset) (rCsDrop i) 0) rSwNf p p 0
      let m := wrN (wrN m (rCsWaitP i) 0) (rCsWaitL i) 0
      let own := csRange m i 3
      setCsStatus (wrN m (rCsOwn i) (own.1 + (own.2 - own.1) * 2 ^ 32)) i 1

/-- Any progress returns a stalled stream to running (R342). -/
def csProgress (m : Mod) (i : Nat) : Mod := if csStatus m i = 5 then setCsStatus m i 1 else m

/-- A non-finite value sets the run's nf bit and the partition's switch flag (R338). -/
def csNf (m : Mod) (i : Nat) (b : Bool) : Mod :=
  if b then setFld (setFld m (rCsGo i) 20 20 1) rSwNf (csPart m i) (csPart m i) 1 else m

/-- The stream's operation on two elements (R338). -/
def csCombine (op : Nat) (a b : W32) : W32 :=
  match op with
  | 0 => fpAdd a b
  | 1 => fpMax a b
  | 2 => fpMin a b
  | 3 => a ||| b
  | _ => a &&& b

/-- Bytes of contribution block `b`. -/
def csBlockBytes (m : Mod) (i b : Nat) : Nat := min 65536 (csInBytes m i - 65536 * b)

/-- Contribution block `b` is final: every byte of it has been counted. -/
def csBlockFinal (m : Mod) (i b : Nat) : Bool := decide (csBlockBytes m i b ≤ sget (fun _ => 0) (csAt m i).counted b)

/-- The whole contribution is final. -/
def csAllFinal (m : Mod) (i : Nat) : Bool := (List.range ((csInBytes m i + 65535) / 65536)).all (csBlockFinal m i)

/-- Element `e` of the contribution as FP32: BF16 converts exactly, a NaN into the canonical one (R41, R338). -/
def csElem (m : Mod) (i e : Nat) : W32 :=
  let bs := vaBytes m (csCtx m i) (csLbuf m i + csInSize m i * e) (csInSize m i)
  if csInSize m i = 4 then BitVec.ofNat 32 (leNat bs) else fpCanon (BitVec.ofNat 32 (leNat bs * 65536))

/-- This member's value of element `e` at the entry to dimension `d`, once it is final; a read of it that is refused or waits is made
again (R384). -/
def csVal (m : Mod) (i d e : Nat) : Option W32 :=
  if d = 0 then
    (if csBlockFinal m i (csInSize m i * e / 65536)
        && !rangeBusy m (csCtx m i) (csLbuf m i + csInSize m i * e) (csInSize m i) false then some (csElem m i e) else none)
  else sget (fun _ => none) (csAt m i).vals (2 ^ 40 * d + e)

/-- The values of a range of units, once all are final. -/
def csVals (m : Mod) (i d lo hi : Nat) : Option (List W32) := (natsFrom (32 * lo) (32 * (hi - lo))).mapM (csVal m i d)

/-- Sets values at the entry to dimension `d`. -/
def csPut (m : Mod) (i d e : Nat) : List W32 → Mod
  | [] => m
  | v :: vs =>
    let x := csAt m i
    csPut (setCs m i { x with vals := sset (fun _ => none) x.vals (2 ^ 40 * d + e) (some v) }) i d (e + 1) vs

/-- The square of a finite FP32 value in units of 2^−298 (R338). -/
def sqUnits (v : W32) : Nat :=
  match fpX v with
  | .fin _ n q => n * n * 2 ^ (2 * q + 298).toNat
  | _ => 0

/-- Word 2 of a partial's or result's head: this model's layout of what Table 12.3 leaves to the type (log 20). -/
def csWord2 (m : Mod) (i : Nat) (c : CollPart) : W64 :=
  BitVec.ofNat 64 (i + csRun m i * 2 ^ 8 + c.dim * 2 ^ 16 + b2n c.result * 2 ^ 18 + b2n c.asc * 2 ^ 19 + c.q * 2 ^ 24)

/-- Sends a partial or result to the next member of its line in its direction. -/
def csSend (m : Mod) (i : Nat) (c : CollPart) : Mod :=
  let l := csLine m i c.dim
  let a := csPlace m i c.dim
  let k := l.length
  let dst := l.getD (if c.asc then (a + 1) % k else (a + k - 1) % k) 0
  let p := csPart m i
  sendTo m dst 1 0x10 p (grpId m p) (grpEpoch m p) (if c.result then c.lo else 2 * c.lo) [csWord2 m i c] (bytes c.data)
where
  /-- The bytes of a message body. -/
  bytes (ws : List W32) : List Byte := ws.flatMap (fun w => leBytes 4 w.toNat)

/-- Sends a partial when a credit for its dimension and direction is held; else it waits (R337). -/
def csEmit (m : Mod) (i : Nat) (c : CollPart) : Mod :=
  let x := csAt m i
  let ci := 2 * c.dim + b2n c.asc
  if 0 < x.credits.getD ci 0 then
    csSend (setCs m i { x with credits := x.credits.set ci (x.credits.getD ci 0 - 1) }) i c
  else setCs m i { x with waiting := x.waiting ++ [c] }

/-- Writes result bytes at an offset of RBUF; a write that is refused or waits is made again (R384). -/
def csWrite (m : Mod) (i off : Nat) (bs : List Byte) : Mod :=
  let x := csCtx m i
  if rangeBusy m x (csRbuf m i + off) bs.length true then
    let m := rangeWake m x (csRbuf m i + off) bs.length true
    setCs m i { csAt m i with landing := (csAt m i).landing ++ [(off, bs)] }
  else vaPuts m x (csRbuf m i + off) bs

/-- Makes the result writes that wait again. -/
def csFlush (m : Mod) (i : Nat) : Mod :=
  let l := (csAt m i).landing
  if l.isEmpty then m else l.foldl (fun m e => csWrite m i e.1 e.2) (setCs m i { csAt m i with landing := [] })

/-- Result lines land in RBUF. -/
def csLand (m : Mod) (i line : Nat) (data : List W32) : Mod :=
  let m := csWrite m i (64 * line) (data.flatMap (fun w => leBytes 4 w.toNat))
  let x := csAt m i
  setCs m i { x with landed := (natsFrom line ((data.length + 15) / 16)).foldl (fun l k => sset (fun _ => false) l k true) x.landed }

/-- A result in messages of at most 64 KiB: the line each begins at, and its words (R336). -/
def csPieces (line : Nat) (data : List W32) : List (Nat × List W32) :=
  (List.range ((data.length + 16383) / 16384)).map (fun b => (line + 1024 * b, (data.drop (16384 * b)).take 16384))

/-- Sends a result along every dimension below `d`, with this member as its origin there (R336). -/
def csSpread (m : Mod) (i d line : Nat) (data : List W32) : Mod :=
  (List.range d).foldl (fun m e =>
    if 1 < (csLine m i e).length then
      (csPieces line data).foldl (fun m p => csSend m i ⟨e, true, true, csPlace m i e, p.1, p.2⟩) m
    else m) m

/-- The 32-bit words of converted results: FP32 elements, or BF16 elements two to a word. -/
def csWords (size : Nat) : List W32 → List W32
  | a :: b :: r =>
    if size = 4 then a :: b :: csWords size r else BitVec.ofNat 32 (a.toNat % 65536 + b.toNat % 65536 * 65536) :: csWords size r
  | l => l

/-- Owned results become final: SQ and NS, the conversion to fout, and their way to the other members (R336, R338). -/
def csOwned (m : Mod) (i lo : Nat) (vs : List W32) : Mod :=
  let stats := fld m (rCsCtl i) 1 1 = 1
  let arith := csOp m i < 3
  let conv (v : W32) : Nat × Bool :=
    if arith then convertF (if csOutSize m i = 4 then .fp32 else .bf16) .nearest false (fpX v) else (v.toNat, false)
  let cs := vs.map conv
  let m := csNf m i (arith && cs.any (·.2))
  let x := csAt m i
  let m := if stats then setCs m i { x with ns := x.ns + (vs.map sqUnits).foldl (· + ·) 0 } else m
  let ws := csWords (csOutSize m i) (cs.map (fun c => BitVec.ofNat 32 c.1))
  let line := 32 * csOutSize m i * lo / 64
  let m := csLand m i line ws
  if csKind m i = 0 then csSpread m i 3 line ws else m

/-- A member's results of dimension `d` for a range are known: they are its values at the entry to the next. -/
def csResult (m : Mod) (i d lo : Nat) (vs : List W32) : Mod :=
  let m := csPut m i (d + 1) (32 * lo) vs
  if d = 2 then csOwned m i lo vs else m

/-- The blocks of at most 64 KiB of FP32 partials of a range. -/
def csBlocks (r : Nat × Nat) : List (Nat × Nat) :=
  (List.range ((r.2 - r.1 + 511) / 512)).map (fun b => (r.1 + 512 * b, min r.2 (r.1 + 512 * (b + 1))))

/-- The chains of dimension `d`: part index, direction ascending, and block. -/
def csChains (m : Mod) (i d : Nat) : List (Nat × Bool × Nat × Nat) :=
  let k := (csLine m i d).length
  (List.range k).flatMap (fun q => [(true, 0), (false, 1)].flatMap (fun h =>
    (csBlocks (csSplit (csSplit (csRange m i d) k q) 2 h.2)).map (fun b => (q, h.1, b.1, b.2))))

/-- Starts a chain whose first member this module is, once its own values are final (R336). -/
def csStartChain (i d : Nat) (m : Mod) (ch : Nat × Bool × Nat × Nat) : Mod :=
  let (q, asc, lo, hi) := ch
  let k := (csLine m i d).length
  let a := csPlace m i d
  let x := csAt m i
  let key := [d, q, b2n asc, lo]
  if (if asc then (q + 1) % k else (q + k - 1) % k) ≠ a ∨ x.started.contains key then m else
  match csVals m i d lo hi with
  | none => m
  | some vs =>
    let m := setCs m i { x with started := key :: x.started }
    if k = 1 then csResult m i d lo vs else csEmit m i ⟨d, asc, false, q, lo, vs⟩

/-- Consumes a partial whose local operand is final: it adds this member's values and goes on, or is this member's result;
its slot credit returns to the sender (R336, R337). -/
def csConsume (i : Nat) (m : Mod) (e : Nat × CollPart) : Mod :=
  let c := e.2
  let hi := c.lo + c.data.length / 32
  match csVals m i c.dim c.lo hi with
  | none => m
  | some vs =>
    let op := csOp m i
    let rs := (c.data.zip vs).map (fun p => csCombine op p.1 p.2)
    let x := csAt m i
    let m := setCs m i { x with slots := x.slots.erase e, started := [c.dim, c.q, b2n c.asc, c.lo] :: x.started }
    let m := csNf m i (decide (op < 3) && rs.any fpNonFinite)
    let l := csLine m i c.dim
    let a := csPlace m i c.dim
    let k := l.length
    let p := csPart m i
    let src := l.getD (if c.asc then (a + k - 1) % k else (a + 1) % k) 0
    let m := sendTo m src 0 0x11 p (grpId m p) (grpEpoch m p) (2 * c.lo) [csWord2 m i c] []
    if a = c.q then csResult m i c.dim c.lo rs else csEmit m i { c with data := rs }

/-- Partials that have come land, in order, each in the lowest free slot of its direction; a partial for which no slot is free, or
whose write is refused, stays in the switch (R337, log 41). -/
def csAccept (m : Mod) (i : Nat) : Mod :=
  let land (m : Mod) (c : CollPart) : Mod :=
    let x := csAt m i
    match (natsFrom (if c.asc then 0 else 8) 8).find? (fun s => !x.slots.any (fun e => e.1 == s)) with
    | none => setCs m i { x with arrived := x.arrived ++ [c] }
    | some s =>
      let va := fld m (rCsLand i) 56 16 * 65536 + 65536 * s
      let bs := c.data.flatMap (fun w => leBytes 4 w.toNat)
      if rangeBusy m (csCtx m i) va bs.length true then
        let m := rangeWake m (csCtx m i) va bs.length true
        setCs m i { csAt m i with arrived := (csAt m i).arrived ++ [c] }
      else
        let m := vaPuts m (csCtx m i) va bs
        setCs m i { csAt m i with slots := (csAt m i).slots ++ [(s, c)] }
  let l := (csAt m i).arrived
  if l.isEmpty then m else l.foldl land (setCs m i { csAt m i with arrived := [] })

/-- The whole contribution can be read: it is final, and no read of it is refused or waits. -/
def csReady (m : Mod) (i : Nat) : Bool := csAllFinal m i && !rangeBusy m (csCtx m i) (csLbuf m i) (csInBytes m i) false

/-- All-gather: a member's own contribution becomes final, lands at its rank's place and goes to the others (R336). -/
def csGather (m : Mod) (i : Nat) : Mod :=
  let x := csAt m i
  if x.exchanged ∨ !csReady m i then m else
  let line := csRank m i * csLen m i / 64
  let ws := words (vaBytes m (csCtx m i) (csLbuf m i) (csLen m i))
  csSpread (csLand (setCs m i { x with exchanged := true }) i line ws) i 3 line ws
where
  /-- The words of a byte list. -/
  words : List Byte → List W32
    | a :: b :: c :: d :: r => BitVec.ofNat 32 (leNat [a, b, c, d]) :: words r
    | _ => []

/-- Rows of one exchange source land from row `first` on; with the last of its `count` rows the zero rows and the count (R341). -/
def csRowsLand (m : Mod) (i src first : Nat) (rows : List Byte) (count : Nat) : Mod :=
  let w := csRowBytes m i
  let c := csCap m i
  let m := csWrite m i (w * c * src + w * first) (rows.take (w * (c - first)))
  let s := csAt m i
  let got := sget (fun _ => 0) s.rowsIn src + rows.length / w
  let m := setCs m i { s with rowsIn := sset (fun _ => 0) s.rowsIn src got }
  if got < count ∨ s.sources.contains src then m else
  let m := csWrite m i (w * c * src + w * count) (List.replicate (w * (c - count)) 0)
  let m := csWrite m i (w * c * csMembers m i + 4 * src) (leBytes 4 count)
  setCs m i { csAt m i with sources := src :: (csAt m i).sources }

/-- The switch sends an exchange's rows once the contribution is final: for each destination the first C rows in ascending
order, in messages of at most 64 KiB, and the count; the rest are dropped and counted (R341). -/
def csExchange (m : Mod) (i : Nat) : Mod :=
  let x := csAt m i
  if x.exchanged ∨ !csReady m i then m else
  let m := setCs m i { x with exchanged := true }
  let n := csLen m i
  let w := csRowBytes m i
  let cap := csCap m i
  let members := (grpAt m (csPart m i)).members
  let dests := (List.range n).map (fun r => leNat (vaBytes m (csCtx m i) (csLbuf m i + w * n + 2 * r) 2))
  let me := csRank m i
  let send (m : Mod) (r : Nat) : Mod :=
    let mine := (List.range n).filter (fun j => dests.getD j 0xFFFF == r)
    let kept := mine.take cap
    let m := satReg m (rCsDrop i) 32 (mine.length - kept.length)
    let body := kept.flatMap (fun j => vaBytes m (csCtx m i) (csLbuf m i + w * j) w)
    if r = me then csRowsLand m i me 0 body kept.length
    else
      let p := csPart m i
      let per := 65536 / w
      (List.range (max 1 ((kept.length + per - 1) / per))).foldl (fun m b =>
        sendTo m (members.getD r 0) 1 0x12 p (grpId m p) (grpEpoch m p) 0
          [BitVec.ofNat 64 (i + csRun m i * 2 ^ 8), BitVec.ofNat 64 kept.length, BitVec.ofNat 64 (per * b)]
          ((body.drop (w * per * b)).take (w * per))) m
  let lost := (dests.filter (fun r => decide (members.length ≤ r) && decide (r ≠ 0xFFFF))).length
  (List.range members.length).foldl send (satReg m (rCsDrop i) 32 lost)

/-- A 64-byte line of RBUF is final in the current run. -/
def csLineFinal (m : Mod) (i line : Nat) : Bool :=
  let x := csAt m i
  !x.landing.any (fun e => decide (64 * line < e.1 + e.2.length) && decide (e.1 < 64 * line + 64)) &&
  if csKind m i = 3 then
    let reg := csRowBytes m i * csCap m i
    if 64 * line < reg * csMembers m i then x.sources.contains (64 * line / reg)
    else x.sources.length == csMembers m i
  else sget (fun _ => false) x.landed line

/-- This member has done its part of every chain of the run (R336). -/
def csChained (m : Mod) (i : Nat) : Bool :=
  [0, 1, 2].all (fun d => (csChains m i d).all (fun c => (csAt m i).started.contains [d, c.1, b2n c.2.1, c.2.2.1]))

/-- Every part of the result that this member receives is final, and nothing is left for it to send. -/
def csComplete (m : Mod) (i : Nat) : Bool :=
  let x := csAt m i
  x.slots.isEmpty && x.arrived.isEmpty && x.waiting.isEmpty && x.landing.isEmpty && csAllFinal m i
    && (decide (2 ≤ csKind m i) || csChained m i) &&
    (match csKind m i with
     | 3 => x.exchanged && x.sources.length == csMembers m i
     | 1 =>
       let own := csRange m i 3
       (natsFrom (own.1 * csOutSize m i / 2) ((own.2 - own.1) * csOutSize m i / 2)).all (csLineFinal m i)
     | _ => (List.range (csOutBytes m i / 64)).all (csLineFinal m i))

/-- Takes a running stream as far as its operands and credits allow. -/
def csAdvance (m : Mod) (i : Nat) : Mod :=
  if !csRuns m i then m else
  let m := csAccept (csFlush m i) i
  let m :=
    match csKind m i with
    | 2 => csGather m i
    | 3 => csExchange m i
    | _ =>
      [0, 1, 2].foldl (fun m d =>
        let m := (csChains m i d).foldl (csStartChain i d) m
        ((csAt m i).slots.filter (fun e => e.2.dim == d)).foldl (csConsume i) m) m
  if csComplete m i then setCsStatus m i 2 else m

/-- Contribution bytes that a dolly wrote are counted (R335): a block counted beyond its size sets overwrite and leaves its
data unspecified; a block that becomes final adds to SQ and tests its inputs (R338). -/
def csCount (m : Mod) (i off n : Nat) : Mod :=
  if !csRuns m i then m else
  let b := off / 65536
  let x := csAt m i
  let was := sget (fun _ => 0) x.counted b
  let m := csProgress (setCs m i { x with counted := sset (fun _ => 0) x.counted b (was + n) }) i
  let size := csBlockBytes m i b
  if size < was + n then
    let m := setBit m (rCsErr i) 1
    let lb := csLbuf m i + 65536 * b
    { vaPuts m (csCtx m i) lb ((natsFrom lb size).map (Config.carveByte m.free)) with free := m.free + 1 }
  else if was < size ∧ was + n = size ∧ csKind m i < 2 then
    let es := (natsFrom (65536 * b / csInSize m i) (size / csInSize m i)).map (csElem m i)
    let m := csNf m i (decide (csOp m i < 3) && es.any fpNonFinite)
    let x := csAt m i
    csAdvance (if fld m (rCsCtl i) 1 1 = 1 then setCs m i { x with sq := x.sq + (es.map sqUnits).foldl (· + ·) 0 } else m) i
  else csAdvance m i

/-- A group message of another group or epoch is dropped with cause 3 (R327, R332), and sets ZW_GRP_ERR.epoch_drop for an epoch. -/
def grpDrop (m : Mod) (p : Nat) (tag : W16) (port : Nat) (w0 : W64) : Mod :=
  dropMsg (if tag.toNat = grpId m p then setBit m (rGrpErr p) 1 else m) 3 port w0

/-- The group id, and bits [15:0] of the epoch, are those of the partition's group. -/
def grpMatch (m : Mod) (p : Nat) (key : MsgKey) : Bool := key.tag.toNat == grpId m p && key.epoch.toNat == grpEpoch m p % 65536

/-- A collective message that its stream does not take: of another group or epoch (cause 3), or of a run that is not running
(cause 6). -/
def csRefused (m : Mod) (i : Nat) (key : MsgKey) (run : Byte) (port : Nat) (w0 : W64) : Option Mod :=
  if !grpMatch m (csPart m i) key then some (grpDrop m (csPart m i) key.tag port w0)
  else if !csRuns m i ∨ run.toNat ≠ csRun m i then
    some (dropMsg (if csStatus m i = 4 then setBit m (rCsErr i) 3 else m) 6 port w0)
  else none

/-- A collective partial or result arrives (R327, R332): a result lands and goes on; a partial takes a slot of the landing area
(R337). -/
def csArrive (i : Nat) (c : CollMsg) (m : Mod) : Mod :=
  match csRefused m i ⟨c.tag, c.epoch⟩ c.run c.port.val c.w0 with
  | some m => m
  | none =>
    let m := csProgress m i
    let cp : CollPart := ⟨c.dim.val, c.asc, c.result, c.q, c.lo, c.data⟩
    if c.result then
      let m := csLand m i c.lo c.data
      let l := csLine m i cp.dim
      let m := if (csPlace m i cp.dim + 1) % l.length ≠ c.q then csSend m i cp else m
      csAdvance (csSpread m i cp.dim c.lo c.data) i
    else
      let x := csAt m i
      csAdvance (setCs m i { x with arrived := x.arrived ++ [cp] }) i

/-- A slot credit arrives for the sender's dimension and direction: a partial that waits for it leaves, which is progress (R337,
R342). -/
def csCredit (i : Nat) (key : MsgKey) (run : Byte) (d : Nat) (asc : Bool) (m : Mod) : Mod :=
  match csRefused m i key run 7 (headWord0 m (myCoord m) 0 0x11 0 (csPart m i)) with
  | some m => m
  | none =>
    let x := csAt m i
    match x.waiting.find? (fun c => c.dim == d && c.asc == asc) with
    | some c => csAdvance (csProgress (csSend (setCs m i { x with waiting := x.waiting.erase c }) i c) i) i
    | none => setCs m i { x with credits := x.credits.set (2 * d + b2n asc) (min 8 (x.credits.getD (2 * d + b2n asc) 0 + 1)) }

/-- Exchange rows, from row `first` on, and their source's count arrive (R341). -/
def csRows (i : Nat) (key : MsgKey) (run : Byte) (src first : Nat) (rows : List Byte) (count : Nat) (m : Mod) : Mod :=
  let w0 := headWord0 m (myCoord m) 1 0x12 (rows.length / 64) (csPart m i)
  match csRefused m i key run 7 w0 with
  | some m => m
  | none =>
    if csKind m i ≠ 3 ∨ csMembers m i ≤ src ∨ csCap m i < count then dropMsg m 6 7 w0
    else csAdvance (csRowsLand (csProgress m i) i src first rows count) i

/-- A running stream makes no progress for ZW_CS_STALL microseconds (R342). -/
def csStall (i : Nat) (m : Mod) : Mod :=
  if csStatus m i = 1 ∧ fld m (rCsStall i) 23 0 ≠ 0 then
    raise (setBit (setCsStatus m i 5) (rCsErr i) 2) (telemEv 8 9 1 .error [BitVec.ofNat 8 i, BitVec.ofNat 8 (csRun m i)])
  else m

/-! ## The rows -/

/-- A collective partial or result arrives (R336). -/
def execCollPartial (i : Stream) (c : CollMsg) (s : State) : Host.Outcome State Fault Refusal :=
  .next (s.onMod (csArrive i.val c))

/-- A slot credit arrives (R337). -/
def execCollSlotCredit (i : Stream) (x : SlotCredit) (s : State) : Host.Outcome State Fault Refusal :=
  .next (s.onMod (csCredit i.val x.key x.run x.dim.val x.asc))

/-- Exchange rows and a count arrive (R341). -/
def execExchangeRows (i : Stream) (h : RowsHead) (rows : List Byte) (count : Nat) (s : State) :
    Host.Outcome State Fault Refusal :=
  .next (s.onMod (csRows i.val h.key h.run h.src h.first rows count))

/-- A stream makes no progress (R342). -/
def execCsStallTimeout (i : Stream) (s : State) : Host.Outcome State Fault Refusal :=
  .next (s.onMod (csStall i.val))

end Sys2Proof.Machine
end

