-- ==== Sys2Proof/Machine/CoreOps.lean ====
section
/-!
DEFINITION. The shared operations of an Octix core (03_octix_core.md): registers, core addresses, hazards, faults, and the
one issue cycle that every instruction row goes through.
-/
namespace Sys2Proof.Machine

/-! ## Registers -/

/-- A scalar register; s0 reads zero (R65). -/
def rs (x : CoreSt) (r : SReg) : W64 := if r = 0 then 0 else sget (fun _ => 0) x.s r.val

/-- Writes a scalar register; a write to s0 is discarded (R65). -/
def setS (x : CoreSt) (r : SReg) (v : W64) : CoreSt :=
  if r = 0 then x else { x with s := sset (fun _ => 0) x.s r.val v }

/-- The low 32 bits of a scalar register. -/
def rs32 (x : CoreSt) (r : SReg) : W32 := BitVec.ofNat 32 (rs x r).toNat

/-- A predicate; p0 reads 1 (R65). -/
def rp (x : CoreSt) (p : PReg) : Bool := if p = 0 then true else bit x.p p.val

/-- Writes a predicate; a write to p0 is discarded (R65). -/
def setP (x : CoreSt) (p : PReg) (v : Bool) : CoreSt :=
  if p = 0 then x else { x with p := put x.p p.val p.val (b2n v) }

/-- Lane `l` of a vector register. -/
def vLane (x : CoreSt) (r : VReg) (l : Nat) : W32 := sget (fun _ => 0) x.v (32 * r.val + l)

/-- The 32 lanes of a vector register. -/
def rv (x : CoreSt) (r : VReg) : List W32 := (List.range 32).map (vLane x r)

/-- Writes one lane. -/
def setLane (x : CoreSt) (r : VReg) (l : Nat) (v : W32) : CoreSt :=
  { x with v := sset (fun _ => 0) x.v (32 * r.val + l) v }

/-- Writes lanes upward from lane `l`. -/
def setLanes (x : CoreSt) (r : VReg) (l : Nat) : List W32 → CoreSt
  | [] => x
  | v :: vs => setLanes (setLane x r l v) r (l + 1) vs

/-- Element (i, j) of accumulator `t`. -/
def rt (x : CoreSt) (t i j : Nat) : W32 := sget (fun _ => 0) x.t (256 * t + 16 * i + j)

/-- Writes element (i, j) of accumulator `t`. -/
def setT (x : CoreSt) (t i j : Nat) (v : W32) : CoreSt :=
  { x with t := sset (fun _ => 0) x.t (256 * t + 16 * i + j) v }

/-- Writes elements of accumulator `t` in row-major order from element `e`. -/
def setTs (x : CoreSt) (t e : Nat) : List W32 → CoreSt
  | [] => x
  | v :: vs => setTs { x with t := sset (fun _ => 0) x.t (256 * t + e) v } t (e + 1) vs

/-- Column `jn` of row `i` of the pair that begins at `t` (R146). -/
def pairAt (x : CoreSt) (t i jn : Nat) : W32 := rt x (t + jn / 16) i (jn % 16)

/-- Writes column `jn` of row `i` of a pair. -/
def setPair (x : CoreSt) (t i jn : Nat) (v : W32) : CoreSt := setT x (t + jn / 16) i (jn % 16) v

/-- Sets the non-finite flag if an event asks for it (R60). -/
def flagIf (x : CoreSt) (b : Bool) : CoreSt := if b then { x with nonfinite := true } else x

/-- CORE_CRED of a channel, or HALO_CREDIT for 16 (R130). -/
def credit (x : CoreSt) (ch : Nat) : Nat := if ch = 16 then x.haloCredit.toNat else (sget (fun _ => 0) x.cred ch).toNat

/-- Sets a credit counter. -/
def setCredit (x : CoreSt) (ch v : Nat) : CoreSt :=
  if ch = 16 then { x with haloCredit := BitVec.ofNat 32 v }
  else { x with cred := sset (fun _ => 0) x.cred ch (BitVec.ofNat 16 v) }

/-- A hardware increment: a counter at its largest value stays there and sets cred_ovf (R69). -/
def addCredit (x : CoreSt) (ch : Nat) : CoreSt :=
  if credit x ch = (if ch = 16 then 2 ^ 32 - 1 else 65535) then { x with credOvf := true }
  else setCredit x ch (credit x ch + 1)

/-! ## Addresses (R71, R74, R87, R104) -/

/-- The address a generator yields (R87). -/
def genAddr (x : CoreSt) (g : Gen) : W32 :=
  let n := x.loops.length
  (List.range n).foldl
    (fun a l => a + (match x.loops[n - 1 - l]? with | some lv => lv.cnt | none => 0)
      * sget (fun _ => 0) x.agStride (4 * g.val + l))
    (sget (fun _ => 0) x.agBase g.val)

/-- The value of a base: bits [31:0] of a register, or a generator's address (R104). -/
def baseAddr (x : CoreSt) : Base → W32
  | .reg r => rs32 x r
  | .gen g => genAddr x g

/-- The address of format M. -/
def memAddr (x : CoreSt) (b : Base) (off : W32) : Nat := (baseAddr x b + off).toNat

/-- The local store lies below this core address, the cluster store from `coreCs` to `coreCsTop` (Table 3.5). -/
def lsTop : Nat := 0x20000
def coreCs : Nat := 0x100000
def coreCsTop : Nat := 0x200000

/-- An address of Table 3.5 that is not reserved. -/
def mapped (a : Nat) : Bool := decide (a < lsTop) || (decide (coreCs ≤ a) && decide (a < coreCsTop))

/-- The first byte of a range that lies outside the store its first byte lies in; none when all lie inside. -/
def firstOutside (a n : Nat) : Option Nat :=
  if n = 0 then none
  else if !mapped a then some a
  else
    let top := if a < lsTop then lsTop else coreCsTop
    if top < a + n then some top else none

/-- As `firstOutside`, for operands that must lie in the local store (R93). -/
def firstOutsideLocal (a n : Nat) : Option Nat :=
  if n = 0 then none else if lsTop ≤ a then some a else if lsTop < a + n then some lsTop else none

/-- The byte key of a core address under a stage map: the physical half of a local-store byte (R74), or the module address
of a cluster-store byte. -/
def coreKey (c : Nat) (map : Bool) (a : Nat) : Nat :=
  if a < lsTop then c * lsTop + (if map then (a + 0x10000) % lsTop else a)
  else nearAddr (clusterOf c) + (a - coreCs)

/-- A byte of a cluster store that lies in a carve-out with a slot in use: the first key of its slot (R242, R247). -/
def carveSlot (m : Mod) (key : Nat) : Option Nat :=
  if m.pins.isEmpty && m.migQ.isEmpty then none else
  match clusterOfNear key with
  | none => none
  | some k =>
    let off := key - nearAddr k
    if off < carveBase m k || (slotsUsed m k).isEmpty then none
    else some (nearAddr k + carveBase m k + 2048 * ((off - carveBase m k) / 2048))

/-- A write into a carve-out with a slot in use, at a key of the slot whose first key is `base` (R247): the granule that the slot
holds, or is being filled with, has unspecified data from then on, and counts as written. -/
def carvePut (m : Mod) (base key : Nat) (b : Byte) : Mod :=
  let k := (clusterOfNear key).getD 0
  let slot := (base - nearAddr k - carveBase m k) / 2048
  match m.pins.find? (fun e => match e.2 with | some p => p.cluster == k && p.slot == slot | none => false) with
  | some (g, some p) =>
    { m with mem := writeList m.mem base ((natsFrom base 2048).map (Config.carveByte m.free))
             pins := sset (fun _ => none) m.pins g (some { p with written := true }) }
  | _ =>
    if m.migQ.any (fun j => j.pin && j.cluster == k && j.slot == slot) then
      { m with migQ := m.migQ.map (fun j => if j.pin && j.cluster == k && j.slot == slot then { j with spoilt := true } else j) }
    else { m with mem := sset memDefault m.mem key b, ecc := eccDrop m.ecc 2 key }

/-- One byte by its key: in a carve-out with a slot in use the data is unspecified (R247). -/
def keyByte (m : Mod) (k : Nat) : Byte :=
  if k < nearBase then sget memDefault m.lmem k
  else match carveSlot m k with
    | some _ => Config.carveByte m.free k
    | none => sget memDefault m.mem k

/-- One byte written by its key. -/
def keyPut (m : Mod) (k : Nat) (b : Byte) : Mod :=
  if k < nearBase then { m with lmem := sset memDefault m.lmem k b, ecc := eccDrop m.ecc 0 k }
  else match carveSlot m k with
    | some base => carvePut m base k b
    | none => { m with mem := sset memDefault m.mem k b, ecc := eccDrop m.ecc 2 k }

/-- A read of a core address meets an uncorrectable error (Table 16.3). -/
def coreBad (m : Mod) (c : Nat) (map : Bool) (a : Nat) : Bool := eccBad m (if a < lsTop then 0 else 2) (coreKey c map a)

/-- The first address of a range of core addresses whose read meets an uncorrectable error. -/
def firstBad (m : Mod) (c : Nat) (map : Bool) (a n : Nat) : Option Nat :=
  if m.ecc.isEmpty then none else (natsFrom a n).find? (coreBad m c map)

/-- As `firstBad`, over ranges in order. -/
def badOf (m : Mod) (c : Nat) (map : Bool) (rs : List (Nat × Nat)) : Option Nat :=
  rs.findSome? (fun r => firstBad m c map r.1 r.2)

/-- `n` bytes at a core address. -/
def coreRead (m : Mod) (c : Nat) (map : Bool) (a : Nat) : Nat → List Byte
  | 0 => []
  | n + 1 => keyByte m (coreKey c map a) :: coreRead m c map (a + 1) n

/-- Bytes written at a core address. -/
def coreWrite (m : Mod) (c : Nat) (map : Bool) (a : Nat) : List Byte → Mod
  | [] => m
  | b :: bs => coreWrite (keyPut m (coreKey c map a) b) c map (a + 1) bs

/-- The 32-bit words of a byte list. -/
def words32 : List Byte → List W32
  | a :: b :: c :: d :: r => BitVec.ofNat 32 (leNat [a, b, c, d]) :: words32 r
  | _ => []

/-- The bytes of 32-bit words. -/
def bytes32 (ws : List W32) : List Byte := ws.flatMap (fun w => leBytes 4 w.toNat)

/-! ## Operands of queued work -/

/-- Bytes of one row and of the payload of a T-tile (Table 5.1). -/
def rowBytes (f : Fmt) : Nat := 4 * fmtStoreBits f
def tileBytes (f : Fmt) : Nat := 16 * rowBytes f

/-- The operand ranges of a tensor instruction that are checked at issue (R143, R145, R147), in the order of the rules' lists. -/
def tensorRanges (q : TensorOp) : List (Nat × Nat) :=
  match q.op with
  | .tmma x =>
    let b := x.nb.val + 1
    [(q.a.toNat, b * tileBytes x.fa * q.txH / 16), (q.w.toNat, b * tileBytes x.fw)]
      ++ (if x.sa then [(q.sa.toNat, 16 * b)] else [])
      ++ (if x.sw then [(q.sw.toNat, 16 * b)] else [])
      ++ (if x.sa && q.txH == 32 then [(q.sa.toNat + 1024, 16 * b)] else [])
  | .tbias _ _ => [(q.a.toNat, 64)]
  | .tcvt x => (q.a.toNat, tileBytes x.f) :: (if x.s then [(q.sa.toNat + 16 * x.slot.val, 16)] else [])
  | _ => []

/-- The ranges a tensor instruction reads (R83, R138, R142): of each A block the 16 stored rows from its row offset on, with their
scales, and the W block with its scales. -/
def tensorReads (q : TensorOp) : List (Nat × Nat) :=
  match q.op with
  | .tmma x =>
    let b := x.nb.val + 1
    let ro := x.ro.val
    (List.range b).flatMap (fun k =>
      (if x.sa then (if ro < 16 then [(q.sa.toNat + 16 * k + ro, 16 - ro)] else [])
        ++ (if 0 < ro then [(q.sa.toNat + 1024 + 16 * k, ro)] else []) else [])
      ++ (if x.sw then [(q.sw.toNat + 16 * k, 16)] else [])
      ++ [(q.a.toNat + k * tileBytes x.fa * q.txH / 16 + ro * rowBytes x.fa, 16 * rowBytes x.fa),
          (q.w.toNat + k * tileBytes x.fw, tileBytes x.fw)])
  | .tbias _ _ => [(q.a.toNat, 64)]
  | _ => []

/-- The ranges a tensor instruction writes (R146): without p, the 16 columns of each row that belong to its accumulator. -/
def tensorWrites (q : TensorOp) : List (Nat × Nat) :=
  match q.op with
  | .tcvt x =>
    (if x.p then [(q.a.toNat, tileBytes x.f)]
     else (List.range 16).map (fun i =>
       (q.a.toNat + i * rowBytes x.f + x.t.val % 2 * (2 * fmtStoreBits x.f), 2 * fmtStoreBits x.f)))
    ++ (if x.s then [(q.sa.toNat + 16 * x.slot.val, 16)] else [])
  | _ => []

/-- The ranges a vector instruction reads (R169, R170). The sidecar base of vtdec is bits [31:0] of register s, as every core address is
one of 32 bits (R71); R104 states this for formats M, C and N, and the spec leaves the higher bits of s open: ignored (DEDUCED, log 35). -/
def vecReads (q : VecOp) : List (Nat × Nat) :=
  match q.op with
  | .vtdec => (q.addr.toNat, tileBytes q.x.f)
      :: (if q.x.sc then [(bits q.s 31 0 + 16 * q.x.slot.val, 16)] else [])
  | _ => []

/-- The ranges an entry of the move queue reads. -/
def moveReads (q : MoveOp) : List (Nat × Nat) :=
  match q.kind with
  | .copy | .push _ _ | .vld _ | .tld _ => [(q.src.toNat, q.len.toNat)]
  | _ => []

/-- The ranges an entry of the move queue writes. -/
def moveWrites (q : MoveOp) : List (Nat × Nat) :=
  match q.kind with
  | .copy | .vst _ | .tst _ => [(q.dst.toNat, q.len.toNat)]
  | _ => []

/-- The keys of the 64-byte lines of ranges (R73). -/
def lineKeys (c : Nat) (map : Bool) (rs : List (Nat × Nat)) : List Nat :=
  rs.flatMap (fun r => if r.2 = 0 then [] else
    (natsFrom (r.1 / 64) ((r.1 + r.2 - 1) / 64 - r.1 / 64 + 1)).map (fun l => coreKey c map (64 * l) / 64))

/-- Two lists share an entry. -/
def meets (a b : List Nat) : Bool := a.any (fun k => b.contains k)

/-- Lines that issued work has yet to read or write, by unit. -/
def mqLines (c : Nat) (x : CoreSt) : List Nat := x.mq.flatMap (fun q => lineKeys c q.map (moveReads q ++ moveWrites q))
def mqReadLines (c : Nat) (x : CoreSt) : List Nat := x.mq.flatMap (fun q => lineKeys c q.map (moveReads q))
def mqWriteLines (c : Nat) (x : CoreSt) : List Nat := x.mq.flatMap (fun q => lineKeys c q.map (moveWrites q))
def tqReadLines (c : Nat) (x : CoreSt) : List Nat := x.tq.flatMap (fun q => lineKeys c q.map (tensorReads q))
def tqWriteLines (c : Nat) (x : CoreSt) : List Nat := x.tq.flatMap (fun q => lineKeys c q.map (tensorWrites q))
def vqReadLines (c : Nat) (x : CoreSt) : List Nat := x.vq.flatMap (fun q => lineKeys c q.map (vecReads q))

/-- A scalar access or move that reads and writes these ranges must wait (R73, R85). A push's unread lines are kept
as a copy's (log 10). -/
def moveHeld (c : Nat) (x : CoreSt) (r w : List (Nat × Nat)) : Bool :=
  let r := lineKeys c x.stageMap r
  let w := lineKeys c x.stageMap w
  meets (r ++ w) (mqLines c x) || meets w (tqReadLines c x ++ vqReadLines c x)

/-- As `moveHeld`, waiting also for the lines that a tcvt has yet to write (R150). -/
def memBusy (c : Nat) (x : CoreSt) (r w : List (Nat × Nat)) : Bool :=
  moveHeld c x r w || meets (lineKeys c x.stageMap r ++ lineKeys c x.stageMap w) (tqWriteLines c x)

/-- A tensor or vector instruction that reads and writes these ranges must wait (R150, R511). -/
def unitBusy (c : Nat) (x : CoreSt) (r w : List (Nat × Nat)) : Bool :=
  let r := lineKeys c x.stageMap r
  let w := lineKeys c x.stageMap w
  meets (r ++ w) (mqWriteLines c x ++ tqWriteLines c x) || meets w (vqReadLines c x ++ mqReadLines c x)

/-! ## Register tracking (R84, R158) -/

/-- The accumulators a vector instruction reads. -/
def vAccReads (op : VOp) (x : VFields) : List Nat :=
  match op with
  | .vsmax | .vnsum | .vnapply => [x.ta.val, x.ta.val + 1]
  | .vrscale => if x.p then [x.ta.val, x.ta.val + 1] else [x.ta.val]
  | .vrowk => [x.ta.val]
  | _ => []

/-- The accumulators a vector instruction writes. -/
def vAccWrites (op : VOp) (x : VFields) : List Nat :=
  match op with
  | .vtdec | .vsmax | .vnapply => [x.ta.val, x.ta.val + 1]
  | .vrscale => if x.p then [x.ta.val, x.ta.val + 1] else [x.ta.val]
  | _ => []

/-- The vector registers a vector instruction writes. -/
def vRegWrites (op : VOp) (x : VFields) : List VReg :=
  match op with
  | .vsmax => [x.vd, x.vc]
  | op => if (vUse op).vd then [x.vd] else []

/-- The accumulators a tensor instruction writes. -/
def tAccWrites : Octix → List Nat
  | .tmma x => [x.t.val]
  | .tzero t | .tbias t _ => [t.val]
  | _ => []

/-- The accumulators a tensor instruction reads to convert them. -/
def tAccReads : Octix → List Nat
  | .tcvt x => if x.p then [x.t.val, x.t.val + 1] else [x.t.val]
  | _ => []

/-- Scalar registers that a load has yet to write. -/
def pendS (x : CoreSt) : List SReg := x.loads.map (·.d)

/-- Vector registers that issued work has yet to write. -/
def pendV (x : CoreSt) : List VReg :=
  x.vq.flatMap (fun q => vRegWrites q.op q.x)
    ++ x.mq.flatMap (fun q => match q.kind with | .vld d => [d] | _ => [])

/-- A scalar or vector register that an instruction reads or writes is not yet available (R84). -/
def regBusy (x : CoreSt) (ss : List SReg) (vs : List VReg) : Bool :=
  ss.any (fun r => r ≠ 0 && (pendS x).contains r) || vs.any (fun r => (pendV x).contains r)

/-- Accumulators that tld, or tst, in the move queue names. -/
def tldAccs (x : CoreSt) : List Nat := x.mq.flatMap (fun q => match q.kind with | .tld d => [d.val] | _ => [])
def tstAccs (x : CoreSt) : List Nat := x.mq.flatMap (fun q => match q.kind with | .tst d => [d.val] | _ => [])
def tqAccWrites (x : CoreSt) : List Nat := x.tq.flatMap (fun q => tAccWrites q.op)
def tqAccReads (x : CoreSt) : List Nat := x.tq.flatMap (fun q => tAccReads q.op)
def vqAccWrites (x : CoreSt) : List Nat := x.vq.flatMap (fun q => vAccWrites q.op q.x)
def vqAccReads (x : CoreSt) : List Nat := x.vq.flatMap (fun q => vAccReads q.op q.x)

/-- A vector or move instruction that reads accumulators waits for their writers (R84, R158). -/
def accReadBusy (x : CoreSt) (ts : List Nat) : Bool := meets ts (tqAccWrites x ++ tldAccs x ++ vqAccWrites x)

/-- An instruction that writes accumulators waits for their readers (R84); a tensor instruction does not wait for a tcvt
ahead of it (R149). -/
def accWriteBusy (x : CoreSt) (tensor : Bool) (ts : List Nat) : Bool :=
  meets ts (vqAccReads x ++ tstAccs x ++ (if tensor then [] else tqAccReads x))

/-- The units idle of R94. -/
def unitsIdle (x : CoreSt) : Bool := x.tq.isEmpty && x.vq.isEmpty

/-- The fence condition of R120: every copy, vst and tst written and every pushed unit landed. -/
def fenceMet (m : Mod) (c : Nat) (x : CoreSt) : Bool :=
  x.mq.all (fun q => match q.kind with | .vld _ | .tld _ => true | _ => false)
    && m.cores.all (fun e => e.2.haloIn.all (fun u => u.sender != c))

/-! ## Stall and idle counters (R70, R94) -/

/-- Why issue stalls: a dependency, which counts in CORE_DEP_STALL; scalar registers that are not yet available (R82, R84); a cause of none
of Table 3.8c, which counts there while the units are idle; or an idle cause (its index in the order of Table 3.3). -/
inductive Stall where
  | dep
  | regs (ss : List SReg)
  | unit
  | idle (i : Nat)
  deriving DecidableEq, Repr

/-- A load waits for its cluster-store bank: the core has a request waiting at the bank's arbiter (R92, R112, Table 10.1). -/
def loadWaits (m : Mod) (c : Nat) (l : LoadOp) : Bool := arbWaits m (arbKeyStore (clusterOf c) l.bank) (c % 16)

/-- One of the scalar registers is the destination of a load that waits for its bank. -/
def bankWait (m : Mod) (c : Nat) (ss : List SReg) : Bool :=
  (coreAt m c).loads.any (fun l => ss.contains l.d && loadWaits m c l)

/-- Adds to CORE_DEP_STALL. -/
def addDep (x : CoreSt) : CoreSt := { x with depStall := BitVec.ofNat 48 (satAdd 48 x.depStall.toNat 1) }

/-- Adds `n` to an idle counter of a core, and to its partition's sum (R261). -/
def addIdle (m : Mod) (c i n : Nat) : Mod :=
  let x := coreAt m c
  let v := sget (fun _ => 0) x.idle i
  let w : BitVec 48 := BitVec.ofNat 48 (satAdd 48 v.toNat n)
  let m := setCore m c { x with idle := sset (fun _ => 0) x.idle i w }
  match partOfCluster m (clusterOf c) with
  | some p => satReg m (rPstall p i) 48 (w.toNat - v.toNat)
  | none => m

/-- Counts one stalled or waiting cycle (R82, R94): while no unit executes, an idle cause counts in its register, and a wait for the
bank of a load's cluster store in IDLE_SLOT. In a cluster the screen test holds, every cycle with an idle cause, and one without any of
Table 3.8c, counts IDLE_SCREEN (R441). -/
def countStall (m : Mod) (c : Nat) (k : Stall) : Mod :=
  let x := coreAt m c
  let idle := unitsIdle x
  let held := (clAt m (clusterOf c)).screenHeld
  match k with
  | .dep => setCore m c (addDep x)
  | .regs ss => if idle && bankWait m c ss then addIdle m c (if held then 8 else 10) 1 else setCore m c (addDep x)
  | .unit => if !idle then m else if held then addIdle m c 8 1 else setCore m c (addDep x)
  | .idle i => if idle then addIdle m c (if held then 8 else i) 1 else m

/-- The idle cause a channel gives a core that waits on it (Table 3.8c, R230, R359). -/
def channelCause (m : Mod) (k ch : Nat) : Stall :=
  if chState m k ch = 4 then .idle 11
  else if m.ingest.contains (16 * k + ch) then .idle 4
  else match (chanAt m k ch).active with
    | none => .unit
    | some d => .idle (match bits (d.words.getD 6 0) 54 52 with | 0 => 2 | 1 => 3 | 2 => 0 | 3 => 4 | _ => 1)

/-- The idle cause of a Waiting core (R124, R128, R131, R132). -/
def waitCause (m : Mod) (c : Nat) : Wait → Stall
  | .clap _ | .clapThen _ => .idle 5
  | .credit ch _ => if ch.val = 16 then .idle 5 else channelCause m (clusterOf c) ch.val
  | .event sc ev _ => if sc = .part ∧ 48 ≤ ev.val then .idle 6 else .idle 5
  | .verdict _ => .idle 9

/-! ## Fetch, faults, issue -/

/-- The word at a word index of a core's instruction store. -/
def fetchWord (m : Mod) (c pc : Nat) : W64 := BitVec.ofNat 64 (leNat (readList m.imem (c * 0x4000 + 8 * pc) 8))

/-- The word at a word index of the instruction store holds an uncorrectable error (Table 16.3). -/
def fetchBad (m : Mod) (c pc : Nat) : Bool := eccBad m 1 (c * 0x4000 + 8 * pc)

/-- The back-edge of R86 at the word that has issued: the loop levels left and the next word. -/
def backEdge (pc : Nat) : List LoopLevel → List LoopLevel × Nat
  | [] => ([], pc + 1)
  | l :: rest =>
    if l.last = pc then
      (if l.cnt.toNat + 1 < l.ext.toNat then ({ l with cnt := l.cnt + 1 } :: rest, l.start) else backEdge pc rest)
    else (l :: rest, pc + 1)

/-- The loop levels a taken branch to `t` keeps (R86, R133). -/
def leaveLoops (t : Nat) : List LoopLevel → List LoopLevel
  | [] => []
  | l :: rest => if l.start ≤ t ∧ t ≤ l.last then l :: rest else leaveLoops t rest

/-- The core after the word at its pc has issued and does not branch. -/
def advance (x : CoreSt) : CoreSt :=
  let (ls, pc) := backEdge x.pc.toNat x.loops
  { x with loops := ls, pc := BitVec.ofNat 16 pc, nIssued := x.nIssued + 1 }

/-- An error met by core `c` in data of its partition is contained (R437); `store` is a code of Table 16.5a. -/
def eccContain (m : Mod) (c store addr : Nat) : Mod :=
  match partOfCluster m (clusterOf c) with
  | some p => contained m p (c / 10000) (some store) (clusterOf c % 625) (c % 16) addr (clAt m (clusterOf c)).lent.isSome
  | none => m

/-- A core fault (R95): the code, word index and address are recorded, the core enters Faulted and reports it to its
context's event ring, and the failure counts for the take (R286), but not for a cluster lent to a filler (R311). The word-index field
has 11 bits, and the word 2,048 of a fetch overrun does not fit it: the field then holds 0, the low 11 bits (DESIGN CHOICE, log 35). -/
def coreFault (m : Mod) (c code pc addr : Nat) : Mod :=
  let x := coreAt m c
  let f : W32 := BitVec.ofNat 32 (code + pc % 2048 * 256)
  let m := setCore m c { x with state := .faulted, fault := f, faultAddr := BitVec.ofNat 64 addr, wait := none
                                halting := none, reported := false, wakeDone := false }
  let ctx := bits x.ctxReg 27 16
  let m := sendEvent m (some ctx) (eventEntry 1 0x12 16 ctx (bits x.ctxReg 3 0) m.hclk
    (leBytes 4 c ++ leBytes 4 f.toNat ++ leBytes 8 addr))
  let m := coreStopped m c (some code) 0
  if (clAt m (clusterOf c)).lent.isSome then m
  else match partOfCluster m (clusterOf c) with
    | some p => noteFailure m p 1
    | none => m

/-- What an instruction at issue does. -/
inductive Act where
  | stall (k : Stall)
  | fault (code addr : Nat)
  | next (m : Mod)
  | branch (m : Mod) (t : Nat)
  | skip (m : Mod) (t : Nat)
  | wait (m : Mod) (w : Wait)
  | halt (code : W16)

/-- Applies what an instruction at issue does to the core's pc, loops and state. -/
def applyAct (c : Nat) (m : Mod) : Act → Mod
  | .stall k => countStall m c k
  | .fault code addr => coreFault m c code (coreAt m c).pc.toNat addr
  | .next m' => setCore m' c (advance (coreAt m' c))
  | .branch m' t =>
    let x := coreAt m' c
    setCore m' c { x with loops := leaveLoops t x.loops, pc := BitVec.ofNat 16 t, nIssued := x.nIssued + 1 }
  | .skip m' t =>
    let x := coreAt m' c
    setCore m' c { x with pc := BitVec.ofNat 16 t, nIssued := x.nIssued + 1 }
  | .wait m' w => setCore m' c { coreAt m' c with state := .waiting, wait := some w }
  | .halt code => setCore m c { coreAt m c with halting := some code }

/-- The core may issue: Running, with its cluster's clock running, not halting and not being scrubbed (R63, R79, R410). -/
def mayIssue (m : Mod) (c : Nat) : Bool :=
  let x := coreAt m c
  x.state == .running && clRolling m (clusterOf c) && x.halting.isNone && !x.scrubbing

/-- Moves on to the next free value. -/
def bumpFree (m : Mod) : Mod := { m with free := m.free + 1 }

/-- CORE_CYCLE counts a cycle (R70), and the free values move on. -/
def tick (m : Mod) (c : Nat) : Mod :=
  let x := coreAt m c
  setCore (bumpFree m) c { x with cycle := BitVec.ofNat 64 (satAdd 64 x.cycle.toNat 1) }

/-- The guard of a word reads 0 (R66). -/
def guardFails (x : CoreSt) (w : W64) : Bool := match guardOf w with | some p => !rp x p | none => false

/-- One issue cycle of a core for the rows whose decoded instruction `eff` takes: a word whose guard fails occupies the
cycle and has no other effect (R66); a Waiting core counts the cycle (R94); a core that cannot issue does nothing. A fetch that meets an
uncorrectable error raises fault 0x09 with the word index, whatever instruction the row names (R95, R436). -/
def issue (c : Nat) (eff : Octix → Option (Mod → Act)) (m : Mod) : Mod :=
  let x := coreAt m c
  if 2047 < x.pc.toNat then m else
  if fetchBad m c x.pc.toNat then (if mayIssue m c then coreFault (tick m c) c 0x09 x.pc.toNat x.pc.toNat else m) else
  let w := fetchWord m c x.pc.toNat
  match (decodeOctix w).bind eff with
  | none => m
  | some f =>
    if mayIssue m c then
      let m := tick m c
      if guardFails x w then applyAct c m (.next m) else applyAct c m (f m)
    else match x.wait with
      | some k => if clRolling m (clusterOf c) then countStall (tick m c) c (waitCause m c k) else m
      | none => m

/-- An instruction that only changes the core. -/
def coreAct (c : Nat) (f : CoreSt → CoreSt) (m : Mod) : Act := .next (setCore m c (f (coreAt m c)))

/-- As `coreAct`, waiting first for the registers the instruction names (R84). -/
def regAct (c : Nat) (ss : List SReg) (vs : List VReg) (f : CoreSt → CoreSt) (m : Mod) : Act :=
  if regBusy (coreAt m c) ss vs then .stall (.regs ss) else coreAct c f m

/-- A Waiting core's wait completes: the core changes by `f`, moves past the waiting instruction and is Running. While its
cluster is below Rolling the wait completes when the cluster reaches Rolling (R419). -/
def endWait (m : Mod) (c : Nat) (f : CoreSt → CoreSt) : Mod :=
  setCore m c (advance (f { coreAt m c with state := .running, wait := none, wakeDone := false }))

/-- A credit counter of a core has risen: a credit wait on it that is met completes and subtracts its count (R131). -/
def creditWake (m : Mod) (c : Nat) : Mod :=
  let x := coreAt m c
  match x.wait with
  | some (.credit ch n) =>
    if n.toNat ≤ credit x ch.val ∧ clRolling m (clusterOf c) then
      endWait m c (fun x => setCredit x ch.val (credit x ch.val - n.toNat)) else m
  | _ => m

end Sys2Proof.Machine
end

