-- ==== Sys2Proof/Machine/Sync.lean ====
section
/-!
DEFINITION. The sync instructions and their events (04_octix_isa.md R121 to R132).
-/
namespace Sys2Proof.Machine

/-- The key of a clapper: of a core's cluster, bay or partition (R122); none for a core of no partition. -/
def clapKey (m : Mod) (c : Nat) (scope id : Nat) : Option Nat :=
  let k := clusterOf c
  match scope with
  | 0 => some (8 * k + id)
  | 1 => some (40000 + 8 * bayOf k + id)
  | _ => (partOfCluster m k).map (fun p => 40320 + 16 * p + id)

/-- The scope of a clapper by its key, and its number in the scope. -/
def clapScope (key : Nat) : Nat × Nat :=
  if key < 40000 then (0, key % 8) else if key < 40320 then (1, key % 8) else (2, (key - 40320) % 16)

/-- The largest count of a clapper (Table 4.9). -/
def clapMax (m : Mod) (key : Nat) : Nat :=
  if key < 40000 then 16 else if key < 40320 then 2000 else 16 * (clustersOfPart m ((key - 40320) / 16)).length

/-- A clapper. -/
def clapAt (m : Mod) (key : Nat) : Clapper := sget (fun _ => ⟨false, 0, 0⟩) m.claps key

/-- Sets a clapper. -/
def setClap (m : Mod) (key : Nat) (v : Clapper) : Mod := { m with claps := sset (fun _ => ⟨false, 0, 0⟩) m.claps key v }

/-- A core's pending arrival on a clapper (R123). -/
def pendingArrival (m : Mod) (c key : Nat) : Option Arrival :=
  m.arrivals.find? (fun a => a.core == c && a.key == key)

/-- arrive of R123: after the fence, a core with a pending arrival waits for its release and starts again; otherwise the
arrival is sent with its count, limited to the scope's range. -/
def arrive (c key : Nat) (n : W32) (m : Mod) (sent : Mod → Act) : Act :=
  if !fenceMet m c (coreAt m c) then .stall .dep
  else if (pendingArrival m c key).isSome then .wait m (.clapThen key)
  else
    let count := max 1 (min n.toNat (clapMax m key))
    sent { m with arrivals := m.arrivals ++ [⟨c, key, some (BitVec.ofNat 32 count), false⟩] }

/-- The clapper instructions at issue (Table 4.10). -/
def clapAct (c : Nat) (op : ClapOp) (scope id : Nat) (n : SReg) (m : Mod) : Act :=
  let x := coreAt m c
  if regBusy x [n] [] then .stall (.regs [n]) else
  match clapKey m c scope id with
  | none => .next m
  | some key =>
    match op with
    | .both => arrive c key (rs32 x n) m (fun m => .wait m (.clap key))
    | .arrive => arrive c key (rs32 x n) m (fun m => .next m)
    | .wait => if (pendingArrival m c key).isSome then .wait m (.clap key) else .next m

/-- The clapper rows. -/
def clapRow (c : Nat) (op : ClapOp) : Mod → Mod :=
  issue c (fun o => match o with
    | .clap op' scope id n => if op' = op then some (clapAct c op scope.val id.val n) else none
    | _ => none)

/-- An arrival reaches the clapper and is counted (R123): the first of a generation sets the count, a different count raises
a warning, and the last releases every pending arrival of the generation. -/
def countArrival (m : Mod) (c key : Nat) (n : W32) : Mod :=
  let k := clapAt m key
  let (scope, id) := clapScope key
  let m := { m with arrivals := m.arrivals.map (fun a => if a.core = c ∧ a.key = key then { a with count := none } else a) }
  let m :=
    if k.expect ≠ 0 ∧ k.expect ≠ n then
      raise m (telemEv (c / 10000) 2 0x01 .warning ([BitVec.ofNat 8 scope, BitVec.ofNat 8 id, 0, 0] ++ leBytes 4 c
        ++ leBytes 4 n.toNat ++ leBytes 4 k.expect.toNat))
    else m
  let expect := if k.expect = 0 then n else k.expect
  if k.arrived + 1 = expect then
    let m := setClap m key ⟨!k.gen, 0, 0⟩
    { m with arrivals := m.arrivals.map (fun a => if a.key = key ∧ a.count.isNone then { a with released := true } else a) }
  else setClap m key ⟨k.gen, k.arrived + 1, expect⟩

/-- An arrival of a core that is on its way reaches its clapper. -/
def clapArrival (c : Nat) (scope id : Nat) (m : Mod) : Mod :=
  match clapKey m c scope id with
  | none => m
  | some key => match pendingArrival m c key with
    | some ⟨_, _, some n, _⟩ => countArrival m c key n
    | _ => m

/-- A core's wait has ended: at once while its clock runs, else when its cluster reaches Rolling (R419). -/
def finishWait (m : Mod) (c : Nat) (f : CoreSt → CoreSt) : Mod :=
  if clRolling m (clusterOf c) then endWait m c f
  else setCore m c { f (coreAt m c) with wakeDone := true }

/-- A release reaches a core (R124): its pending arrival ends, and a waiting clap or clap.w completes; a core that waited to
arrive again starts its instruction again. A release that reaches a Waiting core wakes its cluster (R412). -/
def releaseReach (c : Nat) (scope id : Nat) (m : Mod) : Mod :=
  match clapKey m c scope id with
  | none => m
  | some key => match pendingArrival m c key with
    | some a =>
      if !a.released then m else
      let m := { m with arrivals := m.arrivals.erase a }
      match (coreAt m c).wait with
      | some (.clap k) => if k = key then finishWait (wake m (clusterOf c)) c id' else m
      | some (.clapThen k) =>
        if k = key then
          let m := wake m (clusterOf c)
          setCore m c { coreAt m c with state := .running, wait := none }
        else m
      | _ => m
    | none => m
where
  /-- The core itself changes in no other way. -/
  id' (x : CoreSt) : CoreSt := x

/-! ## Events (R126 to R128) -/

/-- The key of an event store: a cluster, or a partition. -/
def evKey (m : Mod) (c : Nat) : EvScope → Option Nat
  | .cluster => some (clusterOf c)
  | .part => (partOfCluster m (clusterOf c)).map (5000 + ·)

/-- A flag. -/
def evFlag (m : Mod) (key ev : Nat) : Bool := bit (sget (fun _ => 0) m.evFlags key) ev

/-- Writes a flag. -/
def putFlag (m : Mod) (key ev : Nat) (v : Bool) : Mod :=
  { m with evFlags := sset (fun _ => 0) m.evFlags key (put (sget (fun _ => 0) m.evFlags key) ev ev (b2n v)) }

/-- A core waits on an event of a store. -/
def waitsOn (m : Mod) (key ev : Nat) (c : Nat) (x : CoreSt) : Bool :=
  match x.wait with
  | some (.event sc n _) => decide (n.val = ev) && evKey m c sc == some key
  | _ => false

/-- A set reaches the event store: the flag is 1, and the set is on its way to every core that waits on it (R127). -/
def setFlag (m : Mod) (key ev : Nat) : Mod :=
  let m := putFlag m key ev true
  let seen (e : Nat × CoreSt) : Nat × CoreSt :=
    match e.2.wait with
    | some (.event sc n _) => if waitsOn m key ev e.1 e.2 then (e.1, { e.2 with wait := some (.event sc n true) }) else e
    | _ => e
  { m with cores := m.cores.map seen }

/-- A core's ev.set, ev.clr or ev.wait at issue; sets and clears of host events are discarded (R127, R128). -/
def evAct (c : Nat) (op : EvOp) (sc : EvScope) (ev : Fin 64) (m : Mod) : Act :=
  match evKey m c sc with
  | none => .next m
  | some key =>
    let host := decide (sc = .part) && decide (48 ≤ ev.val)
    match op with
    | .wait => if evFlag m key ev.val then .next m else .wait m (.event sc ev false)
    | .set =>
      if !fenceMet m c (coreAt m c) then .stall .dep
      else if host then .next m
      else
        let m := setFlag m key ev.val
        .next (if sc = .part then countSet m (key - 5000) ev.val else m)
    | .clr =>
      if !fenceMet m c (coreAt m c) then .stall .dep
      else if host then .next m else .next (putFlag m key ev.val false)

/-- The event rows. -/
def evRow (c : Nat) (op : EvOp) : Mod → Mod :=
  issue c (fun o => match o with
    | .ev op' sc ev => if op' = op then some (evAct c op sc ev) else none
    | _ => none)

/-- ev.test. -/
def evTestRow (c : Nat) : Mod → Mod :=
  issue c (fun o => match o with
    | .evTest pd sc ev => some (fun m =>
        match evKey m c sc with
        | some key => coreAct c (fun x => setP x pd (evFlag m key ev.val)) m
        | none => .next m)
    | _ => none)

/-- A flag change that is on its way reaches a core and completes its ev.wait (R127); it wakes the core's cluster (R412). -/
def flagReach (c : Nat) (m : Mod) : Mod :=
  match (coreAt m c).wait with
  | some (.event _ _ true) =>
    if (coreAt m c).wakeDone then m else finishWait (wake m (clusterOf c)) c (fun x => x)
  | _ => m

/-! ## Credit and verdict waits (R130 to R132) -/

/-- A credit wait at issue. -/
def creditAct (c : Nat) (ch : SReg) (n : W32) (m : Mod) : Act :=
  let x := coreAt m c
  if n = 0 then .next m
  else if n.toNat ≤ credit x ch.val then coreAct c (fun x => setCredit x ch.val (credit x ch.val - n.toNat)) m
  else .wait m (.credit ch n)

/-- wait.cr. -/
def waitCrRow (c : Nat) : Mod → Mod :=
  issue c (fun o => match o with
    | .waitCr ch imm => some (creditAct c ch (BitVec.ofNat 32 imm.toNat))
    | _ => none)

/-- wait.crr. -/
def waitCrrRow (c : Nat) : Mod → Mod :=
  issue c (fun o => match o with
    | .waitCrr ch n => some (fun m =>
        if regBusy (coreAt m c) [n] [] then .stall (.regs [n]) else creditAct c ch (rs32 (coreAt m c) n) m)
    | _ => none)

/-- wait.vd: 1 for finite, 0 for non-finite or failed (R132, R288). -/
def waitVdRow (c : Nat) : Mod → Mod :=
  issue c (fun o => match o with
    | .waitVd pd => some (fun m =>
        match (partOfCluster m (clusterOf c)).bind (fun p => verdictFor m p (coreAt m c).slate) with
        | some fin => coreAct c (fun x => setP x pd fin) m
        | none => .wait m (.verdict pd))
    | _ => none)

/-- The scope code of Table 4.9. -/
def scopeCode : Scope → Nat
  | .cluster => 0 | .bay => 1 | .part => 2

/-! ## The rows -/

/-- Arrives at a clapper and waits for the release (R123). -/
def execClap (c : Core) (s : State) : Host.Outcome State Fault Refusal :=
  .next (s.onMod (clapRow c.val .both))

/-- Arrives at a clapper (R123). -/
def execClapA (c : Core) (s : State) : Host.Outcome State Fault Refusal :=
  .next (s.onMod (clapRow c.val .arrive))

/-- Waits for the release of a pending arrival (R123). -/
def execClapW (c : Core) (s : State) : Host.Outcome State Fault Refusal :=
  .next (s.onMod (clapRow c.val .wait))

/-- An arrival reaches its clapper (R123). -/
def execClapArrival (c : Core) (scope : Scope) (id : Fin 16) (s : State) : Host.Outcome State Fault Refusal :=
  .next (s.onMod (clapArrival c.val (scopeCode scope) id.val))

/-- A release reaches a core (R124). -/
def execClapReleaseReach (c : Core) (scope : Scope) (id : Fin 16) (s : State) : Host.Outcome State Fault Refusal :=
  .next (s.onMod (releaseReach c.val (scopeCode scope) id.val))

/-- Sets an event flag (R127). -/
def execEvSet (c : Core) (s : State) : Host.Outcome State Fault Refusal :=
  .next (s.onMod (evRow c.val .set))

/-- Clears an event flag (R127). -/
def execEvClr (c : Core) (s : State) : Host.Outcome State Fault Refusal :=
  .next (s.onMod (evRow c.val .clr))

/-- Waits for an event flag (R127). -/
def execEvWait (c : Core) (s : State) : Host.Outcome State Fault Refusal :=
  .next (s.onMod (evRow c.val .wait))

/-- Reads an event flag (R127). -/
def execEvTest (c : Core) (s : State) : Host.Outcome State Fault Refusal :=
  .next (s.onMod (evTestRow c.val))

/-- A flag change reaches a core (R127). -/
def execEvFlagReach (c : Core) (s : State) : Host.Outcome State Fault Refusal :=
  .next (s.onMod (flagReach c.val))

/-- Credit wait with an immediate count (R131). -/
def execWaitCr (c : Core) (s : State) : Host.Outcome State Fault Refusal :=
  .next (s.onMod (waitCrRow c.val))

/-- Credit wait with a count in a register (R131). -/
def execWaitCrr (c : Core) (s : State) : Host.Outcome State Fault Refusal :=
  .next (s.onMod (waitCrrRow c.val))

/-- Verdict wait (R132). -/
def execWaitVd (c : Core) (s : State) : Host.Outcome State Fault Refusal :=
  .next (s.onMod (waitVdRow c.val))

end Sys2Proof.Machine
end

