-- ==== Sys2Proof/Machine/Dolly.lean ====
section
/-!
DEFINITION. The dolly of a cluster (08_dolly_transfers.md R198 to R231): descriptors, rows, bursts, delivery, faults, errors,
stop and disable, and the dolly instructions. A granted burst moves its bytes at once, and its responses have come by the
dolly's next decision or the channel's next event: transfer times are out of scope (log 15).
-/
namespace Sys2Proof.Machine

/-! ## Descriptor fields (Table 8.2) -/

/-- Field [hi:lo] of word `i` of a descriptor. -/
def dfld (d : QDesc) (i hi lo : Nat) : Nat := bits (d.words.getD i 0) hi lo

def dSrcSpace (d : QDesc) : Nat := dfld d 6 2 0
def dDstSpace (d : QDesc) : Nat := dfld d 6 5 3
def dSrcCore (d : QDesc) : Nat := dfld d 6 9 6
def dDstMask (d : QDesc) : Nat := dfld d 6 35 20
def dCredMask (d : QDesc) : Nat := dfld d 6 51 36
def dFence (d : QDesc) : Bool := dfld d 6 55 55 == 1
def dIdx (d : QDesc) : Bool := dfld d 6 56 56 == 1
def dGate (d : QDesc) : Bool := dfld d 6 57 57 == 1
def dTap (d : QDesc) : Bool := dfld d 6 58 58 == 1
def dEv (d : QDesc) : Bool := dfld d 6 59 59 == 1
def dReel (d : QDesc) : Nat := dfld d 6 63 60
def dSeg (d : QDesc) : Nat := dfld d 7 31 0
def dIdxDst (d : QDesc) : Bool := dfld d 7 53 53 == 1

/-- Extent of dimension `i` (1 to 3). -/
def dExt (d : QDesc) (i : Nat) : Nat := dfld d 2 (16 * i + 15) (16 * i) + 1

/-- Source and destination strides of dimension `i`, signed. -/
def dSs (d : QDesc) (i : Nat) : Int := toSigned 32 (dfld d (2 + i) 31 0)
def dDs (d : QDesc) (i : Nat) : Int := toSigned 32 (dfld d (2 + i) 63 32)

/-- Rows, and granules of a row. -/
def dRows (d : QDesc) : Nat := dExt d 1 * dExt d 2 * dExt d 3
def dLen (d : QDesc) : Nat := dfld d 2 15 0 + 1

/-- place(base, off, k) of R204, as a 64-bit address. -/
def dPlace (base : Nat) (off : Int) (k : Nat) : Nat :=
  if k = 0 then (((base : Int) + off) % (2 ^ 64 : Nat)).toNat
  else (base + (off % (2 ^ k : Nat)).toNat) % 2 ^ 64

/-- The source address of granule `g` of row `r`, with its index entry (R204). -/
def dSrcAddr (d : QDesc) (r g : Nat) (idx : W32) : Nat :=
  let i1 := r % dExt d 1
  let i2 := r / dExt d 1 % dExt d 2
  let i3 := r / (dExt d 1 * dExt d 2)
  let so := if dIdx d && !dIdxDst d then (idx.toNat : Int) * dSs d 1 else i1 * dSs d 1 + i2 * dSs d 2 + i3 * dSs d 3
  dPlace (d.words.getD 0 0).toNat (so + 16 * (g : Int)) (dfld d 6 14 10)

/-- The destination address of granule `g` of row `r`. -/
def dDstAddr (d : QDesc) (r g : Nat) (idx : W32) : Nat :=
  let i1 := r % dExt d 1
  let i2 := r / dExt d 1 % dExt d 2
  let i3 := r / (dExt d 1 * dExt d 2)
  let o := if dIdx d && dIdxDst d then (idx.toNat : Int) * dDs d 1 else i1 * dDs d 1 + i2 * dDs d 2 + i3 * dDs d 3
  dPlace (d.words.getD 1 0).toNat (o + 16 * (g : Int)) (dfld d 6 19 15)

/-- The context that translates space-3 addresses of a channel. -/
def chCtx (m : Mod) (k ch : Nat) : Nat := fld m (rChCtl k ch) 27 16

/-- A context of the cluster's partition that is Active (R203). -/
def ctxUsable (m : Mod) (k x : Nat) : Bool :=
  (ctxAt m x).active && (match partOfCluster m k with | some p => p == (ctxAt m x).part.val | none => false)

/-- The check of R203: 0, or the error code. Where conditions of several codes hold the rule names no order: 0x01, then 0x06, then
0x07 (DESIGN CHOICE, log 38). -/
def dCheck (m : Mod) (k ch : Nat) (d : QDesc) : Nat :=
  let sp := dSrcSpace d
  let dp := dDstSpace d
  let used := dGate d || dTap d
  let bad5 (i : Nat) : Bool := dfld d i 63 58 != 0 || dfld d i 51 32 != 0
  if [1, 4, 6, 7].contains sp || [4, 6, 7].contains dp
      || dfld d 7 63 54 != 0 || (sp != 0 && dSrcCore d != 0) || (decide (1 < dp) && dDstMask d != 0)
      || (!dIdx d && (dfld d 7 47 32 != 0 || dIdxDst d)) || (!used && (dSeg d != 0 || dReel d != 0))
      || (!dEv d && dfld d 7 52 48 != 0)
      || dfld d 0 3 0 != 0 || dfld d 1 3 0 != 0
      || [3, 4, 5].any (fun i => dfld d i 3 0 != 0 || dfld d i 35 32 != 0)
      || (decide (0 < dfld d 6 14 10) && decide (dfld d 6 14 10 < 6))
      || (decide (0 < dfld d 6 19 15) && decide (dfld d 6 19 15 < 6))
      || (dDstMask d == 0 && decide (dp < 2)) || (dCredMask d != 0 && dp != 0 && dp != 2)
      || decide (5 ≤ dfld d 6 54 52)
      || (dIdx d && (if dIdxDst d then decide (dDs d 2 ≠ 0 ∨ dDs d 3 ≠ 0) else decide (dSs d 2 ≠ 0 ∨ dSs d 3 ≠ 0)))
      || decide (2 ^ 32 ≤ dRows d) || (sp == 5 && bad5 0) || (dp == 5 && bad5 1) then 1
  else if used && !(fld m (rRlCtl (dReel d)) 0 0 == 1 && partOfCluster m k == some (fld m (rRlCtl (dReel d)) 7 4)) then 6
  else if (sp == 3 || dp == 3) && !ctxUsable m k (chCtx m k ch) then 7
  else 0

/-! ## Granules -/

/-- A space-3 address of a channel (R205, R221, R390). -/
def vaMeet (m : Mod) (k ch va : Nat) (write : Bool) : Meet := vaMeetAt m (chCtx m k ch) k va write

/-- The requesting cluster is draining: its requests, of any space, are refused with retry status (R413). -/
def ownDrain (m : Mod) (k : Nat) : Bool := clPhase m k == 1

/-- A stream belongs to the cluster's partition; an address of another's lies outside the channel's space 5 (R386, log 38). -/
def csOwn (m : Mod) (k i : Nat) : Bool := partOfCluster m k == some (csPart m i)

/-- A space-5 address has bits outside its fields (R335). -/
def csBadBits (a : Nat) : Bool := nbits a 63 58 != 0 || nbits a 51 32 != 0

/-- What a read of a granule meets. An uncorrectable error in it is code 4 (R222, R437). -/
def rdMeet (m : Mod) (k ch : Nat) (d : QDesc) (a : Nat) : Meet :=
  match dSrcSpace d with
  | 0 =>
    let c := 16 * k + dSrcCore d
    if lsTop ≤ a then .err 5 else if ownDrain m k then .retry
    else if (firstBad m c (coreAt m c).stageMap a 16).isSome then .err 4 else .ok a
  | 2 =>
    if 0x100000 ≤ a then .err 5 else if ownDrain m k then .retry
    else if (firstBad m (16 * k) false (coreCs + a) 16).isSome then .err 4 else .ok a
  | 5 =>
    let i := nbits a 57 52
    let off := nbits a 31 0
    let own := csRange m i 3
    if csBadBits a then .err 1
    else if !csOwn m k i ∨ csOutBytes m i ≤ off
        ∨ (csKind m i = 1 ∧ (off < 32 * csOutSize m i * own.1 ∨ 32 * csOutSize m i * own.2 ≤ off)) then .err 5
    else if ownDrain m k then .retry
    else if (csStatus m i = 1 ∨ csStatus m i = 2 ∨ csStatus m i = 5) ∧ csLineFinal m i (off / 64) then .ok a else .wait
  | _ =>
    if ownDrain m k then .retry else
    match vaMeet m k ch a false with
    | .ok pa => if memBad m pa 16 then .err 4 else .ok pa
    | x => x

/-- The cores of a mask, ascending, by global number. -/
def maskCores (k mask : Nat) : List Nat := (coresOf k).filter (fun c => mask.testBit (c % 16))

/-- What a write of a granule meets. -/
def wrMeet (m : Mod) (k ch : Nat) (d : QDesc) (a : Nat) : Meet :=
  let scrub := (maskCores k (dDstMask d)).any (fun c => (coreAt m c).scrubbing)
  match dDstSpace d with
  | 0 => if lsTop ≤ a then .err 5 else if ownDrain m k || scrub then .retry else .ok a
  | 1 =>
    if 0x4000 ≤ a then .err 5
    else if ownDrain m k || scrub then .retry
    else if (maskCores k (dDstMask d)).any (fun c => decide ((coreAt m c).state ≠ .halted)) then .err 3 else .ok a
  | 2 => if 0x100000 ≤ a then .err 5 else if ownDrain m k then .retry else .ok a
  | 5 =>
    if csBadBits a then .err 1
    else if !csOwn m k (nbits a 57 52) ∨ csInBytes m (nbits a 57 52) ≤ nbits a 31 0 then .err 5
    else if ownDrain m k then .retry else .ok a
  | _ => if ownDrain m k then .retry else vaMeet m k ch a true

/-- What `n` granules in a row of addresses meet: the first that may not go on decides; else the first's address. -/
def meetAll (f : Nat → Meet) (a n : Nat) : Meet :=
  let l := (List.range n).map (fun j => f (a + 16 * j))
  match l.find? (fun x => match x with | .ok _ => false | _ => true) with
  | some x => x
  | none => l.headD .wait

/-- The data of a source granule: `a` its address in its space, `pa` what the request resolved to. -/
def granRead (m : Mod) (k : Nat) (d : QDesc) (a pa : Nat) : List Byte :=
  match dSrcSpace d with
  | 0 => let c := 16 * k + dSrcCore d; coreRead m c (coreAt m c).stageMap a 16
  | 2 => coreRead m (16 * k) false (coreCs + a) 16
  | 5 => let i := nbits a 57 52; vaBytes m (csCtx m i) (csRbuf m i + nbits a 31 0) 16
  | _ => memRead m pa 16

/-- Writes a destination granule; local stores map it at acceptance (R76). -/
def granWrite (m : Mod) (k : Nat) (d : QDesc) (a pa : Nat) (bs : List Byte) : Mod :=
  match dDstSpace d with
  | 0 => (maskCores k (dDstMask d)).foldl (fun m c => coreWrite m c (coreAt m c).stageMap a bs) m
  | 1 => (maskCores k (dDstMask d)).foldl (fun m c =>
      eccClear { m with imem := writeList m.imem (c * 0x4000 + a) bs } 1 (c * 0x4000 + a) bs.length) m
  | 2 => coreWrite m (16 * k) false (coreCs + a) bs
  | 5 =>
    let i := nbits a 57 52
    let off := nbits a 31 0
    let n := min bs.length (csInBytes m i - off)
    csCount (vaPuts m (csCtx m i) (csLbuf m i + off) (bs.take n)) i off n
  | _ => memWrite m pa bs

/-! ## The channel -/

/-- Sets DOLLY_CH_STAT.state. -/
def setChState (m : Mod) (k ch st : Nat) : Mod := setFld m (rChStat k ch) 31 28 st

/-- Requests of a channel now outstanding: lines whose responses are out, a refused request, and read-backs, as many as max_out
lets out at once (R213, R215). -/
def chOut (x : ChanSt) : Nat :=
  let n := x.flight + b2n x.refused
  n + (if x.awaiting then min x.backs.length (x.maxOut - n) else 0)

/-- Requests of a dolly now outstanding. -/
def dollyOut (m : Mod) (k : Nat) : Nat := ((List.range 16).map (fun ch => chOut (chanAt m k ch))).foldl (· + ·) 0

/-- Further line requests that the limits allow a channel (R213). -/
def chRoom (m : Mod) (k ch : Nat) : Nat :=
  min ((chanAt m k ch).maxOut - chOut (chanAt m k ch)) (128 - dollyOut m k)

/-- DOLLY_CH_STAT.queued and .outstanding and DOLLY_OUT follow the channel. -/
def chSync (m : Mod) (k ch : Nat) : Mod :=
  let x := chanAt m k ch
  let m := setFld (setFld m (rChStat k ch) 26 24 (x.queue.length + x.kept.length)) (rChStat k ch) 7 0 (chOut x)
  let n := dollyOut m k
  setFld (setFld m (rDollyOut k) 7 0 n) (rDollyOut k) 15 8 (max (fld m (rDollyOut k) 15 8) n)

/-- Updates a channel's hidden state. -/
def onChan (m : Mod) (k ch : Nat) (f : ChanSt → ChanSt) : Mod := chSync (setChan m k ch (f (chanAt m k ch))) k ch

/-- The descriptors of a channel's stream: the active one, then the queue (R209). -/
def chStream (x : ChanSt) : List QDesc := x.active.toList ++ x.queue

/-- Counts wasted bytes (R218, R224). -/
def chWaste (m : Mod) (k ch : Nat) (bufs : List RowBuf) : Mod :=
  satReg m (rChWaste k ch) 48 (16 * (bufs.map (fun b => b.data.length)).foldl (· + ·) 0)

/-- Abandoned descriptors count in DONE and ABANDON. -/
def chAbandon (m : Mod) (k ch n : Nat) : Mod := incReg (incReg m (rChDone k ch) n) (rChAbandon k ch) n

/-- A descriptor enters a channel's queue with its sequence number (R199, R229), which wakes the cluster (R412); none while
the queue is full. -/
def enqueue (m : Mod) (k ch : Nat) (words : List W64) : Option Mod :=
  let x := chanAt m k ch
  if 4 ≤ x.queue.length + x.kept.length then none else
  let d : QDesc := ⟨words, x.seqCount, false⟩
  let x := { x with seqCount := x.seqCount + 1 }
  let x := if chState m k ch = 5 then { x with kept := x.kept ++ [d] } else { x with queue := x.queue ++ [d] }
  some (wake (onChan m k ch (fun _ => x)) k)

/-- A launch finds the channel Off or Disabling (R229). -/
def launchRefused (m : Mod) (k ch : Nat) : Bool := chState m k ch == 0 || chState m k ch == 6

/-! ## What a storyboard engine awaits of the channels (09 R252, R257) -/

/-- A storyboard engine's progress. -/
def sbAt (m : Mod) (e : Nat) : SbSt := sget (fun _ => SbSt.reset) m.sbs e

/-- Sets a storyboard engine's progress. -/
def setSb (m : Mod) (e : Nat) (v : SbSt) : Mod := { m with sbs := sset (fun _ => SbSt.reset) m.sbs e v }

/-- MEM_SB_STAT.state: 0 Off, 1 Running, 2 Done, 3 Stopped, 4 Error, 5 Faulted. -/
def sbState (m : Mod) (e : Nat) : Nat := fld m (rSbStat e) 31 28

/-- Sets the state. -/
def setSbState (m : Mod) (e st : Nat) : Mod := setFld m (rSbStat e) 31 28 st

/-- A launched descriptor has been counted in DONE, or its channel no longer runs. -/
def descDone (m : Mod) (d : Nat × Nat × W32) : Bool :=
  let diff : W32 := BitVec.ofNat 32 (rd m (rChDone d.1 d.2.1)).toNat - d.2.2 - 1
  launchRefused m d.1 d.2.1 || decide (diff.toNat < 2 ^ 31)

/-- A dispatched entry is complete (R252). -/
def outDone (m : Mod) (o : SbOut) : Bool := !o.mover && o.granules == 0 && o.descs.all (descDone m)

/-- A run begins at entry 0 (R257). -/
def sbBegin (m : Mod) (e : Nat) : Mod :=
  let m := windowsEnd m e none
  setSb (wrN (wrN (wrN m (rSbCue e) 0) (rSbDisp e) 0) (rSbStat e) (2 ^ 28)) e { SbSt.reset with run := (sbAt m e).run + 1 }

/-- A stop ends once every dispatched entry is complete: the state is Stopped, or the start that followed the stop acts (R257). -/
def sbSettle (m : Mod) (e : Nat) : Mod :=
  let x := sbAt m e
  if !(x.stopping && sbState m e == 1 && x.sub == 0 && x.out.all (outDone m)) then m
  else if x.restart then sbBegin m e
  else windowsEnd (setSbState (setSb m e { x with stopping := false }) e 3) e none

/-- The engine of a cluster's partition takes note that a channel's counts have moved. -/
def sbFollow (m : Mod) (k : Nat) : Mod := match partOfCluster m k with | some e => sbSettle m e | none => m

/-- The engines' launched descriptors of a channel whose sequence numbers lose their meaning: `f` gives each its new number, or
drops one that counts as retired. -/
def sbDescs (m : Mod) (k ch : Nat) (f : W32 → Option W32) : Mod :=
  { m with sbs := m.sbs.map (fun e => (e.1, { e.2 with out := e.2.out.map (fun o => { o with descs := o.descs.filterMap (fun d =>
      if d.1 = k ∧ d.2.1 = ch then (f d.2.2).map (fun n => (k, ch, n)) else some d) }) })) }

/-- The gate of a descriptor is open: LANDED exceeds seg in the reel's current pass (R211). -/
def gateOpen (m : Mod) (d : QDesc) : Bool :=
  let r := dReel d
  (reelRuns m r || reelStatus m r == 2) && decide (dSeg d < fld m (rRlLanded r) 31 0)

/-- The event or error record of Table 14.9 of a channel. -/
def chRecord (m : Mod) (k ch : Nat) (d : QDesc) (row addr side kind : Nat) : List Byte :=
  let _ := m
  d.words.flatMap (fun w => leBytes 8 w.toNat) ++ leBytes 4 (k / 625 + k % 625 * 16 + ch * 2 ^ 14) ++ leBytes 4 d.seq.toNat
    ++ leBytes 4 row ++ leBytes 4 0 ++ leBytes 8 (addr % 2 ^ 57) ++ [BitVec.ofNat 8 side, BitVec.ofNat 8 kind]

/-- The failure of a channel counts for the take of its partition, but not in a cluster lent to a filler (R286, R311). -/
def chFailure (m : Mod) (k : Nat) : Mod :=
  if (clAt m k).lent.isSome then m else match partOfCluster m k with | some p => noteFailure m p 2 | none => m

/-- Writes to space 3 become visible, in the order in which they were made (R207). -/
def farApply (m : Mod) (l : List FarWrite) : Mod := l.foldl (fun m w => memWrite m w.addr w.data) m

/-- Writes to space 3 that may or may not have been performed (R218, R222, R225): a free value decides each. -/
def farSettle (m : Mod) (l : List FarWrite) : Mod :=
  l.foldl (fun m w => let (v, m) := drawFree m; if bit v 0 then memWrite m w.addr w.data else m) m

/-- The writes to space 3 of rows below `r` are made; those of `r` and later may have been performed in part (R218, R222). -/
def farCut (m : Mod) (l : List FarWrite) (r : Nat) : Mod :=
  farSettle (farApply m (l.filter (fun w => decide (w.row < r)))) (l.filter (fun w => decide (r ≤ w.row)))

/-- The active descriptor ends in Error at row `r` (R222): it and every queued one are abandoned. -/
def chFail (m : Mod) (k ch code r addr side : Nat) : Mod :=
  let x := chanAt m k ch
  match x.active with
  | none => m
  | some d =>
    let m := farCut (arbDropDolly m k ch (fun _ => true)) x.writes r
    let m := wrN (wrN m (rChFseq k ch) d.seq.toNat) (rChFrow k ch) r
    let m := setBit (setFld m (rChStat k ch) 23 16 code) (rChErr k ch) 2
    let m := chAbandon (chWaste m k ch x.bufs) k ch (1 + x.queue.length)
    let m := onChan m k ch (fun x => { x with active := none, queue := [], bufs := [], index := [], row := 0, rdDesc := 0
                                              rdRow := 0, rdGran := 0, wrRow := 0, wrGran := 0, issued := false
                                              awaiting := false, flight := 0, writes := [], backs := []
                                              credited := x.credited ||| dCredMask d, refused := false })
    let m := if chState m k ch = 5 then m else setChState m k ch 7
    let m := raise m (telemEv (k / 625) 1 1 .error (leBytes 2 (k % 625) ++ [BitVec.ofNat 8 ch, BitVec.ofNat 8 code]
      ++ leBytes 4 d.seq.toNat ++ leBytes 4 r))
    let cx := chCtx m k ch
    let m := if ctxUsable m k cx then
        sendEvent m (some cx) (eventEntry 1 0x13 90 cx (ctxAt m cx).part.val m.hclk (chRecord m k ch d r addr side code))
      else m
    chFailure (sbFollow m k) k

/-- The active descriptor completes (R215, R217): its writes to space 3 are visible, then DONE, the tap and the event; the
channel is Idle, or its stop goes on. -/
def chComplete (m : Mod) (k ch : Nat) : Mod :=
  let x := chanAt m k ch
  match x.active with
  | none => m
  | some d =>
    let m := incReg (farApply m x.writes) (rChDone k ch) 1
    let m := if dTap d then let r := reelAt m (dReel d); setReel m (dReel d) { r with tapMsgs := r.tapMsgs ++ [dSeg d] } else m
    let m := if dEv d then setFlag m k (dfld d 7 52 48) else m
    let ahead := decide (0 < x.rdDesc)
    let m := onChan m k ch (fun x =>
      { x with active := none, awaiting := false, writes := [], backs := [], row := 0, wrRow := 0, wrGran := 0
               rdDesc := x.rdDesc - 1, rdRow := if ahead then x.rdRow else 0, rdGran := if ahead then x.rdGran else 0
               issued := ahead
               bufs := (x.bufs.filter (fun b => decide (0 < b.desc))).map (fun b => { b with desc := b.desc - 1 })
               index := (x.index.filter (fun e => decide (2 ^ 33 ≤ e.1))).map (fun e => (e.1 - 2 ^ 33, e.2)) })
    sbFollow (if chState m k ch = 5 then m else setChState m k ch 1) k

/-- The lowest undelivered row is delivered (R207): each core of credit_mask takes one credit; after the last row the
descriptor completes, or awaits its read-backs if it wrote to space 3 (R215). -/
def chDeliver (m : Mod) (k ch : Nat) : Mod :=
  let x := chanAt m k ch
  match x.active with
  | none => m
  | some d =>
    let m := onChan m k ch (fun x => { x with row := x.row + 1, flight := 0, credited := x.credited ||| dCredMask d })
    let m := (maskCores k (dCredMask d)).foldl (fun m c => creditWake (setCore m c (addCredit (coreAt m c) ch)) c) m
    if x.row + 1 = dRows d then
      (if !x.backs.isEmpty then onChan m k ch (fun x => { x with awaiting := true }) else chComplete m k ch)
    else m

/-! ## Reads and writes -/

/-- An index entry as it was read ahead. -/
def idxHeld (x : ChanSt) (i r : Nat) : Option W32 := (x.index.find? (fun e => e.1 == 2 ^ 33 * i + r)).map (·.2)

/-- The entries of the 64-byte index line that serves row `r` of descriptor `i` of the stream (R206). -/
def idxLine (m : Mod) (k : Nat) (d : QDesc) (i r : Nat) : List (Nat × W32) :=
  let base := 16 * dfld d 7 47 32
  let line := (base + 4 * r) / 64
  (natsFrom r (16 - (base + 4 * r) % 64 / 4)).filterMap (fun q =>
    if (base + 4 * q) / 64 = line ∧ q < dRows d then
      some (2 ^ 33 * i + q, BitVec.ofNat 32 (leNat (coreRead m (16 * k) false (coreCs + base + 4 * q) 4))) else none)

/-- The index entry of a row that is held; 0 without an index stream. -/
def idxOf (m : Mod) (k ch i : Nat) (d : QDesc) (r : Nat) : Option W32 :=
  if !dIdx d then some 0 else idxHeld (chanAt m k ch) i r

/-- The read position normalised: past the last row of a descriptor it stands at the next one, if run-ahead passes into it:
fence, gate and the check of R203 hold it (R203, R209). -/
def rdPos (m : Mod) (k ch : Nat) : Option (Nat × Nat × Nat × QDesc) :=
  let x := chanAt m k ch
  let st := chStream x
  match st[x.rdDesc]? with
  | none => none
  | some d =>
    if x.rdRow < dRows d then some (x.rdDesc, x.rdRow, x.rdGran, d)
    else match st[x.rdDesc + 1]? with
      | some e => if dFence e || dGate e || dCheck m k ch e != 0 then none else some (x.rdDesc + 1, 0, 0, e)
      | none => none

/-- Rows of the stream from the lowest undelivered one to row `r` of descriptor `i` (R209). -/
def streamDist (x : ChanSt) (i r : Nat) : Nat :=
  (((chStream x).take i).map dRows).foldl (· + ·) 0 + r - x.row

/-- Granules of a row from `g` on, at address `a`, that one request carries: those that follow it in the same 64-byte line
(R213); `f` gives a granule's address. -/
def lineRun (f : Nat → Nat) (len a g : Nat) : Nat :=
  1 + ((List.range 3).takeWhile (fun j => decide (g + 1 + j < len) && f (g + 1 + j) == a + 16 * (j + 1)
    && (a + 16 * (j + 1)) / 64 == a / 64)).length

/-- A read request: the index line of row `row` of descriptor `desc` of the stream, at a cluster-store offset (R206), or `n`
granules of the row from `gran` on, at an address in the source space. -/
structure RdReq where
  desc : Nat
  row : Nat
  gran : Nat
  n : Nat
  d : QDesc
  addr : Nat
  index : Bool
  deriving DecidableEq, Repr

/-- The next read request and what it meets, while the lead allows it (R209). A row's index line goes before its data (R206). -/
def rdNext (m : Mod) (k ch : Nat) : Option (RdReq × Meet) :=
  let x := chanAt m k ch
  if x.active.isNone ∨ x.refused ∨ (chState m k ch ≠ 2 ∧ chState m k ch ≠ 5) then none else
  match rdPos m k ch with
  | none => none
  | some (i, r, g, d) =>
    if (chState m k ch = 5 ∧ 0 < i) ∨ x.lead ≤ streamDist x i r then none else
    match idxOf m k ch i d r with
    | none =>
      let e := 16 * dfld d 7 47 32 + 4 * r
      let line := e / 64 * 64
      some (⟨i, r, g, 0, d, line, true⟩,
        if 0x100000 ≤ e then .err 5 else if ownDrain m k then .retry
        else if (firstBad m (16 * k) false (coreCs + line) 64).isSome then .err 4 else .ok line)
    | some v =>
      let f (g : Nat) : Nat := dSrcAddr d r g v
      let a := f g
      let n := lineRun f (dLen d) a g
      some (⟨i, r, g, n, d, a, false⟩, meetAll (rdMeet m k ch d) a n)

/-- A write request of the active descriptor: granules of row `row` that share a line, at an address of the destination space,
and their data. -/
structure WrReq where
  row : Nat
  n : Nat
  d : QDesc
  addr : Nat
  data : List (List Byte)
  deriving DecidableEq, Repr

/-- The next write request and what it meets. A line is written only once every granule that the row has for it has been
read, so that a reader finds it wholly old or wholly new (R77). -/
def wrNext (m : Mod) (k ch : Nat) : Option (WrReq × Meet) :=
  let x := chanAt m k ch
  if x.refused ∨ (chState m k ch ≠ 2 ∧ chState m k ch ≠ 5) then none else
  match x.active with
  | none => none
  | some d =>
    match x.bufs.find? (fun b => b.desc == 0 && b.row == x.wrRow) with
    | none => none
    | some b =>
      let f (g : Nat) : Nat := dDstAddr d x.wrRow g ((idxHeld x 0 x.wrRow).getD 0)
      let a := f x.wrGran
      let n := lineRun f (dLen d) a x.wrGran
      let bs := (b.data.drop x.wrGran).take n
      if bs.length < n then none else some (⟨x.wrRow, n, d, a, bs⟩, meetAll (wrMeet m k ch d) a n)

/-- Adds granules to the data read for a row. -/
def bufAdd (i r : Nat) (bs : List (List Byte)) : List RowBuf → List RowBuf
  | [] => [⟨i, r, bs⟩]
  | b :: l => if b.desc = i ∧ b.row = r then { b with data := b.data ++ bs } :: l else b :: bufAdd i r bs l

/-- An index line is read: its entries are held for every row they serve (R206). -/
def idxStep (m : Mod) (k ch : Nat) (q : RdReq) : Mod :=
  let es := idxLine m k q.d q.desc q.row
  let m := satReg m (rDollyRbytes k) 48 64
  onChan m k ch (fun x => { x with index := x.index ++ es, flight := x.flight + 1, issued := x.issued || q.desc == 0
                                   rdDesc := q.desc, rdRow := q.row, rdGran := q.gran })

/-- A read request whose request may go on reads its granules. -/
def rdStep (m : Mod) (k ch : Nat) (q : RdReq) (pa : Nat) : Mod :=
  let bs := (List.range q.n).map (fun j => granRead m k q.d (q.addr + 16 * j) (pa + 16 * j))
  let m := satReg m (rDollyRbytes k) 48 (16 * q.n)
  let last := q.gran + q.n == dLen q.d
  onChan m k ch (fun x => { x with bufs := bufAdd q.desc q.row bs x.bufs, flight := x.flight + 1
                                   issued := x.issued || q.desc == 0, rdDesc := q.desc
                                   rdRow := if last then q.row + 1 else q.row
                                   rdGran := if last then 0 else q.gran + q.n })

/-- The target of a module address: 0 to 15 the HBM stacks, 16 + k the cluster stores, then the far tier and host memory
(R215, R234). -/
def memTarget (m : Mod) (a : Nat) : Nat :=
  let a := memKey m a
  if a < hbmTop then 2 * (a / 0x1800000000) + a / 256 % 2
  else match clusterOfNear a with
    | some k => 16 + k
    | none => if a < hostBase then 6000 else 6001

/-- The target of a request of a space (R214): the stores of the own cluster and a stream are one target each. -/
def reqTarget (m : Mod) (space pa : Nat) : Nat := if space = 3 then memTarget m pa else 7000 + space

/-- A write to space 3 is accepted: its bytes are held until the completion, and the line is the last one written to its target;
the own cluster's store needs no read-back (R207, R215). -/
def farWrite (m : Mod) (k : Nat) (q : WrReq) (pa : Nat) (x : ChanSt) : ChanSt :=
  let t := memTarget m pa
  let x := { x with writes := x.writes ++ [⟨q.row, pa, q.data.flatten⟩] }
  if t = 16 + k then x else { x with backs := x.backs.filter (fun b => b.target != t) ++ [⟨t, pa / 64 * 64, q.row⟩] }

/-- A write request that may go on; a row wholly written leaves the buffers. -/
def wrStep (m : Mod) (k ch : Nat) (q : WrReq) (pa : Nat) : Mod :=
  let far := dDstSpace q.d == 3
  let m := if far then m else
    ((List.range q.n).zip q.data).foldl (fun m p => granWrite m k q.d (q.addr + 16 * p.1) pa p.2) m
  let m := satReg m (rDollyWbytes k) 48 (16 * q.n)
  onChan m k ch (fun x =>
    let x := { (if far then farWrite m k q pa x else x) with flight := x.flight + 1 }
    if x.wrGran + q.n = dLen q.d then
      { x with wrRow := x.wrRow + 1, wrGran := 0, bufs := x.bufs.filter (fun b => !(b.desc == 0 && b.row == x.wrRow))
               index := x.index.filter (fun e => e.1 != x.wrRow) }
    else { x with wrGran := x.wrGran + q.n })

/-- A request refused with retry status keeps its place and is counted (R221); `read` tells a first read of the active
descriptor, which then has issued (R224). -/
def chRetry (m : Mod) (k ch : Nat) (read : Bool) : Mod :=
  satReg (onChan m k ch (fun x => { x with refused := true, issued := x.issued || read })) (rDollyRetry k) 48 1

/-- The access wakes the cluster whose store it waits for (R412). -/
def wakeTarget (m : Mod) (k ch va : Nat) (write : Bool) : Mod :=
  match translate m (chCtx m k ch) va write with
  | .ok a => (match clusterOfNear (memKey m a) with | some k2 => if k2 = k then m else wake m k2 | none => m)
  | .error _ => m

/-- Rows below `r` are written and delivered (R218 step 4); it stops early at a row whose writes fault, which then is the
lowest. `fuel` bounds the granules. -/
def chDrain (k ch r : Nat) : Nat → Mod → Mod
  | 0, m => m
  | fuel + 1, m =>
    let x := chanAt m k ch
    if r ≤ x.row then m
    else if x.row < x.wrRow then chDrain k ch r fuel (chDeliver m k ch)
    else match wrNext m k ch with
      | some (q, .ok pa) => chDrain k ch r fuel (wrStep m k ch q pa)
      | _ => m

/-- Delivers every row below `r`. -/
def chDrainTo (m : Mod) (k ch r : Nat) : Mod :=
  match (chanAt m k ch).active with
  | some d => chDrain k ch r ((r - (chanAt m k ch).row) * (dLen d + 1)) m
  | none => m

/-- Lines of one read burst after the first: consecutive lines of one row and one target (R214). -/
def rdBurst (k ch desc row target : Nat) : Nat → Nat → Mod → Mod
  | 0, _, m => m
  | fuel + 1, line, m =>
    match rdNext m k ch with
    | some (q, .ok pa) =>
      if !q.index ∧ q.desc = desc ∧ q.row = row ∧ q.addr = 64 * (line + 1) ∧ reqTarget m (dSrcSpace q.d) pa = target then
        rdBurst k ch desc row target fuel (line + 1) (rdStep m k ch q pa)
      else m
    | _ => m

/-- Lines of one write burst after the first. -/
def wrBurst (k ch row target : Nat) : Nat → Nat → Mod → Mod
  | 0, _, m => m
  | fuel + 1, line, m =>
    match wrNext m k ch with
    | some (q, .ok pa) =>
      if q.row = row ∧ q.addr = 64 * (line + 1) ∧ reqTarget m (dDstSpace q.d) pa = target then
        wrBurst k ch row target fuel (line + 1) (wrStep m k ch q pa)
      else m
    | _ => m

/-- A channel takes part in a decision of a direction: the lead, max_out and the dolly's limit allow it another request (R213,
R214). A read or write whose request faults is left to DOLLY_PAGE_FAULT, and an error of run-ahead to its descriptor's turn. -/
def chReady (m : Mod) (k : Nat) (write : Bool) (ch : Nat) : Bool :=
  decide (0 < chRoom m k ch) &&
  (if write then (match wrNext m k ch with | some (_, .fault _) | none => false | some _ => true)
  else match rdNext m k ch with
    | some (q, x) => (match x with
      | .fault _ => false
      | .wait => dSrcSpace q.d != 5
      | .err _ => q.desc == 0
      | _ => true)
    | none => false)

/-- The channel a decision grants (R214): one passed over `starve` times, else the highest priority, by rotation. Where several
have been passed over so often, the first in rotation (DESIGN CHOICE, log 38). -/
def chGrant (m : Mod) (k : Nat) (write : Bool) : Option Nat :=
  let cl := clAt m k
  let last := if write then cl.dollyWr else cl.dollyRd
  let passed := if write then cl.starveWr else cl.starveRd
  let starve := fld m (rDollyCfg k) 7 0
  let ready := (natsFrom last 16).map (· % 16) |>.filter (chReady m k write)
  let starved := ready.filter (fun ch => decide (starve ≠ 0) && decide (starve ≤ passed.getD ch 0))
  let top := (ready.map (fun ch => (chanAt m k ch).prio)).foldl max 0
  match starved with
  | c :: _ => some c
  | [] => ready.find? (fun ch => (chanAt m k ch).prio == top)

/-- Rotation and starve counts after a decision, which count consecutive decisions in which a channel was ready; `dollyRd` and
`dollyWr` hold the channel after the one last served. -/
def chServed (m : Mod) (k : Nat) (write : Bool) (ch : Nat) : Mod :=
  let cl := clAt m k
  let old := if write then cl.starveWr else cl.starveRd
  let cnt := (List.range 16).map (fun c => if c = ch ∨ !chReady m k write c then 0 else old.getD c 0 + 1)
  setCl m k (if write then { cl with dollyWr := (ch + 1) % 16, starveWr := cnt } else { cl with dollyRd := (ch + 1) % 16, starveRd := cnt })

/-- The responses of the bursts that a dolly granted before have come (log 15). -/
def dollyRespond (m : Mod) (k : Nat) : Mod :=
  (List.range 16).foldl (fun m ch => if (chanAt m k ch).flight = 0 then m else onChan m k ch (fun x => { x with flight := 0 })) m

/-- The lowest granule address of a row on a side. -/
def rowLow (d : QDesc) (r : Nat) (idx : W32) (dst : Bool) : Nat :=
  let f (g : Nat) : Nat := if dst then dDstAddr d r g idx else dSrcAddr d r g idx
  (List.range (dLen d)).foldl (fun a g => min a (f g)) (f 0)

/-- An uncorrectable error that a dolly's source read meets is contained (R437). -/
def uncorrRaise (m : Mod) (k : Nat) (d : QDesc) (a : Nat) : Mod :=
  match partOfCluster m k with
  | none => m
  | some p =>
    contained m p (k / 625) (match dSrcSpace d with | 0 => some 0 | 2 => some 2 | _ => none) (k % 625) (dSrcCore d) a
      (clAt m k).lent.isSome

/-- A burst of reads, or an index line: a case of R205 or R206 ends the active descriptor at its row once every lower row is
delivered, and so does uncorrectable data (R222). -/
def rdGrant (m : Mod) (k ch : Nat) : Mod :=
  let room := chRoom m k ch
  match rdNext m k ch with
  | some (q, .ok pa) =>
    if q.index then idxStep m k ch q
    else rdBurst k ch q.desc q.row (reqTarget m (dSrcSpace q.d) pa) (min 3 (room - 1)) (q.addr / 64) (rdStep m k ch q pa)
  | some (q, .retry) => chRetry m k ch (q.desc == 0)
  | some (q, .wait) => wakeTarget (onChan m k ch (fun x => { x with issued := x.issued || q.desc == 0 })) k ch q.addr false
  | some (q, .err code) =>
    if q.desc ≠ 0 then m else
    let m := chDrainTo m k ch q.row
    if (chanAt m k ch).row ≠ q.row then m else
    let m := if code = 4 then uncorrRaise m k q.d q.addr else m
    chFail m k ch code q.row (if q.index then 0 else rowLow q.d q.row ((idxHeld (chanAt m k ch) 0 q.row).getD 0) false) 0
  | _ => m

/-- A burst of writes. -/
def wrGrant (m : Mod) (k ch : Nat) : Mod :=
  let room := chRoom m k ch
  match wrNext m k ch with
  | some (q, .ok pa) =>
    wrBurst k ch q.row (reqTarget m (dDstSpace q.d) pa) (min 3 (room - 1)) (q.addr / 64) (wrStep m k ch q pa)
  | some (_, .retry) => chRetry m k ch false
  | some (q, .wait) => wakeTarget m k ch q.addr true
  | some (q, .err code) =>
    let m := if dDstSpace q.d = 5 ∧ code = 5 ∧ csOwn m k (nbits q.addr 57 52) then setBit m (rCsErr (nbits q.addr 57 52)) 4 else m
    let m := chDrainTo m k ch q.row
    if (chanAt m k ch).row = q.row then
      chFail m k ch code q.row (rowLow q.d q.row ((idxHeld (chanAt m k ch) 0 q.row).getD 0) true) 1 else m
  | _ => m

/-- A burst boundary of a direction (R214). -/
def burstGrant (k : Nat) (write : Bool) (m : Mod) : Mod :=
  if !clRolling m k then m else
  let m := dollyRespond m k
  match chGrant m k write with
  | none => m
  | some ch => if write then wrGrant (chServed m k write ch) k ch else rdGrant (chServed m k write ch) k ch

/-! ## Events of a channel -/

/-- A queued descriptor becomes active and is checked (R198, R203, R211, Table 8.8). -/
def descActive (k ch : Nat) (m : Mod) : Mod :=
  let x := chanAt m k ch
  match x.queue with
  | d :: rest =>
    if chState m k ch ≠ 1 ∨ x.active.isSome ∨ !clRolling m k then m else
    let maxOut := fld m (rChCtl k ch) 15 8
    let lead := fld m (rChCtl k ch) 7 4
    let m := onChan m k ch (fun x => { x with active := some d, queue := rest, row := 0, wrRow := 0, wrGran := 0
                                              maxOut := min 128 (max 1 maxOut), lead := min 8 (max 1 lead)
                                              prio := fld m (rChCtl k ch) 3 2 })
    let m := setChState m k ch 2
    let code := dCheck m k ch d
    if code ≠ 0 then chFail m k ch code 0 0 0
    else if dGate d && !gateOpen m d then setChState m k ch 3 else m
  | [] => m

/-- A gated descriptor's segment has landed (R211). -/
def gateRow (k ch : Nat) (m : Mod) : Mod :=
  match (chanAt m k ch).active with
  | some d => if chState m k ch = 3 ∧ gateOpen m d then setChState m k ch 2 else m
  | none => m

/-- The lowest undelivered row has been written. -/
def rowDelivered (k ch : Nat) (m : Mod) : Mod :=
  let x := chanAt m k ch
  if x.active.isSome ∧ x.row < x.wrRow ∧ (chState m k ch = 2 ∨ chState m k ch = 5) then chDeliver m k ch else m

/-- Every read-back has returned (R215). A read-back whose target refuses it is counted and goes again (R221). -/
def readbackDone (k ch : Nat) (m : Mod) : Mod :=
  let x := chanAt m k ch
  if !x.awaiting ∨ x.refused then m
  else if ownDrain m k || x.backs.any (fun b => memMeet m k b.addr == .retry) then
    chRetry m k ch false
  else if x.backs.any (fun b => memMeet m k b.addr == .wait) then
    x.backs.foldl (fun m b => match clusterOfNear (memKey m b.addr) with | some k2 => if k2 = k then m else wake m k2 | none => m) m
  else chComplete (onChan m k ch (fun x => { x with flight := 0 })) k ch

/-- The lowest faulting granule of a row, its side and kind (R218 step 3). -/
def rowFault (m : Mod) (k ch : Nat) (d : QDesc) (r : Nat) (idx : W32) : Option (Nat × Nat × Nat) :=
  (List.range (dLen d)).findSome? (fun g =>
    let a := dSrcAddr d r g idx
    match rdMeet m k ch d a with
    | .fault kind => some (a, 0, kind)
    | _ =>
      let b := dDstAddr d r g idx
      match wrMeet m k ch d b with
      | .fault kind => some (b, 1, kind)
      | _ => none)

/-- The row at which the channel's next read or write faults. -/
def faultRow (m : Mod) (k ch : Nat) : Option Nat :=
  match wrNext m k ch with
  | some (q, .fault _) => some q.row
  | _ => match rdNext m k ch with
    | some (q, .fault _) => if q.desc = 0 then some q.row else none
    | _ => none

/-- A page fault (R218): rows below are delivered, later data is discarded, the channel enters Faulted and records it; during
a stop the descriptor is then abandoned (R226). -/
def pageFault (k ch : Nat) (m : Mod) : Mod :=
  match faultRow m k ch with
  | none => m
  | some r =>
    let m := chDrainTo m k ch r
    let x := chanAt m k ch
    match x.active with
    | none => m
    | some d =>
      let r := x.row
      let idx := (idxOf m k ch 0 d r).getD 0
      match rowFault m k ch d r idx with
      | none => m
      | some (a, side, kind) =>
        let m := wrN (wrN (wrN m (rChFseq k ch) d.seq.toNat) (rChFrow k ch) r) (rChFaddr k ch) (a % 2 ^ 57 + side * 2 ^ 57)
        let m := setBit (setFld m (rChStat k ch) 15 12 kind) (rChErr k ch) 3
        let m := arbDropDolly (chWaste m k ch x.bufs) k ch (fun t => t.seq != d.seq || decide (r ≤ t.row))
        let m := farSettle m (x.writes.filter (fun w => decide (r ≤ w.row)))
        let m := onChan m k ch (fun x => { x with bufs := [], index := [], rdDesc := 0, rdRow := r, rdGran := 0, wrRow := r, wrGran := 0
                                                  flight := 0, writes := x.writes.filter (fun w => decide (w.row < r))
                                                  backs := x.backs.filter (fun b => decide (b.row < r)) })
        let cx := chCtx m k ch
        let m := if ctxUsable m k cx then
            sendUnclassed m (some cx) 0x10 90 cx (ctxAt m cx).part.val (chRecord m k ch d r a side kind) else m
        if chState m k ch = 5 then
          let m := farApply m (chanAt m k ch).writes
          onChan (chAbandon m k ch 1) k ch (fun x => { x with active := none, row := 0, rdRow := 0, wrRow := 0, issued := false
                                                              writes := [], backs := [] })
        else setChState m k ch 4

/-- A refused request is issued again (R221). -/
def retryReissue (k ch : Nat) (m : Mod) : Mod := onChan m k ch (fun x => { x with refused := false })

/-- A request of a row of the active descriptor completes with error status (code 0x02) or uncorrectable data (0x04): lower
rows are delivered first (R222). A read-back fails at the row of the line it reads (log 38). -/
def requestError (k ch row : Nat) (uncorr : Bool) (m : Mod) : Mod :=
  let x := chanAt m k ch
  match x.active with
  | none => m
  | some d =>
    let reach := if x.rdDesc = 0 then x.rdRow else dRows d - 1
    let back := x.awaiting && !uncorr && x.backs.any (fun b => b.row == row)
    if (chState m k ch ≠ 2 ∧ chState m k ch ≠ 5) ∨ (!back ∧ (row < x.row ∨ reach < row)) ∨ dRows d ≤ row then m else
    let m := chDrainTo m k ch row
    if !back ∧ (chanAt m k ch).row ≠ row then m else
    let idx := (idxOf m k ch 0 d row).getD 0
    let side := if uncorr ∨ x.rdRow ≤ row ∧ x.rdDesc = 0 then 0 else 1
    let a := rowLow d row idx (side == 1)
    chFail (if uncorr then uncorrRaise m k d a else m) k ch (if uncorr then 4 else 2) row a side

/-- The last request of a stopping channel has returned (R224 step 6). -/
def stopDone (k ch : Nat) (m : Mod) : Mod :=
  let x := chanAt m k ch
  if chState m k ch = 5 ∧ x.active.isNone then
    onChan (setChState m k ch 1) k ch (fun x => { x with queue := x.kept, kept := [], flight := 0, refused := false })
  else m

/-- The last response of a disabling channel has returned (R225 step 5). -/
def disableDone (k ch : Nat) (m : Mod) : Mod :=
  if chState m k ch = 6 then onChan (setChState m k ch 0) k ch (fun x => { x with flight := 0, refused := false }) else m

/-! ## Commands (R219, R224 to R227) -/

/-- An ignored command. -/
def cmdIgnored (m : Mod) (k ch : Nat) : Mod := setBit m (rChErr k ch) 1

/-- Arm (R227). -/
def chArm (m : Mod) (k ch : Nat) : Mod :=
  if chState m k ch = 0 ∨ chState m k ch = 1 ∨ chState m k ch = 7 then
    -- launched descriptors that have retired stay counted for their entries (R252); those still queued count from 0
    let m := sbDescs m k ch (fun n =>
      ((chanAt m k ch).queue.findIdx? (fun d => d.seq == n)).map (BitVec.ofNat 32))
    let m := wrN (wrN (wrN m (rChDone k ch) 0) (rChAbandon k ch) 0) (rChWaste k ch) 0
    let m := wrN (wrN (wrN m (rChFseq k ch) 0) (rChFrow k ch) 0) (rChFaddr k ch) 0
    let m := setFld (setFld m (rChStat k ch) 23 16 0) (rChStat k ch) 15 12 0
    onChan (setChState m k ch 1) k ch (fun x => { x with seqCount := 0, credited := 0 })
  else cmdIgnored m k ch

/-- Stop (R224): a started active descriptor runs to its end; the rest are abandoned. -/
def chStop (m : Mod) (k ch : Nat) : Mod :=
  let st := chState m k ch
  if st = 0 ∨ st = 5 ∨ st = 6 then cmdIgnored m k ch else
  let x := chanAt m k ch
  let keep := decide (st = 2) && x.active.isSome && x.issued
  let lost := x.bufs.filter (fun b => !keep || decide (0 < b.desc))
  let n := x.queue.length + (if keep then 0 else x.active.toList.length)
  let m := arbDropDolly m k ch (fun t => !keep || (match x.active with | some d => t.seq != d.seq | none => true))
  let m := if keep then m else farApply m x.writes
  let m := sbFollow (chAbandon (chWaste m k ch lost) k ch n) k
  onChan (setChState m k ch 5) k ch (fun x =>
    if keep then
      let done := match x.active with | some d => dRows d | none => 0
      { x with queue := [], kept := [], bufs := x.bufs.filter (fun b => b.desc == 0), index := x.index.filter (fun e => decide (e.1 < 2 ^ 33))
               rdDesc := 0, rdRow := if x.rdDesc = 0 then x.rdRow else done, rdGran := if x.rdDesc = 0 then x.rdGran else 0 }
    else
      { x with active := none, queue := [], kept := [], bufs := [], index := [], row := 0, rdDesc := 0, rdRow := 0, rdGran := 0
               wrRow := 0, wrGran := 0, issued := false, awaiting := false, writes := [], backs := [], refused := false })

/-- Sets a register to a free value cut to `w` bits. -/
def freeReg (m : Mod) (off w : Nat) : Mod := let (v, m) := drawFree m; wrN m off (bits v (w - 1) 0)

/-- Disable (R225): everything is dropped, and writes in flight are performed or not; the counts and the credits of every core the
channel has credited since its arm, or its descriptors would credit, are undefined until the next arm, and a tap or event in
flight may or may not be produced. Its responses are out until the channel is Off. -/
def chDisable (m : Mod) (k ch : Nat) : Mod :=
  let st := chState m k ch
  if st = 0 ∨ st = 6 then m else
  let x := chanAt m k ch
  let ds := chStream x ++ x.kept
  let m := farSettle (arbDropDolly (sbDescs m k ch (fun _ => none)) k ch (fun _ => true)) x.writes
  let (v, m) := drawFree m
  let m := match x.active with
    | some d =>
      let m := if x.awaiting && dTap d && bit v 0 then
          let r := reelAt m (dReel d); setReel m (dReel d) { r with tapMsgs := r.tapMsgs ++ [dSeg d] } else m
      if x.awaiting && dEv d && bit v 0 then setFlag m k (dfld d 7 52 48) else m
    | none => m
  let mask := ds.foldl (fun a d => a ||| dCredMask d) x.credited
  let m := (maskCores k mask).foldl (fun m c =>
    let (v, m) := drawFree m
    setCore m c (setCredit (coreAt m c) ch (bits v 15 0))) m
  let m := freeReg (freeReg (freeReg m (rChDone k ch) 32) (rChAbandon k ch) 32) (rChWaste k ch) 48
  let m := freeReg (freeReg (freeReg m (rChFseq k ch) 32) (rChFrow k ch) 32) (rChFaddr k ch) 58
  sbFollow (onChan (setChState m k ch 6) k ch (fun x => { ChanSt.reset with
    seqCount := x.seqCount, flight := x.flight + b2n x.refused, maxOut := x.maxOut, lead := x.lead, prio := x.prio })) k

/-- Resume (R219). -/
def chResume (m : Mod) (k ch : Nat) : Mod := if chState m k ch = 4 then setChState m k ch 2 else cmdIgnored m k ch

/-- A write of DOLLY_CH_CMD (Table 8.9). -/
def chCommand (m : Mod) (k ch cmd : Nat) : Mod :=
  match cmd with
  | 0 => m
  | 1 => chArm m k ch
  | 2 => chStop m k ch
  | 3 => chDisable m k ch
  | 4 => chResume m k ch
  | _ => cmdIgnored m k ch

/-- The end of every channel of a cluster in a forced power-down (R222, R415): outstanding requests end with error status, at the
lowest row whose requests had not all completed; the rows below it are delivered. -/
def clusterError (m : Mod) (k : Nat) : Mod :=
  (List.range 16).foldl (fun m ch =>
    let x := chanAt m k ch
    match x.active with
    | some d =>
      let r := if x.awaiting then dRows d - 1 else x.wrRow
      let m := chDrainTo m k ch x.wrRow
      chFail m k ch 2 r (if x.issued then rowLow d r ((idxHeld x 0 r).getD 0) false else 0) 0
    | none => m) m

/-- The cluster has transfers in flight (R223). -/
def inFlight (m : Mod) (k : Nat) : Bool := (List.range 16).any (fun ch => [2, 3, 4, 5, 6].contains (chState m k ch))

/-! ## Instructions (R228 to R230) -/

/-- darm, dstop, ddis. -/
def chInstr (c : Nat) (f : Mod → Nat → Nat → Mod) (ch : VReg) (m : Mod) : Act := .next (f m (clusterOf c) ch.val)

/-- dlaunch (R229). An uncorrectable error in the descriptor's bytes is a core access's: fault 0x09 in the local store, contained with
the data as read in the cluster store (Table 16.3). -/
def launchAct (c : Nat) (b : SReg) (ch : VReg) (a : SReg) (m : Mod) : Act :=
  let x := coreAt m c
  let k := clusterOf c
  let addr := (rs32 x a).toNat
  if regBusy x [a, b] [] then .stall (.regs [a, b])
  else if !fenceMet m c x then .stall .dep
  else if addr % 64 ≠ 0 then .fault 0x02 addr
  else match firstOutside addr 64 with
    | some bad => .fault 0x03 bad
    | none =>
      if memBusy c x [(addr, 64)] [] then .stall .dep
      else
        let bad := firstBad m c x.stageMap addr 64
        match bad.filter (fun _ => decide (addr < lsTop)) with
        | some a => .fault 0x09 a
        | none =>
          let met (m : Mod) : Mod := match bad with | some a => eccContain m c 2 a | none => m
          if launchRefused m k ch.val then
            .next (met (setCore (setBit m (rChErr k ch.val) 0) c (setS x b (BitVec.allOnes 64))))
          else
            let bs := coreRead m c x.stageMap addr 64
            let words := (List.range 8).map (fun i => BitVec.ofNat 64 (leNat ((bs.drop (8 * i)).take 8)))
            let seq := (chanAt m k ch.val).seqCount
            match enqueue m k ch.val words with
            | none => .stall .dep
            | some m' => .next (met (setCore m' c (setS (coreAt m' c) b (BitVec.ofNat 64 seq.toNat))))

/-- dwait (R230). -/
def dwaitAct (c : Nat) (ch : VReg) (a : SReg) (m : Mod) : Act :=
  let x := coreAt m c
  let k := clusterOf c
  if regBusy x [a] [] then .stall (.regs [a])
  else
    let diff : W32 := BitVec.ofNat 32 (rd m (rChDone k ch.val)).toNat - rs32 x a
    if chState m k ch.val = 0 ∨ diff.toNat < 2 ^ 31 then .next m else .stall (channelCause m k ch.val)

/-- dq (Table 8.6). -/
def dqAct (c : Nat) (a : SReg) (ch : VReg) (s : Bool) (m : Mod) : Act :=
  let k := clusterOf c
  let v : Nat := if s then (rd m (rChStat k ch.val)).toNat
    else (rd m (rChAbandon k ch.val)).toNat * 2 ^ 32 + (rd m (rChDone k ch.val)).toNat
  regAct c [a] [] (fun x => setS x a (BitVec.ofNat 64 v)) m

/-! ## The rows -/

/-- darm (R227). -/
def execDarm (c : Core) (s : State) : Host.Outcome State Fault Refusal :=
  .next (s.onMod (issue c.val (fun o => match o with | .darm ch => some (chInstr c.val chArm ch) | _ => none)))

/-- dlaunch (R229). -/
def execDlaunch (c : Core) (s : State) : Host.Outcome State Fault Refusal :=
  .next (s.onMod (issue c.val (fun o => match o with | .dlaunch b ch a => some (launchAct c.val b ch a) | _ => none)))

/-- dstop (R224). -/
def execDstop (c : Core) (s : State) : Host.Outcome State Fault Refusal :=
  .next (s.onMod (issue c.val (fun o => match o with | .dstop ch => some (chInstr c.val chStop ch) | _ => none)))

/-- ddis (R225). -/
def execDdis (c : Core) (s : State) : Host.Outcome State Fault Refusal :=
  .next (s.onMod (issue c.val (fun o => match o with | .ddis ch => some (chInstr c.val chDisable ch) | _ => none)))

/-- dwait (R230). -/
def execDwait (c : Core) (s : State) : Host.Outcome State Fault Refusal :=
  .next (s.onMod (issue c.val (fun o => match o with | .dwait ch a => some (dwaitAct c.val ch a) | _ => none)))

/-- dq (R228). -/
def execDq (c : Core) (s : State) : Host.Outcome State Fault Refusal :=
  .next (s.onMod (issue c.val (fun o => match o with | .dq st a ch => some (dqAct c.val a ch st) | _ => none)))

/-- A queued descriptor becomes active (R203). -/
def execDollyDescActive (k : Cluster) (ch : Fin 16) (s : State) : Host.Outcome State Fault Refusal :=
  .next (s.onMod (descActive k.val ch.val))

/-- A gated descriptor's segment lands (R211). -/
def execDollyGateOpen (k : Cluster) (ch : Fin 16) (s : State) : Host.Outcome State Fault Refusal :=
  .next (s.onMod (gateRow k.val ch.val))

/-- The next read or write burst is granted (R214). -/
def execDollyBurstGrant (k : Cluster) (write : Bool) (s : State) : Host.Outcome State Fault Refusal :=
  .next (s.onMod (burstGrant k.val write))

/-- A row's writes complete (R207). -/
def execDollyRowDelivered (k : Cluster) (ch : Fin 16) (s : State) : Host.Outcome State Fault Refusal :=
  .next (s.onMod (rowDelivered k.val ch.val))

/-- The read-backs return (R215). -/
def execDollyReadbackDone (k : Cluster) (ch : Fin 16) (s : State) : Host.Outcome State Fault Refusal :=
  .next (s.onMod (readbackDone k.val ch.val))

/-- A translation reports a page fault (R218). -/
def execDollyPageFault (k : Cluster) (ch : Fin 16) (s : State) : Host.Outcome State Fault Refusal :=
  .next (s.onMod (pageFault k.val ch.val))

/-- A refused request is issued again (R221). -/
def execDollyRetryReissue (k : Cluster) (ch : Fin 16) (s : State) : Host.Outcome State Fault Refusal :=
  .next (s.onMod (retryReissue k.val ch.val))

/-- A request completes with error status or uncorrectable data (R222). -/
def execDollyRequestError (k : Cluster) (ch : Fin 16) (row : W32) (uncorr : Bool) (s : State) :
    Host.Outcome State Fault Refusal :=
  .next (s.onMod (requestError k.val ch.val row.toNat uncorr))

/-- A stop ends (R224). -/
def execDollyStopDone (k : Cluster) (ch : Fin 16) (s : State) : Host.Outcome State Fault Refusal :=
  .next (s.onMod (stopDone k.val ch.val))

/-- A disable ends (R225). -/
def execDollyDisableDone (k : Cluster) (ch : Fin 16) (s : State) : Host.Outcome State Fault Refusal :=
  .next (s.onMod (disableDone k.val ch.val))

end Sys2Proof.Machine
end

