-- ==== Sys2Proof/Machine/Power.lean ====
section
/-!
DEFINITION. Clocks and the power ladder (15_power_clocks.md R408 to R427, R513): rungs, drains, wakes, windows, standby,
throttling and power limits.
-/
namespace Sys2Proof.Machine

/-! ## Rungs -/

/-- Changes a cluster's rung and the die's count of clusters at each rung. -/
def setRung (m : Mod) (k r : Nat) : Mod :=
  let d := rGafRungs (k / 625)
  let old := clRung m k
  if old = r then m else
  let m := setFld m d (10 * old + 9) (10 * old) (fld m d (10 * old + 9) (10 * old) - 1)
  let m := setFld m d (10 * r + 9) (10 * r) (fld m d (10 * r + 9) (10 * r) + 1)
  setFld m (rGafClStat k) 2 0 r

/-- Sets phase and target. -/
def setPhase (m : Mod) (k phase target : Nat) : Mod :=
  setFld (setFld m (rGafClStat k) 7 6 phase) (rGafClStat k) 5 3 target

/-- The rung of clusters in no partition: 0, 6 and 7 act as 3 (Table 15.5). -/
def freeRung (m : Mod) (d : Nat) : Nat := let r := fld m (rGafCtl d) 2 0; if 1 ≤ r ∧ r ≤ 5 then r else 3

/-- Requests that a cluster ignores: its partition is in rollout mode, or the screen test holds it (R416). -/
def rungBlocked (m : Mod) (k : Nat) : Bool :=
  (clAt m k).screenHeld || (match partOfCluster m k with | some p => fld m (rPartCtl p) 0 0 == 1 | none => false)

/-- A request for a rung below Rolling (R248, R413, R513). -/
def clRequest (m : Mod) (k r : Nat) : Mod :=
  if rungBlocked m k then m else
  let m := setFld m (rGafClStat k) 9 9 0
  let r := if r = 5 ∧ !(slotsUsed m k).isEmpty then 4 else r
  match clPhase m k with
  | 1 => setPhase m k 1 r
  | 2 | 3 => setCl m k { clAt m k with held := some r }
  | _ =>
    let cur := clRung m k
    if cur = 0 then setPhase m k 1 r
    else if r < cur then setPhase (setCl m k { clAt m k with held := some r }) k 3 0
    else if cur < r then setPhase m k 2 r
    else m

/-- A cluster is quiet (R413). -/
def clQuiet (m : Mod) (k : Nat) : Bool :=
  (coresOf k).all (fun c => decide ((coreAt m c).state ≠ .running)) && !inFlight m k

/-- Free values in every byte of a range of keys: contents that power-down loses (R411). -/
def forgetMem (n : Nat) (mem : Sparse Byte) (base len : Nat) : Sparse Byte :=
  writeList mem base ((natsFrom base len).map (Config.carveByte n))

/-- The cluster is at Dark, or past the commit point of entering or leaving it: it holds nothing, and a PIN into it and a start of
its cores wait for its wake (R155, R248, R411, logs 40 and 45). -/
def inDark (m : Mod) (k : Nat) : Bool :=
  clRung m k == 5 || (clPhase m k == 2 && fld m (rGafClStat k) 5 3 == 5)

/-- A core after core reset; units on their way to it, the context it last ran and a start that waits are not its own state. -/
def coreReset (m : Mod) (c : Nat) : Mod :=
  let x := coreAt m c
  setCore m c { CoreSt.reset with haloIn := x.haloIn, haloPos := x.haloPos, lastCtx := x.lastCtx, waking := x.waking }

/-- Cluster reset, at the exit from Dark (R411, Tables 18.1 and 18.2): cores as after core reset, channels Off, every register of the
cluster's block and its store arbiters at reset, clappers and event flags of the cluster clear, stores unspecified (log 45). A core
that waited is stopped for the commands that wait for it, with halt code 0. -/
def clusterReset (m : Mod) (k : Nat) : Mod :=
  let n := m.free
  let stat := rd m (rGafClStat k)
  let m := ((coresOf k).filter (fun c => decide ((coreAt m c).state = .waiting))).foldl (fun m c => coreStopped m c none 0) m
  let m := (List.range 16).foldl (fun m ch => setChan m k ch ChanSt.reset) ((coresOf k).foldl coreReset m)
  let m := { m with
    regs := sclear m.regs (clBase k) 0x400, arbs := sclear m.arbs (arbKeyStore k 0) 16, free := n + 1
    claps := sclear m.claps (8 * k) 8, evFlags := sclear m.evFlags k 1
    arrivals := m.arrivals.filter (fun a => clusterOf a.core != k), ingest := m.ingest.filter (fun e => e / 16 != k) }
  let m := { m with
    lmem := forgetMem n m.lmem (16 * k * lsTop) (16 * lsTop), imem := forgetMem n m.imem (16 * k * 0x4000) (16 * 0x4000)
    mem := forgetMem n m.mem (nearAddr k) 0x100000 }
  let m := eccClear (eccClear m 0 (16 * k * lsTop) (16 * lsTop)) 1 (16 * k * 0x4000) (16 * 0x4000)
  wr (eccClear m 2 (nearAddr k) 0x100000) (rGafClStat k) (stat &&& 0xFF)

/-- The gate edge: entry begins. -/
def gateEdge (m : Mod) (k : Nat) : Mod := setFld m (rGafClStat k) 7 6 2

/-- A draining cluster becomes quiet (R413). -/
def drainQuiet (k : Nat) (m : Mod) : Mod := if clPhase m k = 1 ∧ clQuiet m k then gateEdge m k else m

/-- The drain deadline (R415). -/
def drainDeadline (k : Nat) (m : Mod) : Mod :=
  if clPhase m k ≠ 1 ∨ clQuiet m k then m else
  let d := k / 625
  let r := fld m (rGafClStat k) 5 3
  let detail := leBytes 2 (k % 625) ++ [BitVec.ofNat 8 r]
  if fld m (rGafClCtl k) 4 4 = 1 ∧ (coresOf k).all (fun c => decide ((coreAt m c).state ≠ .running)) then
    let m := satReg (setBit m (rGafErr d) 2) (rGafForced d) 32 1
    gateEdge (raise (clusterError m k) (telemEv d 0 2 .error detail)) k
  else
    let m := satReg (setBit m (rGafErr d) 1) (rGafRefused d) 32 1
    raise (setBit (setPhase m k 0 0) (rGafClStat k) 9) (telemEv d 0 1 .warning detail)

/-- The request held while a phase ran is acted on (R513). -/
def takeHeld (m : Mod) (k : Nat) : Mod :=
  match (clAt m k).held with
  | some r => clRequest (setCl m k { clAt m k with held := none }) k r
  | none => m

/-- Entry completes (R413, R414): a latched wake begins exit at once, and so does a passage through Dark (R435). -/
def rungEntered (k : Nat) (m : Mod) : Mod :=
  if clPhase m k ≠ 2 then m else
  let r := fld m (rGafClStat k) 5 3
  let m := if clRung m k = 0 then setCl m k { clAt m k with lowSince := m.hclk } else m
  let m := setFld (setRung m k r) (rGafClStat k) 7 6 0
  if fld m (rGafClStat k) 11 11 = 1 ∨ (r = 5 ∧ (clAt m k).reload) then wake (setCl m k { clAt m k with reload := false }) k
  else takeHeld m k

/-- A core's part in its cluster's return to Rolling (R419): IDLE_WAKE takes the cycles since the wake for a core that waited
or was started, and a wait whose release reached it completes. -/
def coreReturn (cycles : Nat) (m : Mod) (c : Nat) : Mod :=
  let x := coreAt m c
  let m := if x.state = .waiting ∨ x.state = .running ∨ x.waking then addIdle m c 7 cycles else m
  let m := setCore m c { coreAt m c with waking := false }
  if x.wakeDone then endWait m c (fun x => x) else creditWake m c

/-- Exit completes and the cluster is at Rolling, after cluster reset where it was at Dark (R411, R419); one that belongs to no
partition goes back to its free rung (R418), through Dark if a repair still asks for it (R435). -/
def rungExited (k cycles : Nat) (m : Mod) : Mod :=
  if clPhase m k ≠ 3 then m else
  let m := satReg m (rGafClLow k) 48 (m.hclk - (clAt m k).lowSince)
  let dark := clRung m k == 5
  let m := setPhase (setRung m k 0) k 0 0
  let m := if dark then clusterReset m k else m
  let m := (coresOf k).foldl (coreReturn cycles) m
  let m := takeHeld m k
  if (partOfCluster m k).isNone ∧ clPhase m k = 0 ∧ !(clAt m k).screenHeld then
    clRequest m k (if (clAt m k).reload then 5 else freeRung m (k / 625))
  else m

/-- A write of GAFFER_CL_CTL (Table 15.6). -/
def writeClCtl (m : Mod) (k val : Nat) : Mod :=
  let m := wrN m (rGafClCtl k) (nbits val 8 8 * 256 + nbits val 4 4 * 16)
  match nbits val 2 0 with
  | 0 => wake m k
  | 6 | 7 => setBit m (rGafErr (k / 625)) 0
  | r => clRequest m k r

/-- An automatic request commits at once: the cluster is quiet already (R416). -/
def autoRequest (m : Mod) (k r : Nat) : Mod :=
  if rungBlocked m k ∨ clPhase m k ≠ 0 ∨ r ≤ clRung m k then m else setFld (setPhase m k 2 r) (rGafClStat k) 9 9 0

/-- The cluster has been quiet for hold_idle cycles (R416). -/
def autoHold (k : Nat) (m : Mod) : Mod :=
  if fld m (rGafClCtl k) 8 8 = 1 ∧ fld m (rGafCtl (k / 625)) 23 16 ≠ 0 ∧ clQuiet m k then autoRequest m k 1 else m

/-- The cluster has stayed quiet for a further 64 × still_idle cycles (R416). -/
def autoStill (k : Nat) (m : Mod) : Mod :=
  if fld m (rGafClCtl k) 8 8 = 1 ∧ fld m (rGafCtl (k / 625)) 15 8 ≠ 0 ∧ clQuiet m k then autoRequest m k 2 else m

/-! ## Rollout mode (R193, R194) -/

/-- Sets a partition's rollout bit. From 0 to 1 it takes every cluster of the partition to Rolling and cancels their drains (R193). -/
def rolloutSet (m : Mod) (p b : Nat) : Mod :=
  let was := fld m (rPartCtl p) 0 0
  let m := setFld m (rPartCtl p) 0 0 b
  if was = 0 ∧ b = 1 then (clustersOfPart m p).foldl wake m else m

/-- The bit may change by a plain write: no take of the partition is running and no core of it is Running (R194, log 44). -/
def rolloutFree (m : Mod) (p : Nat) : Bool :=
  prPhase m p == 0 && (coresOfPart m p).all (fun c => decide ((coreAt m c).state ≠ .running))

/-! ## REST windows (R256, R417) -/

/-- Entry and exit time of a rung together, at most, in ns; Hold's four cycles at the slowest step (Table 15.2). -/
def rungTime : Nat → Nat
  | 1 => 13
  | 2 => 56
  | 3 => 600
  | 4 => 6000
  | _ => 0

/-- The deepest rung a REST window of `n` µs selects; 0 for none. -/
def restRung (m : Mod) (d n : Nat) : Nat :=
  let floor := min 4 (fld m (rGafCtl d) 6 4)
  ((natsFrom 1 floor).filter (fun r => decide (4 * rungTime r ≤ 1000 * n))).foldl max 0

/-- A REST window opens for a cluster. -/
def restOpen (m : Mod) (k n cue : Nat) : Mod :=
  let r := restRung m (k / 625) n
  if r = 0 ∨ rungBlocked m k then m
  else clRequest (setCl m k { clAt m k with restCue := some (BitVec.ofNat 32 cue) }) k r

/-- A REST window ends: the cluster wakes (R412, R417). -/
def restEnd (k : Nat) (m : Mod) : Mod :=
  if (clAt m k).restCue.isSome then wake (setCl m k { clAt m k with restCue := none }) k else m

/-! ## Module standby (R420, R421) -/

/-- GAFFER_MOD_STAT.state: 0 Running, 1 Entering, 2 Standby, 3 Leaving. -/
def modState (m : Mod) : Nat := fld m rGafModStat 2 0

/-- The conditions of R420. -/
def standbyAllowed (m : Mod) : Bool :=
  m.cores.all (fun e => decide (e.2.state = .halted))
    && (List.range 12).all (fun p => (prPhase m p == 0 || prPhase m p == 7) && fld m (rStrCtl p) 0 0 == 0)
    && (List.range 16).all (fun r => !reelRuns m r) && (List.range 64).all (fun i => !csRuns m i)
    && (List.range 5000).all (fun k => !inFlight m k)

/-- The clusters of every partition. -/
def partClusters (m : Mod) : List Nat := (List.range 12).flatMap (clustersOfPart m)

/-- A write of 1 to GAFFER_MOD_CMD (R420). -/
def standbyEnter (m : Mod) : Mod :=
  if modState m ≠ 0 ∨ !standbyAllowed m then setBit m rGafModErr 1 else
  let m := setFld { m with standbyWake := false } rGafModStat 2 0 1
  (partClusters m).foldl (fun m k => clRequest m k 4) m

/-- A wake of the module (R421). -/
def modWake (m : Mod) : Mod :=
  match modState m with
  | 1 => { m with standbyWake := true }
  | 2 => (partClusters m).foldl wake (setFld m rGafModStat 2 0 3)
  | _ => m

/-- Standby is reached (R420); a latched wake begins leaving at once (R421). -/
def standbyEntered (m : Mod) : Mod :=
  if modState m ≠ 1 then m else
  let m' := setFld m rGafModStat 2 0 2
  if m.standbyWake then modWake { m' with standbyWake := false } else m'

/-- Standby has been left (R421). -/
def standbyLeft (m : Mod) : Mod := if modState m = 3 then setFld m rGafModStat 2 0 0 else m

/-! ## Throttling and power (R409, R422 to R425) -/

/-- A gaffer's loops. -/
def gafAt (m : Mod) (d : Nat) : GafSt := sget (fun _ => GafSt.reset) m.gafs d

/-- Sets a gaffer's loops. -/
def setGaf (m : Mod) (d : Nat) (v : GafSt) : Mod := { m with gafs := sset (fun _ => GafSt.reset) m.gafs d v }

/-- The step a die's clock runs to: min(kmax, kmax_pwr, kth), kmax from 4 to 16. -/
def stepTarget (m : Mod) (d : Nat) : Nat :=
  min (min 16 (max 4 (fld m (rGafFreq d) 4 0))) (min (fld m (rGafFreq d) 12 8) (gafAt m d).kth)

/-- One step of the fast clock completes (R409). -/
def freqStep (d : Nat) (m : Mod) : Mod :=
  let k := fld m (rGafFreq d) 20 16
  let t := stepTarget m d
  if k < t then setFld m (rGafFreq d) 20 16 (k + 1) else if t < k then setFld m (rGafFreq d) 20 16 (k - 1) else m

/-- throttle and throttle − hyst in 1/16 °C, with the ranges of Table 15.4. -/
def throttleAt (m : Mod) (d : Nat) : Int := 16 * (min 92 (fld m (rGafTherm d) 15 8) : Nat)
def releaseAt (m : Mod) (d : Nat) : Int := throttleAt m d - 16 * (min 10 (max 1 (fld m (rGafTherm d) 7 0)) : Nat)
def tripAt (m : Mod) (d : Nat) : Int := 16 * (min 100 (fld m (rGafTherm d) 23 16) : Nat)
def shutAt (m : Mod) (d : Nat) : Int := 16 * (min 110 (fld m (rGafTherm d) 31 24) : Nat)

/-- The hottest reading of a die, signed, in 1/16 °C. -/
def hottest (m : Mod) (d : Nat) : Int := toSigned 16 (fld m (rGafTemp d) 15 0)

/-- A reading short of the shut threshold (R422, R423): GAFFER_TEMP, the first step of throttling, and the trip. -/
def thermalRead (d sensor : Nat) (temp : Int) (m : Mod) : Mod :=
  let t16 := (BitVec.ofInt 16 temp).toNat
  let m := wrN m (rGafTemp d) (t16 + sensor % 1024 * 65536)
  let x := gafAt m d
  let x := if throttleAt m d ≤ temp then (if x.hot then x else { x with hot := true, kth := max 4 (x.kth - 1) }) else { x with hot := false }
  let x := if temp ≤ releaseAt m d then { x with tripGated := false } else x
  let m := setGaf m d x
  if tripAt m d ≤ temp then
    raise (setBit (setGaf m d { x with kth := 4, tripGated := true }) (rGafErr d) 3)
      (telemEv d 0 3 .alarm (leBytes 2 sensor ++ leBytes 2 t16))
  else m

/-- A further 100 µs at or above throttle (R422). -/
def thermalDown (d : Nat) (m : Mod) : Mod :=
  let x := gafAt m d
  if throttleAt m d ≤ hottest m d ∧ x.hot then setGaf m d { x with kth := max 4 (x.kth - 1) } else m

/-- 1 ms at or below throttle − hyst (R422). -/
def thermalUp (d : Nat) (m : Mod) : Mod :=
  let x := gafAt m d
  if hottest m d ≤ releaseAt m d then setGaf m d { x with kth := min 16 (x.kth + 1) } else m

/-- Sets kmax_pwr of every die. -/
def setKpwr (m : Mod) (k : Nat) : Mod := (List.range 8).foldl (fun m d => setFld m (rGafFreq d) 12 8 k) m

/-- The power loop at one sample of 10 µs (R424); averages in W. -/
def powerSample (avg1 avg100 avgS : Nat) (m : Mod) : Mod :=
  let m := wrN m rGafModPower (min 65535 avg1 + min 65535 avgS * 65536)
  let cap := min 15000 (max 1000 (fld m rGafModPcap 15 0))
  let peak := min 17000 (max cap (fld m rGafModPeak 15 0))
  let k := fld m (rGafFreq 0) 12 8
  let n := m.pwrSamples + 1
  if peak - 500 < avg1 then setKpwr { m with pwrSamples := min n 100 } (max 4 (k - 4))
  else if cap - 250 < avg100 ∧ 100 ≤ n then setKpwr { m with pwrSamples := 0 } (max 4 (k - 1))
  else if avg100 < cap - 750 ∧ 100 ≤ n then setKpwr { m with pwrSamples := 0 } (min 16 (k + 1))
  else { m with pwrSamples := min n 100 }

/-- The input current exceeds 400 A (R425); `peak` in 0.1 A. -/
def currentOver (peak : Nat) (m : Mod) : Mod :=
  let m := (List.range 8).foldl (fun m d => setGaf m d { gafAt m d with curGated := true }) m
  raise (setKpwr m (max 4 (fld m (rGafFreq 0) 12 8 - 4))) (telemEv 8 0 4 .warning (leBytes 2 (min 65535 peak)))

/-- The current has stayed at or below 360 A for 100 µs (R425). -/
def currentRelease (m : Mod) : Mod := (List.range 8).foldl (fun m d => setGaf m d { gafAt m d with curGated := false }) m

/-- A bay's supply current and energy (R425); the energy counts toward the partition that holds the bay, or toward none, in the
apportioning interval (R472). -/
def bayCurrent (b : Nat) (avg : W16) (mj : Nat) (m : Mod) : Mod :=
  let m := satReg (wrN m (rGafBayI b) avg.toNat) (rGafBayE b) 48 mj
  let key := 64 * (((List.range 12).find? (fun p => partHasBay m p b)).getD 12) + b
  { m with meterAcc := sset (fun _ => 0) m.meterAcc key (sget (fun _ => 0) m.meterAcc key + mj) }

/-- The house-cycle counters of throttling, for one house cycle (R422, R424, R425). -/
def throttleTick (m : Mod) : Mod :=
  (List.range 8).foldl (fun m d =>
    let x := gafAt m d
    let m := if x.kth < 16 then satReg m (rGafThrTherm d) 48 1 else m
    if fld m (rGafFreq d) 12 8 < 16 ∨ x.curGated then satReg m (rGafThrPwr d) 48 1 else m) m

/-! ## The rows -/

/-- The drain condition is met (R413). -/
def execDrainQuiet (k : Cluster) (s : State) : Host.Outcome State Fault Refusal := .next (s.onMod (drainQuiet k.val))

/-- The drain deadline expires (R415). -/
def execDrainDeadline (k : Cluster) (s : State) : Host.Outcome State Fault Refusal := .next (s.onMod (drainDeadline k.val))

/-- Entry into a rung completes (R414). -/
def execRungEntryDone (k : Cluster) (s : State) : Host.Outcome State Fault Refusal := .next (s.onMod (rungEntered k.val))

/-- hold_idle quiet cycles have passed (R416). -/
def execAutoHoldIdle (k : Cluster) (s : State) : Host.Outcome State Fault Refusal := .next (s.onMod (autoHold k.val))

/-- still_idle further quiet cycles have passed (R416). -/
def execAutoStillIdle (k : Cluster) (s : State) : Host.Outcome State Fault Refusal := .next (s.onMod (autoStill k.val))

/-- A REST window ends (R256). -/
def execRestWindowEnd (k : Cluster) (s : State) : Host.Outcome State Fault Refusal := .next (s.onMod (restEnd k.val))

/-- Standby entry completes (R420). -/
def execStandbyEntryDone (s : State) : Host.Outcome State Fault Refusal := .next (s.onMod standbyEntered)

/-- Standby has been left (R421). -/
def execStandbyExitDone (s : State) : Host.Outcome State Fault Refusal := .next (s.onMod standbyLeft)

/-- A clock step completes (R409). -/
def execFreqStepDone (d : Die) (s : State) : Host.Outcome State Fault Refusal := .next (s.onMod (freqStep d.val))

/-- 100 µs at or above throttle (R422). -/
def execThermalStepDown (d : Die) (s : State) : Host.Outcome State Fault Refusal := .next (s.onMod (thermalDown d.val))

/-- 1 ms at or below throttle − hyst (R422). -/
def execThermalStepUp (d : Die) (s : State) : Host.Outcome State Fault Refusal := .next (s.onMod (thermalUp d.val))

/-- The MMC samples the input power (R424). -/
def execPowerSample (avg1ms avg100ms avg1s : Nat) (s : State) : Host.Outcome State Fault Refusal :=
  .next (s.onMod (powerSample avg1ms avg100ms avg1s))

/-- The input current exceeds 400 A (R425). -/
def execCurrentOverLimit (peak : Nat) (s : State) : Host.Outcome State Fault Refusal := .next (s.onMod (currentOver peak))

/-- The fast current limit ends (R425). -/
def execCurrentLimitRelease (s : State) : Host.Outcome State Fault Refusal := .next (s.onMod currentRelease)

/-- A bay's current is sampled (R425). -/
def execBayCurrentSample (b : Bay) (avg : W16) (mJ : Nat) (s : State) : Host.Outcome State Fault Refusal :=
  .next (s.onMod (bayCurrent b.val avg mJ))

end Sys2Proof.Machine
end

