-- ==== Sys2Proof/Machine/Reliability.lean ====
section
/-!
DEFINITION. Redundancy, repair, screen test, wear and telemetry rows (16_reliability.md R428 to R456, R512).
-/
namespace Sys2Proof.Machine

/-! ## The repair map (R428 to R435) -/

def recKind (x : W64) : Nat := bits x 63 60
def recDie (x : W64) : Nat := bits x 57 54
def recRow (x : W64) : Nat := bits x 53 49
def recCol (x : W64) : Nat := bits x 48 44
def recPending (x : W64) : Bool := bit x 58

/-- The writable fields of a record. -/
def recCore (x : W64) : W64 := put x 59 58 0

/-- A record is valid (R432). -/
def recValid (x : W64) : Bool :=
  let kind := recKind x
  let cs := bit x 33
  decide (1 ≤ kind) && decide (kind ≤ 4) && decide (recDie x ≤ 7) && decide (recRow x ≤ 24) && decide (recCol x ≤ 25)
    && decide (bits x 39 34 ≤ (if cs then 63 else 8))
    && decide (bits x 32 22 ≤ (match kind with | 1 => 511 | 2 => 287 | 3 => 16 | _ => 2047))
    && decide (bits x 21 0 = 0) && (!cs || bits x 43 40 == 0) && (kind != 4 || bits x 43 40 == 0)

/-- Every record, production then in-field. -/
def repMap (m : Mod) : List W64 := m.production ++ m.infield

/-- REPAIR_STAT follows the regions. -/
def repStat (m : Mod) : Mod := wrN m rRepStat (m.production.length + m.infield.length * 65536)

/-- The physical column retired in a row of a die by the records in effect (R430, R434). -/
def retiredCol (m : Mod) (d row : Nat) : Option Nat :=
  ((repMap m).find? (fun x => recKind x == 4 && !recPending x && recDie x == d && recRow x == row)).map recCol

/-- The logical cluster index of a physical position (R430): row shift past a retired column; the retired or unused position
names the last column. -/
def logicalOf (m : Mod) (d row col : Nat) : Nat :=
  25 * row + min 24 (match retiredCol m d row with | some r => if col < r then col else col - 1 | none => col)

/-- The physical column of a logical cluster. -/
def physicalOf (m : Mod) (k : Nat) : Nat :=
  let col := k % 625 % 25
  match retiredCol m (k / 625) (k % 625 / 25) with | some r => if col < r then col else col + 1 | none => col

/-- A record concerns a cluster. -/
def recOf (m : Mod) (k : Nat) (x : W64) : Bool :=
  recDie x == k / 625 && recRow x == k % 625 / 25 && recCol x == physicalOf m k

/-- What the resolution of R433 has assigned so far: spares used by array and kind, left-out columns, retired clusters by row,
exhausted rows, and retirements to add. -/
structure Resolve where
  spares : List (Nat × Nat)
  columns : List (Nat × Nat)
  retired : List (Nat × Nat)
  exhausted : List Nat
  add : List W64

/-- The retirement record of a record's cluster, in-field and pending. -/
def retireRec (x : W64) : W64 :=
  BitVec.ofNat 64 (4 * 2 ^ 60 + 3 * 2 ^ 58 + recDie x * 2 ^ 54 + recRow x * 2 ^ 49 + recCol x * 2 ^ 44)

/-- One record of the resolution (R433). -/
def resolveStep (r : Resolve) (x : W64) : Resolve :=
  let retire : Resolve := { r with add := if r.add.contains (retireRec x) then r.add else r.add ++ [retireRec x] }
  match recKind x with
  | 1 | 2 =>
    let key := recKind x + 4 * bits x 57 33
    let used := (r.spares.filter (fun e => e.1 == key)).length
    if r.spares.contains (key, bits x 32 22) then r
    else if used < 2 then { r with spares := (key, bits x 32 22) :: r.spares } else retire
  | 3 =>
    let key := bits x 57 40
    match r.columns.find? (fun e => e.1 == key) with
    | none => { r with columns := (key, bits x 32 22) :: r.columns }
    | some e => if e.2 = bits x 32 22 ∨ e.2 = 16 then { r with columns := (key, bits x 32 22) :: r.columns } else retire
  | _ =>
    let row := 32 * recDie x + recRow x
    match r.retired.find? (fun e => e.1 == row) with
    | none => { r with retired := (row, recCol x) :: r.retired }
    | some e => if e.2 = recCol x then r else { r with exhausted := row :: r.exhausted }

/-- The resolution of a list of records. -/
def resolve (xs : List W64) : Resolve := xs.foldl resolveStep ⟨[], [], [], [], []⟩

/-- Stores an in-field record: if the region is full the addition is not stored (R433). Its event names the cluster, which is
then suspect (R435). -/
def repStore (m : Mod) (x : W64) : Mod :=
  if 4096 ≤ m.infield.length then
    raise (setBit m rRepErr 3) (telemEv 8 13 2 .error (leBytes 8 x.toNat))
  else
    let d := recDie x
    let m := repStat { m with infield := m.infield ++ [x] }
    raise m (telemEv 8 13 3 .error ([BitVec.ofNat 8 d] ++ leBytes 2 (logicalOf m d (recRow x) (recCol x)) ++ List.replicate 5 0
      ++ leBytes 8 x.toNat))

/-- The MMC resolves the map: retirements it adds are appended, and an exhausted row sets its error bit (R431, R433). -/
def repResolve (m : Mod) : Mod :=
  let r := resolve (repMap m)
  let new := r.add.filter (fun x => !(repMap m).any (fun y => recCore y == recCore x))
  let m := new.foldl repStore m
  if (resolve (repMap m)).exhausted.isEmpty then m else setBit m rRepErr 2

/-- Adds an in-field record (R432): an invalid one is refused, one already present is not added. -/
def repAdd (m : Mod) (x : W64) : Mod :=
  if !recValid (recCore x) then setBit m rRepErr 1
  else if (repMap m).any (fun y => recCore y == recCore x) then m
  else repResolve (repStore m (put (recCore x) 59 58 3))

/-- Records of kind 1 to 3 of a cluster take effect at its reload (R434). -/
def repReload (m : Mod) (k : Nat) : Mod :=
  { m with infield := m.infield.map (fun x => if recKind x < 4 && recOf m k x then put x 58 58 0 else x) }

/-- The bays with an exhausted row among records in effect at a module reset (R431): row 32 × die + prow lies in bay prow / 5. -/
def bayOkMask (m : Mod) : Nat :=
  let bad := (resolve (repMap m)).exhausted
  (List.range 40).foldl (fun a b =>
    if bad.any (fun row => row / 32 == b / 5 && row % 32 / 5 == b % 5) then a else a + 2 ^ b) 0

/-- A module reset: every record takes effect (R434). -/
def repReset (m : Mod) : Mod :=
  let m := repResolve m
  let m := { m with infield := m.infield.map (fun x => put x 58 58 0) }
  wrN (repStat m) rRepBayOk (bayOkMask m)

/-- A cluster has a pending record of kind 1 to 3. -/
def repPending (m : Mod) (k : Nat) : Bool := m.infield.any (fun x => recPending x && decide (recKind x < 4) && recOf m k x)

/-- A write of 2 to REPAIR_CMD: free clusters with pending records go through Dark and back (R435). -/
def repApply (m : Mod) : Mod :=
  (List.range 5000).foldl (fun m k =>
    if m.infield.any recPending && repPending m k && (partOfCluster m k).isNone then
      if rungBlocked m k then m else clRequest (setCl m k { clAt m k with reload := true }) k 5
    else m) m

/-- A write of REPAIR_CMD. -/
def repCommand (m : Mod) (cmd : Nat) : Mod :=
  match cmd with
  | 1 => repAdd m (rd m rRepNew)
  | 2 => repApply m
  | 3 => setBit m rRepErr 0
  | _ => m

/-- The record that REPAIR_SEL selects. -/
def repSelected (m : Mod) : Nat :=
  let l := if fld m rRepSel 12 12 = 1 then m.infield else m.production
  (l.getD (fld m rRepSel 11 0) 0).toNat

/-- A cluster's exit completes; from Dark its reload applies pending records (R411, R434). -/
def rungExitRow (k cycles : Nat) (m : Mod) : Mod :=
  rungExited k cycles (if clPhase m k = 3 ∧ clRung m k = 5 then repReload m k else m)

/-! ## Memory errors (R436 to R439, R445) -/

/-- Word lines corrected at three or more distinct addresses within 24 h are given a word-line record (R439); `corrected`
holds word line, address and house-clock count of corrections. -/
def noteCorrection (m : Mod) (wl : W64) (addr : Nat) : Mod :=
  let key := (recCore wl).toNat
  let recent := m.corrected.filter (fun e => decide (m.hclk < e.2.2 + 24 * 3600 * 50000000))
  let log := (key, addr, m.hclk) :: recent
  let same := log.filter (fun e => e.1 == key)
  let distinct := (same.map (·.2.1)).eraseDups.length
  let again := (same.filter (fun e => e.2.1 == addr)).length
  let m := { m with corrected := log }
  if (3 ≤ distinct ∨ 3 ≤ again) ∧ !(repMap m).any (fun y => recCore y == recCore wl) then
    repResolve (repStore (raise m (telemEv 8 13 1 .warning (leBytes 8 (put (recCore wl) 59 58 3).toNat))) (put (recCore wl) 59 58 3))
  else m

/-- A correction that a store's ECC reports (unit 3, code 0x01, R439): REPAIR_CE of the die, and for the local and instruction
stores and the bank of a cluster store, whose macros Table 16.1 places in address order (log 22), the word-line count. -/
def storeCorrection (m : Mod) (e : TelemEv) : Mod :=
  let d := e.src.toNat / 16
  let m := if d < 8 then satReg m (rRepCe d) 48 1 else m
  let store := (e.detail.getD 0 0).toNat
  let cl := leNat ((e.detail.drop 1).take 2)
  let core := (e.detail.getD 3 0).toNat
  let addr := leNat ((e.detail.drop 4).take 4)
  if 7 < d ∨ 625 ≤ cl ∨ 15 < core ∨ 2 < store then m else
  let inBank := addr % 0x100000 / 1024 * 64 + addr % 64
  let mac := if store = 0 then addr / 16384 % 8 else if store = 1 then 8 else addr / 64 % 16 * 4 + inBank / 16384
  let off := if store = 2 then inBank else addr
  let wl : W64 := BitVec.ofNat 64 (2 ^ 60 + d * 2 ^ 54 + cl / 25 * 2 ^ 49 + physicalOf m (625 * d + cl) * 2 ^ 44
    + (if store = 2 then 0 else core) * 2 ^ 40 + mac * 2 ^ 34 + b2n (store == 2) * 2 ^ 33 + off % 16384 / 32 * 2 ^ 22)
  noteCorrection m wl (addr / 8)

/-- The module address of a line of a stack (R234). -/
def stackAddr (i line : Nat) : Nat :=
  let off := 64 * line
  i / 2 * 0x1800000000 + off / 256 * 512 + i % 2 * 256 + off % 256

/-- A wear gauge; key: cluster, 10000 + stack, 20000 + port. -/
def gaugeAt (m : Mod) (key : Nat) : Gauge := sget (fun _ => Gauge.reset) m.gauges key

/-- Sets a wear gauge. -/
def setGauge (m : Mod) (key : Nat) (v : Gauge) : Mod := { m with gauges := sset (fun _ => Gauge.reset) m.gauges key v }

/-- A correction in HBM counts in WEAR_HBM of its stack for 30 days (R439, R447). -/
def hbmCount (m : Mod) (i a : Nat) : Mod :=
  let g := gaugeAt m (10000 + i)
  let m := setGauge m (10000 + i) { g with seen := (a, g.secs) :: g.seen }
  setFld m (rWearHbm i) 31 0 (satAdd 32 (fld m (rWearHbm i) 31 0) 1)

/-- A correctable error in HBM (R439): written back corrected, counted and traced. -/
def hbmCorrected (i : Nat) (m : Mod) (line : Nat) : Mod :=
  let a := stackAddr i line
  raise (hbmCount m i a) (telemEv (i / 2) 4 1 .trace ([BitVec.ofNat 8 i] ++ List.replicate 7 0 ++ leBytes 8 a))

/-- An uncorrectable error that the patrol finds (R445); what reads the line before it is written meets it too (log 34). -/
def hbmUncorrected (i : Nat) (m : Mod) (line : Nat) : Mod :=
  let a := stackAddr i line
  let m := eccStrike (eccStrike (satReg m (rWearHbmUe i) 32 1) 2 a) 2 (a + 32)
  match hbmOwner m (a / 2 ^ 30) with
  | some p => contained m p (i / 2) none 0 0 a false
  | none => raise m (telemEv (i / 2) 4 2 .warning ([BitVec.ofNat 8 i] ++ List.replicate 7 0 ++ leBytes 8 a))

/-- A burst of 64 lines of the HBM patrol, its stack's arbiter in Test until the house clock's next tick (R276, R445, log 37); the
patrol of a stack ends with its last line. -/
def hbmPatrol (i line : Nat) (ce ue : List Nat) (m : Mod) : Mod :=
  if fld m rScrCtl 3 3 = 0 ∨ fld m rScrCtl 0 0 = 0 then m else
  let inb (l : Nat) : Bool := decide (line ≤ l) && decide (l < line + 64) && decide (l < 805306368)
  let m := (ce.filter inb).foldl (hbmCorrected i) (arbTest m (7 * (i / 2) + i % 2))
  let m := (ue.filter inb).foldl (hbmUncorrected i) m
  if 805306368 ≤ line + 64 then
    let done := if m.patrolled.contains i then m.patrolled else i :: m.patrolled
    if done.length = 16 then incReg { m with patrolled := [] } rScrHbmPass 1 else { m with patrolled := done }
  else m

/-! ## Screen test (R440 to R444) -/

/-- Steps of a pass (Table 16.4): march, array, vector and registers, dolly. -/
def passSteps : Nat := 3328 + 272 + 16 + 1

/-- The kind of a step: 0 march, 1 array, 2 vector and registers, 3 dolly. -/
def stepKind (n : Nat) : Nat := if n < 3328 then 0 else if n < 3600 then 1 else if n < 3616 then 2 else 3

/-- A cluster may be acquired (R193, R441). -/
def screenEligible (m : Mod) (k : Nat) : Bool :=
  match partOfCluster m k with
  | some p => (clAt m k).screenCue.isSome && fld m rScrCtl 1 1 == 1 && clQuiet m k && fld m (rPartCtl p) 0 0 == 0
  | none => fld m rScrCtl 2 2 == 1

/-- The clusters of bay `b` of die `d`. -/
def bayClusters (d b : Nat) : List Nat := natsFrom (625 * d + 125 * b) 125

/-- The screen test acquires the cluster of a bay whose last pass is oldest (R441); the cluster stays at Rolling while held. -/
def screenAcquire (d b : Nat) (m : Mod) : Mod :=
  let ks := bayClusters d b
  if fld m rScrCtl 0 0 = 0 ∨ ks.any (fun k => (clAt m k).screenHeld) then m else
  let elig := ks.filter (screenEligible m)
  let oldest := (elig.map (fun k => (clAt m k).lastPass)).foldl min ((elig.map (fun k => (clAt m k).lastPass)).headD 0)
  match elig.find? (fun k => (clAt m k).lastPass == oldest) with
  | none => m
  | some k =>
    let m := wake m k
    incReg (setCl m k { clAt m k with screenHeld := true }) rScrStat 1

/-- The screen test lets go of a cluster; one that belongs to no partition goes back to its free rung (R418). -/
def screenDrop (m : Mod) (k : Nat) : Mod :=
  let m := setFld (setCl m k { clAt m k with screenHeld := false }) rScrStat 8 0 (fld m rScrStat 8 0 - 1)
  if (partOfCluster m k).isNone then clRequest m k (freeRung m (k / 625)) else m

/-- A step of a pass completes (R440, R444): a defect adds its record; the last step completes the pass. -/
def screenStep (k : Nat) (defect : Option W64) (m : Mod) : Mod :=
  let x := clAt m k
  if !x.screenHeld ∨ !clRolling m k then m else
  let kind := stepKind x.screenStep
  let m := match defect with
    | none => m
    | some r =>
      let ok := recValid (recCore r) && recOf m k r
        && (match kind with | 0 => recKind r == 1 || recKind r == 2 | 1 => recKind r == 3 | _ => recKind r == 4)
      if !ok then m else
      let m := setBit (satReg m rScrDefects 32 1) rScrErr 0
      let m := repAdd m r
      raise m (telemEv (k / 625) 12 1 .error (leBytes 2 (k % 625) ++ [BitVec.ofNat 8 kind] ++ List.replicate 5 0
        ++ leBytes 8 (put (recCore r) 59 58 3).toNat))
  if x.screenStep + 1 = passSteps then
    let m := setCl m k { clAt m k with screenStep := 0, lastPass := m.hclk }
    screenDrop (satReg m rScrPasses 48 1) k
  else setCl m k { clAt m k with screenStep := x.screenStep + 1 }

/-- A wake releases a held cluster before its pass completes (R443). -/
def screenRelease (k : Nat) (m : Mod) : Mod :=
  if (clAt m k).screenHeld then screenDrop (satReg m rScrAborts 32 1) k else m

/-- A SCREEN window ends, and the cluster it let the screen test hold is released; where its cue or its run has ended it before,
this is the release (R256, R443). -/
def screenWindowEnd (k : Nat) (m : Mod) : Mod :=
  let m := if (clAt m k).screenCue.isSome then setCl m k { clAt m k with screenCue := none } else m
  if (clAt m k).screenHeld && (partOfCluster m k).isSome then screenDrop m k else m

/-! ## Wear (R446 to R448) -/

/-- The largest r below 2^n with r^160 at most 2^e. -/
def root160 (e : Nat) : Nat → Nat → Nat
  | 0, r => r
  | n + 1, r => root160 e n (if (r + 2 ^ n) ^ 160 ≤ 2 ^ e then r + 2 ^ n else r)

/-- 2^((T − 70) / 10) in units of 2^-32, rounded down; T in 1/16 °C (R446). -/
def wearRate (t : Int) : Nat := root160 (5120 + t - 1120).toNat 48 0

/-- The rated life in units of 2^-32 equivalent seconds (R446). -/
def ratedLife (m : Mod) : Nat := fld m rWearCfg 31 16 * 3600000 * 2 ^ 32

/-- used in 1/65,536, saturating. -/
def usedOf (m : Mod) (g : Gauge) : Nat :=
  if ratedLife m = 0 then 65535 else min 65535 (g.g * 65536 / ratedLife m)

/-- Predicted remaining days (R447): (1 − used) over the mean daily increase of the last 30 days, to the second within the first 30
days of data and from then on of the 30 whole days before the last day's end (log 22). -/
def remainingDays (m : Mod) (g : Gauge) : Nat :=
  let whole := decide (31 ≤ g.days.length)
  let rise := if whole then g.days.headD 0 - g.days.getLastD 0 else g.g
  let span := if whole then 30 * 86400 else g.secs
  if g.secs < 86400 ∨ rise = 0 then 0xFFFF
  else
    let r := (ratedLife m - g.g) * span / (rise * 86400)
    if 65534 < r then 0xFFFF else r

/-- One second of a gauge, with the shown registers and the events of R448. `err` caps the prediction at err_days. -/
def gaugeTick (m : Mod) (key object die index : Nat) (rate : Nat) (cap : Bool) (sh : Mod → Nat → Nat → Mod) : Mod :=
  let g := gaugeAt m key
  let g := { g with g := g.g + rate, secs := g.secs + 1 }
  let g := if g.secs % 86400 = 0 then { g with days := (g.g :: g.days).take 31 } else g
  let days := remainingDays m g
  let days := if cap then min days (fld m rWearCfg 7 0) else days
  let used := usedOf m g
  let detail := [BitVec.ofNat 8 object, BitVec.ofNat 8 die] ++ leBytes 2 index ++ leBytes 2 days
  let warn := decide (days ≤ fld m rWearCfg 15 8 ∨ ratedLife m * 9 ≤ g.g * 10) && !g.warned
  let err := decide (days ≤ fld m rWearCfg 7 0) && !g.erred
  let m := setGauge m key { g with warned := g.warned || warn, erred := g.erred || err }
  let m := if warn then raise m (telemEv 8 13 4 .warning detail) else m
  let m := if err then raise m (telemEv 8 13 5 .error detail) else m
  sh m days used

/-- An array of a cluster has its spare column in use, and the screen test has found a second column failing (R447, log 22). -/
def arrayMarginal (m : Mod) (k : Nat) : Bool :=
  let cols := (repMap m).filter (fun x => recKind x == 3 && recOf m k x)
  cols.any (fun x => !recPending x && cols.any (fun y => bit y 59 && bits y 43 40 == bits x 43 40 && bits y 32 22 != bits x 32 22))

/-- The corrections of a stack that are older than 30 days no longer count (R447). -/
def hbmForget (m : Mod) (i : Nat) : Mod :=
  let g := gaugeAt m (10000 + i)
  let seen := g.seen.filter (fun e => decide (g.secs < e.2 + 30 * 86400))
  if seen.length = g.seen.length then m
  else setFld (setGauge m (10000 + i) { g with seen := seen }) (rWearHbm i) 31 0 (min m32 seen.length)

/-- One second of every gauge (R446); temperatures in 1/16 °C. A cluster, stack or port counts the whole second by its state
at the tick (log 22). -/
def wearTick (temps stackTemps : List Int) (hubTemp : Int) (m : Mod) : Mod :=
  let cols := (repMap m).any (fun x => recKind x == 3)
  let m := (List.range 5000).foldl (fun m k =>
    let rate := if clRung m k ≤ 1 then wearRate (temps.getD (k / 625) 0) else 0
    gaugeTick m k 0 (k / 625) (k % 625) rate (cols && arrayMarginal m k) (fun m d u => wrN m (rWearCl k) (u + d * 65536))) m
  let m := (List.range 16).foldl (fun m i =>
    let rate := if modState m = 0 then wearRate (stackTemps.getD i 0) else 0
    let m := hbmForget m i
    gaugeTick m (10000 + i) 1 (i / 2) i rate (decide (1000 ≤ ((gaugeAt m (10000 + i)).seen.map (·.1)).eraseDups.length))
      (fun m d u => setFld (setFld m (rWearHbm i) 63 48 d) (rWearHbm i) 47 32 u)) m
  (List.range 6).foldl (fun m q =>
    let x : PortSt := sget (fun _ => PortSt.reset) m.ports q
    let now := ((rd m (rPortCorr q)).toNat, x.symbols)
    let from_ := if x.hourMarks.length < 3600 then (0, 0) else x.hourMarks.getLastD (0, 0)
    let corr := now.1 - from_.1
    let syms := now.2 - from_.2
    let m := { m with ports := sset (fun _ => PortSt.reset) m.ports q { x with hourMarks := (now :: x.hourMarks).take 3600 } }
    let m := setFld m (rWearLink q) 31 0 (min (2 ^ 32 - 1) corr)
    gaugeTick m (20000 + q) 2 8 q (if portState m q = 3 then wearRate hubTemp else 0) (decide (syms < corr * 100000))
      (fun m d u => setFld (setFld m (rWearLink q) 63 48 d) (rWearLink q) 47 32 u)) m

/-- The gauges are saved to the non-volatile store (R448). -/
def wearSave (m : Mod) : Mod := { m with savedGauges := m.gauges }

/-! ## Telemetry (R449 to R455) -/

/-- The class of a unit's code and the detail bytes the table names, by first byte (from byte 40) and length (Table 16.5a). -/
def telemCode (unit code : Nat) : Option (EvClass × List (Nat × Nat)) :=
  match unit, code with
  | 0, 1 => some (.warning, [(0, 3)])
  | 0, 2 => some (.error, [(0, 3)])
  | 0, 3 => some (.alarm, [(0, 4)])
  | 0, 4 => some (.warning, [(0, 2)])
  | 1, 1 => some (.error, [(0, 12)])
  | 2, 1 => some (.warning, [(0, 2), (4, 12)])
  | 3, 1 => some (.trace, [(0, 8)])
  | 3, 2 => some (.error, [(0, 9)])
  | 3, 3 => some (.alarm, [(0, 1), (8, 8)])
  | 4, 1 => some (.trace, [(0, 1), (8, 8)])
  | 4, 2 => some (.warning, [(0, 1), (8, 8)])
  | 4, 3 => some (.error, [(0, 1)])
  | 4, 4 => some (.warning, [(0, 1), (4, 4)])
  | 6, 1 => some (.warning, [(0, 2), (8, 8)])
  | 7, 1 => some (.warning, [(0, 5)])
  | 8, 1 | 8, 2 => some (.warning, [(0, 1), (4, 4)])
  | 8, 3 => some (.error, [(0, 1), (4, 12)])
  | 9, 1 => some (.error, [(0, 2)])
  | 10, 1 => some (.warning, [(0, 3), (8, 8)])
  | 11, 1 => some (.alarm, [(0, 1), (8, 8)])
  | 12, 1 => some (.error, [(0, 3), (8, 8)])
  | 13, 1 => some (.warning, [(0, 8)])
  | 13, 2 => some (.error, [(0, 8)])
  | 13, 3 => some (.error, [(0, 3), (8, 8)])
  | 13, 4 => some (.warning, [(0, 6)])
  | 13, 5 => some (.error, [(0, 6)])
  | 14, 1 => some (.alarm, [(0, 12)])
  | 14, 2 => some (.error, [])
  | 14, 3 => some (.warning, [])
  | 14, 4 => some (.warning, [(0, 12)])
  | 15, 1 | 15, 3 => some (.alarm, [])
  | 15, 2 => some (.alarm, [(0, 4)])
  | 15, 4 => some (.alarm, [(0, 1)])
  | _, _ => none

/-- An event that the module can raise: its die is 0 to 8 (R17), its code is listed with its class, and bytes the table does not
name read zero (R449, R512); any other is never raised. -/
def telemListed (e : TelemEv) : Option TelemEv :=
  let unit := e.src.toNat % 16
  if 8 < e.src.toNat / 16 then none else
  match telemCode unit e.code.toNat with
  | none => none
  | some (c, named) =>
    if c ≠ e.cls then none
    else some { e with detail := (List.range 24).map (fun i =>
      if named.any (fun n => decide (n.1 ≤ i) && decide (i < n.1 + n.2)) then e.detail.getD i 0 else 0) }

/-- A field of an event's detail. -/
def evField (e : TelemEv) (i n : Nat) : Nat := leNat ((e.detail.drop i).take n)

/-- What an event of the memories tells besides: a correction counts (R439), a contained error fails its partition's take (R437), and
an uncorrectable error of a stack counts in WEAR_HBM_UE. -/
def telemAct (e : TelemEv) (m : Mod) : Mod :=
  match e.src.toNat % 16, e.code.toNat with
  | 3, 1 => storeCorrection m e
  | 3, 2 => if evField e 8 1 < 12 then noteFailure m (evField e 8 1) 3 else m
  | 4, 1 => if evField e 0 1 < 16 then hbmCount m (evField e 0 1) (evField e 8 8) else m
  | 4, 2 => if evField e 0 1 < 16 then satReg m (rWearHbmUe (evField e 0 1)) 32 1 else m
  | _, _ => m

/-- An agent raises a telemetry event that is not an alarm. -/
def telemRow (e : TelemEv) (m : Mod) : Mod :=
  if e.cls = .alarm then m else
  match telemListed e with
  | some e => telemAct e (raise m e)
  | none => m

/-- flush ms have passed since the first event of a coalesced entry (R452). -/
def telemFlush (src : Byte) (cls : EvClass) (m : Mod) : Mod :=
  { m with telemQ := m.telemQ.map (fun t => if t.coalesced ∧ t.ev.src = src ∧ t.ev.cls = cls then { t with closed := true } else t) }

/-- The head of the queue goes into the PF's ring, which has space (R450, R455). -/
def telemDrain (m : Mod) : Mod :=
  match m.telemQ with
  | t :: q =>
    if ringSpace m.modEq && !someWait m none then
      telemStat { eventWrite m none (telemBytes t m.hclk) with telemQ := closeHead q }
    else m
  | [] => m

/-- An alarm is raised (R453); the uncontained errors of R438 act with theirs. -/
def alarmRow (e : TelemEv) (m : Mod) : Mod :=
  match telemListed { e with cls := .alarm } with
  | some e =>
    let m := raiseAlarm m e
    if e.src.toNat % 16 = 3 ∧ e.code = 3 then uncontain m else m
  | none => m

/-! ## The rows -/

/-- A cluster returns to Rolling (R411, R419, R434); the fast-clock cycles since its wake are the event's. -/
def execRungExitDone (k : Cluster) (cycles : W64) (s : State) : Host.Outcome State Fault Refusal :=
  .next (s.onMod (rungExitRow k.val cycles.toNat))

/-- The screen test acquires a cluster of a bay (R441). -/
def execScreenAcquire (d : Die) (bay : Fin 5) (s : State) : Host.Outcome State Fault Refusal :=
  .next (s.onMod (screenAcquire d.val bay.val))

/-- A step of the screen test completes (R440, R444). -/
def execScreenStepDone (k : Cluster) (defect : Option W64) (s : State) : Host.Outcome State Fault Refusal :=
  .next (s.onMod (screenStep k.val defect))

/-- The screen test releases a cluster at a wake (R443). -/
def execScreenRelease (k : Cluster) (s : State) : Host.Outcome State Fault Refusal := .next (s.onMod (screenRelease k.val))

/-- A SCREEN window ends (R256). -/
def execScreenWindowEnd (k : Cluster) (s : State) : Host.Outcome State Fault Refusal := .next (s.onMod (screenWindowEnd k.val))

/-- A burst of the HBM patrol (R445). -/
def execHbmPatrolBurst (i : Stack) (line : Nat) (ce ue : List Nat) (s : State) : Host.Outcome State Fault Refusal :=
  .next (s.onMod (hbmPatrol i.val line ce ue))

/-- One second of wear (R446). -/
def execWearTick (temps stackTemps : List Int) (hubTemp : Int) (s : State) : Host.Outcome State Fault Refusal :=
  .next (s.onMod (wearTick temps stackTemps hubTemp))

/-- The gauges are saved (R448). -/
def execWearSave (s : State) : Host.Outcome State Fault Refusal := .next (s.onMod wearSave)

/-- A telemetry event is raised (R449, R451). -/
def execTelemEvent (e : TelemEv) (s : State) : Host.Outcome State Fault Refusal := .next (s.onMod (telemRow e))

/-- A coalesced entry closes (R452). -/
def execTelemFlush (src : Byte) (cls : EvClass) (s : State) : Host.Outcome State Fault Refusal :=
  .next (s.onMod (telemFlush src cls))

/-- The head of the telemetry queue is written (R450). -/
def execTelemQueueDrain (s : State) : Host.Outcome State Fault Refusal := .next (s.onMod telemDrain)

/-- An alarm is raised (R453). -/
def execAlarmRaise (e : TelemEv) (s : State) : Host.Outcome State Fault Refusal := .next (s.onMod (alarmRow e))

/-- An alarm copy that waits is written into the PF's ring (R453). -/
def execAlarmCopy (s : State) : Host.Outcome State Fault Refusal := .next (s.onMod (alarmCopy 1))

end Sys2Proof.Machine
end

