-- ==== Sys2Proof/Machine/Storyboard.lean ====
section
/-!
DEFINITION. Memory tiers and the storyboard (09_memory_tiers.md R236 to R262): far tier, carve-outs and pinned granules,
storyboard engines and far-tier movers.
-/
namespace Sys2Proof.Machine

/-! ## Far tier (R237 to R239) -/

/-- The size the configuration gives, or none where R239 calls it invalid; source 0 gives 0. -/
def farCheck (m : Mod) : Option Nat :=
  let ps := farPorts m
  match fld m rFarCfg 1 0 with
  | 0 => some 0
  | 1 =>
    if ps.length ≠ 1 ∧ ps.length ≠ 2 ∧ ps.length ≠ 4 then none
    else if ps.any (fun q => fld m (rCxlStat q) 8 8 == 0) then none
    else
      let caps := ps.map (fun q => fld m (rCxlStat q) 31 16)
      some (min (4 * 2 ^ 40) (ps.length * caps.foldl min (caps.headD 0) * 2 ^ 30))
  | 2 =>
    let h := (rd m rFarHsize).toNat
    if h = 0 ∨ h % 2 ^ 30 ≠ 0 ∨ 4 * 2 ^ 40 < h then none else some h
  | _ => none

/-- The lock of MEM_FAR_CFG is written 1 (R239). -/
def farLock (m : Mod) : Mod :=
  let m := setBit m rFarCfg 31
  match farCheck m with
  | some n => wrN m rFarSize n
  | none => wrN (setBit m rFarCfg 30) rFarSize 0

/-! ## Migration (R242 to R248) -/

/-- Slots of a cluster's carve-out: 32 for each unit, 9 to 15 acting as 8 (Table 9.12). -/
def carveSlots (m : Mod) (k : Nat) : Nat := 32 * min 8 (fld m (rClCarve k) 3 0)

/-- MEM_MIG_USED of the die and MEM_CL_CARVE.used of the cluster follow its slots. -/
def slotsCount (m : Mod) (k : Nat) (was : Nat) : Mod :=
  let now := (slotsUsed m k).length
  setFld (wrN m (rMigUsed (k / 625)) ((rd m (rMigUsed (k / 625))).toNat + now - was)) (rClCarve k) 24 16 now

/-- A write of MEM_CL_CARVE.size (R247). -/
def carveWrite (m : Mod) (k val : Nat) : Mod :=
  if (slotsUsed m k).isEmpty then setFld m (rClCarve k) 3 0 val else setBit m (rMigErr (k / 625)) 1

/-- The key of the first byte of a pinned granule's slot. -/
def slotKey (m : Mod) (k slot : Nat) : Nat := nearAddr k + carveBase m k + 2048 * slot

/-- The storyboard entry that waits for a granule takes note (R252). -/
def sbGranule (m : Mod) (e run index : Nat) : Mod :=
  let x := sbAt m e
  sbSettle (setSb m e { x with out := x.out.map (fun o =>
    if o.index = index ∧ o.run = run then { o with granules := o.granules - 1 } else o) }) e

/-- A PIN of a granule of HBM into a cluster (R243, R244): a job, or a refusal, or nothing. A cluster on its way to Dark goes to
Vault instead (R248). -/
def pinGranule (m : Mod) (g k e index : Nat) : Mod × Bool :=
  let d := k / 625
  let refuse : Mod × Bool := (setBit (satReg m (rMigRefused d) 32 1) (rMigErr d) 0, false)
  let held : Option Nat := match sget (fun _ => (none : Option Pin)) m.pins g with
    | some p => some p.cluster
    | none => (m.migQ.find? (fun (j : MigJob) => j.pin && j.granule == g)).map (fun (j : MigJob) => j.cluster)
  match held with
  | some k2 => if k2 = k then (m, false) else refuse
  | none =>
    let used := slotsUsed m k
    match (List.range (carveSlots m k)).find? (fun s => !used.contains s) with
    | none => refuse
    | some s =>
      let m := if clPhase m k = 1 ∧ fld m (rGafClStat k) 5 3 = 5 then setFld m (rGafClStat k) 5 3 4 else m
      (slotsCount { m with migQ := m.migQ ++ [⟨true, g, k, s, e, (sbAt m e).run, index, false⟩] } k used.length, true)

/-- A granule switches back: written back if it was written after its switch cycle (R245). -/
def unpinNow (m : Mod) (g : Nat) : Mod :=
  match sget (fun _ => none) m.pins g with
  | none => m
  | some p =>
    let was := (slotsUsed m p.cluster).length
    let key := slotKey m p.cluster p.slot
    let bs := readList m.mem key 2048
    let m := { m with pins := sset (fun _ => none) m.pins g none }
    let m := if p.written then
        satReg (eccCopy { m with mem := writeList m.mem (2048 * g) bs } key (2048 * g) 2048) (rMigWb (p.cluster / 625)) 48 2048
      else m
    slotsCount m p.cluster was

/-- An UNPIN of a granule (R245): a job while it is written back; one not written since its switch switches back at once, and an
unpinned one is left alone. -/
def unpinGranule (m : Mod) (g e index : Nat) : Mod × Bool :=
  match sget (fun _ => none) m.pins g with
  | some p =>
    if m.migQ.any (fun j => !j.pin && j.granule == g) then (m, false)
    else if !p.written then (unpinNow m g, false)
    else ({ m with migQ := m.migQ ++ [⟨false, g, p.cluster, p.slot, e, (sbAt m e).run, index, false⟩] }, true)
  | none => (m, false)

/-- The switch cycle of a pin (R243): the granule's bytes are in its slot; a write into the slot meanwhile has left them
unspecified (R247). -/
def pinNow (m : Mod) (j : MigJob) : Mod :=
  let key := slotKey m j.cluster j.slot
  let bs := if j.spoilt then (natsFrom key 2048).map (Config.carveByte m.free) else memRead m (2048 * j.granule) 2048
  let m := eccCopy { m with migQ := m.migQ.erase j, mem := writeList m.mem key bs } (2048 * j.granule) key 2048
  let m := { m with pins := sset (fun _ => none) m.pins j.granule (some ⟨j.cluster, j.slot, j.spoilt⟩) }
  sbGranule (satReg m (rMigPins (j.cluster / 625)) 48 1) j.engine j.run j.index

/-- A migration job of a cluster goes on when its store answers; an access to one below Rolling wakes it (R412). -/
def migReach (m : Mod) (k : Nat) (f : Mod → Mod) : Mod :=
  match nearMeet m 5000 (nearAddr k) with
  | .ok _ => f m
  | .wait => wake m k
  | _ => m

/-- The switch cycle of the oldest pin of a cluster (R243). -/
def pinSwitch (k : Nat) (m : Mod) : Mod :=
  match m.migQ.find? (fun j => j.pin && j.cluster == k) with
  | none => m
  | some j => if granuleBusy m (2048 * j.granule) then m else migReach m k (fun m => pinNow m j)

/-- The oldest unpin of a cluster switches back. -/
def unpinSwitch (k : Nat) (m : Mod) : Mod :=
  match m.migQ.find? (fun j => !j.pin && j.cluster == k) with
  | none => m
  | some j => if granuleBusy m (2048 * j.granule) then m else migReach m k (fun m =>
      sbGranule (unpinNow { m with migQ := m.migQ.erase j } j.granule) j.engine j.run j.index)

/-- Every granule held in the clusters of a list is unpinned with write-back, one whose pin or unpin is in progress once that is
done (R248). -/
def unpinClusters (m : Mod) (ks : List Nat) : Mod :=
  let m := (m.migQ.filter (fun j => ks.contains j.cluster)).foldl (fun m j =>
    if j.pin then pinNow m j
    else sbGranule (unpinNow { m with migQ := m.migQ.erase j } j.granule) j.engine j.run j.index) m
  (m.pins.filterMap (fun e => match e.2 with | some p => if ks.contains p.cluster then some e.1 else none | none => none)).foldl unpinNow m

/-! ## Movers (R255) -/

/-- The job of a mover. -/
def moverAt (m : Mod) (i : Nat) : Option MoverJob := sget (fun _ => none) m.movers i

/-- Sets the job of a mover. -/
def setMover (m : Mod) (i : Nat) (j : Option MoverJob) : Mod := { m with movers := sset (fun _ => none) m.movers i j }

/-- A job goes to the free mover of lowest number; none while all are busy. -/
def moverStart (m : Mod) (j : MoverJob) : Option Mod :=
  ((List.range 8).find? (fun i => (moverAt m i).isNone)).map (fun i => setMover m i (some j))

/-- The first address of a range that does not translate, by 64-byte lines, with its kind. -/
def rangeFault (m : Mod) (x va n : Nat) (write : Bool) : Option (Nat × Nat) :=
  ((List.range ((n + 63) / 64)).findSome? (fun i =>
    match translate m x (va + 64 * i) write with | .error k => some (va + 64 * i, k) | .ok _ => none))

/-- The first page fault of a job, source before destination. -/
def jobFault (m : Mod) (j : MoverJob) : Option (Nat × Nat) :=
  match rangeFault m j.ctx j.src j.len false with
  | some f => some f
  | none => rangeFault m j.ctx j.dst j.len true

/-- Refused requests of a mover are issued again (R255). -/
def moverRetry (i : Nat) (m : Mod) : Mod :=
  match moverAt m i with
  | some j => setMover m i (some { j with refused := false })
  | none => m

/-- One line of a job is copied. -/
def moverLine (j : MoverJob) (m : Mod) (i : Nat) : Mod :=
  let bs := vaBytes m j.ctx (j.src + 64 * i) 64
  vaPuts (eccRead m j.ctx (j.src + 64 * i) 64 none) j.ctx (j.dst + 64 * i) bs

/-- Lines of a job are copied; they count in MEM_MOVE_BYTES. -/
def moverLines (m : Mod) (j : MoverJob) (ls : List Nat) : Mod :=
  satReg (ls.foldl (moverLine j) m) rMoveBytes 48 (64 * ls.length)

/-- A line's request is refused or waits. -/
def lineHeld (m : Mod) (j : MoverJob) (i : Nat) : Bool :=
  rangeBusy m j.ctx (j.src + 64 * i) 64 false || rangeBusy m j.ctx (j.dst + 64 * i) 64 true

/-- The lines of a job that have yet to be copied. -/
def moverTodo (j : MoverJob) : List Nat := match j.todo with | some l => l | none => List.range (j.len / 64)

/-- A mover copies every line whose requests are not refused (R255): none is left, or the refused ones go again. -/
def moverStep (m : Mod) (i : Nat) (j : MoverJob) : Mod × Bool :=
  let ls := moverTodo j
  let left := ls.filter (lineHeld m j)
  let m := moverLines m j (ls.filter (fun l => !lineHeld m j l))
  if left.isEmpty then (setMover m i none, true)
  else
    let m := left.foldl (fun m l =>
      rangeWake (rangeWake m j.ctx (j.src + 64 * l) 64 false) j.ctx (j.dst + 64 * l) 64 true) m
    (setMover m i (some { j with todo := some left, refused := true }), false)

/-! ## Storyboard engines (R249 to R258) -/

/-- The engine's context. -/
def sbCtx (m : Mod) (e : Nat) : Nat := fld m (rSbCtl e) 27 16

/-- The entry index. -/
def sbIndex (m : Mod) (e : Nat) : Nat := fld m (rSbStat e) 19 0

/-- The run ends in Error (R258). -/
def sbError (m : Mod) (e code : Nat) : Mod :=
  let m := windowsEnd (setBit (setFld (setSbState m e 4) (rSbStat e) 27 20 code) (rSbErr e) 2) e none
  if (sbAt m e).restart then sbBegin m e else setSb m e { sbAt m e with stopping := false }

/-- A fault at an entry is recorded: address, bit, record to the context's ring (R258, Table 14.9 type 0x11). A start that waited
for a stop to end acts. -/
def sbFaulted (m : Mod) (e index va : Nat) : Mod :=
  let m := setBit (wrN m (rSbFaddr e) (va % 2 ^ 57)) (rSbErr e) 3
  let x := sbCtx m e
  let m := if ctxOf m x e then
      sendUnclassed m (some x) 0x11 17 x e (leBytes 4 index ++ leBytes 4 0 ++ leBytes 8 (va % 2 ^ 57) ++ [BitVec.ofNat 8 e])
    else m
  if (sbAt m e).restart then sbBegin m e else setSb m e { sbAt m e with stopping := false }

/-- The engine's fault (R258). -/
def sbFault (m : Mod) (e va : Nat) : Mod :=
  sbFaulted (setSbState m e 5) e (sbIndex m e) va

/-- The address of entry `i`. -/
def sbAddr (m : Mod) (e i : Nat) : Nat := fld m (rSbBase e) 56 6 * 64 + 64 * i

/-- Bytes in the engine's context; a context that is not Active of partition `e` maps nothing (kind 3). -/
def sbRead (m : Mod) (e va n : Nat) : Except (Nat × Nat) (List Byte) :=
  if ctxOf m (sbCtx m e) e then vaRead m (sbCtx m e) va n else .error (va, 3)

/-- The eight words of 64 bytes. -/
def words8 (bs : List Byte) : List W64 := (List.range 8).map (fun i => BitVec.ofNat 64 (leNat ((bs.drop (8 * i)).take 8)))

/-- Field [hi:lo] of word `i` of an entry (Table 9.6). -/
def efld (ws : List W64) (i hi lo : Nat) : Nat := bits (ws.getD i 0) hi lo

/-- The module's clusters an entry names. -/
def sbClusters (ws : List W64) : List Nat := natsFrom (625 * efld ws 4 3 0 + efld ws 4 13 4) (efld ws 4 23 14)

/-- The entry check of R258: 0, or the error code. -/
def sbCheck (m : Mod) (e : Nat) (ws : List W64) : Nat :=
  let op := efld ws 0 7 0
  let a := (ws.getD 1 0).toNat
  let b := (ws.getD 2 0).toNat
  let n := efld ws 3 31 0
  let named := op = 1 ∨ op = 5 ∨ op = 6
  let inPart (k : Nat) : Bool := partOfCluster m k == some e
  if op = 0 ∨ 7 < op ∨ efld ws 0 31 9 ≠ 0 ∨ efld ws 4 63 28 ≠ 0 ∨ [5, 6, 7].any (fun i => ws.getD i 0 != 0)
      ∨ (named ∧ (efld ws 4 23 14 = 0 ∨ 624 < efld ws 4 13 4 + efld ws 4 23 14 - 1)) ∨ (op = 3 ∧ 624 < efld ws 4 13 4) then 1
  else if (op = 1 ∧ a % 64 ≠ 0) ∨ (op = 2 ∧ (a % 64 ≠ 0 ∨ b % 64 ≠ 0 ∨ n % 64 ≠ 0 ∨ n = 0 ∨ (a < b + n ∧ b < a + n)))
      ∨ ((op = 3 ∨ op = 4) ∧ (a % 2048 ≠ 0 ∨ n % 2048 ≠ 0)) then 2
  else if (named ∨ op = 3) ∧ 7 < efld ws 4 3 0 then 3
  else if named ∧ !(sbClusters ws).all inPart then 3
  else if op = 3 ∧ !inPart (625 * efld ws 4 3 0 + efld ws 4 13 4) then 3
  else 0

/-- Updates, or begins, the record of the entry that is being dispatched. -/
def sbNote (m : Mod) (e : Nat) (f : SbOut → SbOut) : Mod :=
  let i := sbIndex m e
  let x := sbAt m e
  let out := if x.out.any (fun o => o.index == i) then x.out else x.out ++ [⟨x.run, i, [], false, 0⟩]
  setSb m e { x with out := out.map (fun o => if o.index = i then f o else o) }

/-- The entry is dispatched: the next one, or after a Resume the next whose MOVE has faulted, and then the first not yet
dispatched (R253, R257). -/
def sbAdvance (m : Mod) (e : Nat) : Mod :=
  let m := incReg m (rSbDisp e) 1
  let x := sbAt m e
  match x.redo, x.resumeAt with
  | i :: rest, _ => setFld (setSb m e { x with sub := 0, redo := rest }) (rSbStat e) 19 0 i
  | [], some (i, sub, st) => setSbState (setFld (setSb m e { x with sub := sub, resumeAt := none }) (rSbStat e) 19 0 i) e st
  | [], none =>
    let next := sbIndex m e + 1
    let m := setSb m e { x with sub := 0 }
    if next = 2 ^ 20 then sbError m e 6 else sbSettle (setFld m (rSbStat e) 19 0 next) e

/-- A cycle in which a dispatchable entry waits (R253). -/
def sbHeld (m : Mod) (e : Nat) : Mod := satReg m (rSbHeld e) 48 1

/-- LAUNCH: the descriptor for the next cluster is enqueued (R252 to R254). -/
def sbLaunch (m : Mod) (e : Nat) (ws : List W64) : Mod :=
  let sub := (sbAt m e).sub
  let k := 625 * efld ws 4 3 0 + efld ws 4 13 4 + sub
  let ch := efld ws 4 27 24
  let fin (m : Mod) : Mod := if sub + 1 = efld ws 4 23 14 then sbAdvance m e else setSb m e { sbAt m e with sub := sub + 1 }
  let va := (ws.getD 1 0).toNat + 64 * sub
  if rangeBusy m (sbCtx m e) va 64 false then rangeWake m (sbCtx m e) va 64 false else
  match sbRead m e va 64 with
  | .error f => sbFault m e f.1
  | .ok bs =>
    if launchRefused m k ch then fin (sbNote (setBit m (rChErr k ch) 0) e (fun o => o))
    else
      let seq := (chanAt m k ch).seqCount
      match enqueue m k ch (words8 bs) with
      | none => sbHeld m e
      | some m => fin (sbNote (eccRead m (sbCtx m e) va 64 none) e (fun o => { o with descs := o.descs ++ [(k, ch, seq)] }))

/-- MOVE waits for a free mover (R255). -/
def sbMove (m : Mod) (e : Nat) (ws : List W64) : Mod :=
  match moverStart m ⟨.entry e (sbAt m e).run (sbIndex m e), sbCtx m e, (ws.getD 1 0).toNat, (ws.getD 2 0).toNat, efld ws 3 31 0, none,
      false⟩ with
  | none => sbHeld m e
  | some m => sbAdvance (sbNote m e (fun o => { o with mover := true })) e

/-- The granules of a PIN or UNPIN from the first not yet served: a fault or an error stops at its granule. -/
def sbGranules (e : Nat) (pin : Bool) (a k : Nat) : Nat → Mod → Mod
  | 0, m => sbAdvance (sbNote m e (fun o => o)) e
  | fuel + 1, m =>
    let x := sbAt m e
    let va := a + 2048 * x.sub
    match (if ctxOf m (sbCtx m e) e then translate m (sbCtx m e) va false else .error 3) with
    | .error _ => sbFault m e va
    | .ok pa =>
      if pin ∧ !(decide (pa < hbmTop) && pa / 0x1800000000 == k / 625) then sbError m e 5
      else if pin ∧ inDark m k then wake m k
      else
        let (m, job) := if pin then pinGranule m (pa / 2048) k e (sbIndex m e)
          else if pa < hbmTop then unpinGranule m (pa / 2048) e (sbIndex m e) else (m, false)
        let m := if job then sbNote m e (fun o => { o with granules := o.granules + 1 }) else m
        sbGranules e pin a k fuel (setSb m e { sbAt m e with sub := x.sub + 1 })

/-- Dispatches an entry that has passed its check. A window whose cue the count has reached is over at once (R256). -/
def sbDispatch (m : Mod) (e : Nat) (ws : List W64) : Mod :=
  let n := efld ws 3 31 0
  let cue := efld ws 3 63 32
  let past := decide (cue ≤ fld m (rSbCue e) 31 0)
  match efld ws 0 7 0 with
  | 1 => sbLaunch m e ws
  | 2 => sbMove m e ws
  | 3 => sbGranules e true (ws.getD 1 0).toNat (625 * efld ws 4 3 0 + efld ws 4 13 4) (n / 2048 - (sbAt m e).sub) m
  | 4 => sbGranules e false (ws.getD 1 0).toNat 0 (n / 2048 - (sbAt m e).sub) m
  | 5 => sbAdvance (if past then m else (sbClusters ws).foldl (fun m k => restOpen m k n cue) m) e
  | 6 => sbAdvance (if past then m else
      (sbClusters ws).foldl (fun m k => setCl m k { clAt m k with screenCue := some (BitVec.ofNat 32 cue) }) m) e
  | _ => windowsEnd (setSbState (incReg m (rSbDisp e) 1) e 2) e none

/-- The entry at the engine's index is dispatched when its op is `op`; an op outside Table 9.7 ends the run in Error whichever
row offers it (R253, R258). -/
def sbStep (e op : Nat) (m : Mod) : Mod :=
  if sbState m e ≠ 1 then m
  else if (sbAt m e).stopping ∧ (sbAt m e).sub = 0 then sbSettle m e
  else if rangeBusy m (sbCtx m e) (sbAddr m e (sbIndex m e)) 64 false then
    rangeWake m (sbCtx m e) (sbAddr m e (sbIndex m e)) 64 false
  else match sbRead m e (sbAddr m e (sbIndex m e)) 64 with
  | .error _ => m
  | .ok bs =>
    let ws := words8 bs
    let eop := efld ws 0 7 0
    if (1 ≤ eop ∧ eop ≤ 7 ∧ eop ≠ op) ∨ fld m (rSbCue e) 31 0 < efld ws 0 63 32 then m
    else if efld ws 0 8 8 = 1 ∧ !((sbAt m e).out.filter (fun o => decide (o.index < sbIndex m e))).all (outDone m) then sbHeld m e
    else
      let code := sbCheck m e ws
      let m := eccRead m (sbCtx m e) (sbAddr m e (sbIndex m e)) 64 (some 3)
      if code ≠ 0 then sbError m e code else sbDispatch m e ws

/-- A page fault on the fetch of an entry, or of the descriptor a LAUNCH needs next (R253, R258). -/
def sbFetchFault (e : Nat) (m : Mod) : Mod :=
  if sbState m e ≠ 1 then m else
  match sbRead m e (sbAddr m e (sbIndex m e)) 64 with
  | .error f => sbFault m e f.1
  | .ok bs =>
    let ws := words8 bs
    if efld ws 0 7 0 = 1 ∧ sbCheck m e ws = 0 then
      (match sbRead m e ((ws.getD 1 0).toNat + 64 * (sbAt m e).sub) 64 with
        | .error f => sbFault m e f.1
        | .ok _ => m)
    else m

/-- Start (R250, R257): refused unless enabled and the cue event is one a core can set; while Running it stops the run first. -/
def sbStart (m : Mod) (e : Nat) : Mod :=
  if fld m (rSbCtl e) 0 0 = 0 ∨ 48 ≤ fld m (rSbCtl e) 13 8 then setBit m (rSbErr e) 0
  else if sbState m e = 1 then sbSettle (setSb m e { sbAt m e with stopping := true, restart := true }) e
  else sbBegin m e

/-- Stop (R257): nothing further is dispatched, and the state is Stopped once every dispatched entry has run to completion. -/
def sbStop (m : Mod) (e : Nat) : Mod :=
  if sbState m e = 1 then sbSettle (setSb m e { sbAt m e with stopping := true, restart := false }) e else setBit m (rSbErr e) 1

/-- Resume (R257). -/
def sbResume (m : Mod) (e : Nat) : Mod := if sbState m e = 5 then setSbState m e 1 else setBit m (rSbErr e) 1

/-- A write of MEM_SB_CMD. -/
def sbCommand (m : Mod) (e cmd : Nat) : Mod :=
  match cmd with
  | 0 => m
  | 1 => sbStart m e
  | 2 => sbStop m e
  | 3 => sbResume m e
  | _ => setBit m (rSbErr e) 1

/-- A MOVE's mover has read back: its entry is complete (R252). -/
def sbMoved (m : Mod) (e run index : Nat) : Mod :=
  let x := sbAt m e
  sbSettle (setSb m e { x with out := x.out.map (fun o =>
    if o.index = index ∧ o.run = run then { o with mover := false } else o) }) e

/-- A MOVE faults: the engine is Faulted at its entry, and a Resume starts the move again and then goes on where the run stood
(R257). Further entries that fault meanwhile follow it; a MOVE of an earlier run leaves the state alone (log 40). -/
def sbMoveFault (m : Mod) (e run index va : Nat) : Mod :=
  let x := sbAt m e
  if x.run ≠ run then sbFaulted m e index va else
  let out := x.out.filter (fun o => o.index != index)
  if x.resumeAt.isSome then sbFaulted (setSbState (setSb m e { x with out := out, redo := x.redo ++ [index] }) e 5) e index va
  else
    let back := (sbIndex m e, x.sub, if sbState m e = 5 then 1 else sbState m e)
    sbFault (setFld (setSb m e { x with sub := 0, out := out, resumeAt := some back }) (rSbStat e) 19 0 index) e va

/-! ## The rows -/

/-- A LAUNCH entry is dispatched (R252). -/
def execSbLaunch (p : Part) (s : State) : Host.Outcome State Fault Refusal := .next (s.onMod (sbStep p.val 1))
/-- A MOVE entry is dispatched (R255). -/
def execSbMove (p : Part) (s : State) : Host.Outcome State Fault Refusal := .next (s.onMod (sbStep p.val 2))
/-- A PIN entry is dispatched (R243, R244). -/
def execSbPin (p : Part) (s : State) : Host.Outcome State Fault Refusal := .next (s.onMod (sbStep p.val 3))
/-- An UNPIN entry is dispatched (R245). -/
def execSbUnpin (p : Part) (s : State) : Host.Outcome State Fault Refusal := .next (s.onMod (sbStep p.val 4))
/-- A REST entry is dispatched (R256). -/
def execSbRest (p : Part) (s : State) : Host.Outcome State Fault Refusal := .next (s.onMod (sbStep p.val 5))
/-- A SCREEN entry is dispatched (R256). -/
def execSbScreen (p : Part) (s : State) : Host.Outcome State Fault Refusal := .next (s.onMod (sbStep p.val 6))
/-- An END entry is dispatched (R252). -/
def execSbEnd (p : Part) (s : State) : Host.Outcome State Fault Refusal := .next (s.onMod (sbStep p.val 7))
/-- The engine's fetch faults (R258). -/
def execSbFetchFault (p : Part) (s : State) : Host.Outcome State Fault Refusal := .next (s.onMod (sbFetchFault p.val))
/-- A refused request of a mover is issued again (R255). -/
def execMoverRetry (i : Fin 8) (s : State) : Host.Outcome State Fault Refusal := .next (s.onMod (moverRetry i.val))
/-- A pinned granule switches (R243). -/
def execMigPinSwitch (k : Cluster) (s : State) : Host.Outcome State Fault Refusal := .next (s.onMod (pinSwitch k.val))
/-- An unpinned granule switches back (R245). -/
def execMigUnpinSwitch (k : Cluster) (s : State) : Host.Outcome State Fault Refusal := .next (s.onMod (unpinSwitch k.val))

end Sys2Proof.Machine
end

