-- ==== Sys2Proof/Machine/Video.lean ====
section
/-!
DEFINITION. Demultiplexers and projectors (13_dailies.md R361 to R367): from the bytes that storage returns for a sample's record
to its pictures in output order and its audio units. Packet and box layouts are those of ISO/IEC 13818-1 and 14496-12, which the
spec names (PRESUMED, log 46); decoding is the codecs' own (Config).
-/
namespace Sys2Proof.Machine

/-- The big-endian number of bytes. -/
def beNat (bs : List Byte) : Nat := bs.foldl (fun n b => 256 * n + b.toNat) 0

/-- The big-endian number of `n` bytes at `i`. -/
def beAt (bs : List Byte) (i n : Nat) : Nat := beNat ((bs.drop i).take n)

/-! ## What a demultiplexer gives -/

/-- An access unit: its bytes, whether none is missing, and its place in the range. -/
structure VideoUnit where
  bytes : List Byte
  whole : Bool
  place : Nat
  deriving DecidableEq, Repr

/-- An audio unit (R363): its time, whether it has one, its payload and its place in the range. -/
structure AudioUnit where
  pts : BitVec 33
  valid : Bool
  payload : List Byte
  place : Nat
  deriving DecidableEq, Repr

/-- What a demultiplexer gives: the causes met; the codec and the sample entry; the access units in decode order from the random
access point; the number of the unit that is displayed first, none where the record counts pictures; the place from which audio
is written, and the audio units. -/
structure Demuxed where
  causes : List Nat
  codec : Codec
  entry : List Byte
  units : List VideoUnit
  first : Option Nat
  start : Nat
  audio : List AudioUnit
  deriving DecidableEq, Repr

/-- A demultiplexer that found no stream. -/
def Demuxed.failed (causes : List Nat) : Demuxed := ⟨causes, .mpeg2, [], [], none, 0, []⟩

/-! ## Transport streams (R361) -/

/-- A packet: its number in the range, its fields and its payload. -/
structure TsPacket where
  num : Nat
  pid : Nat
  start : Bool
  scrambled : Bool
  cc : Nat
  discont : Bool
  carries : Bool
  payload : List Byte
  deriving DecidableEq, Repr

/-- The packet of 188 bytes, none with transport_error_indicator set. -/
def tsPacket (num : Nat) (b : List Byte) : Option TsPacket :=
  let f (i hi lo : Nat) : Nat := nbits (beAt b i 1) hi lo
  if f 1 7 7 = 1 then none else
  let field := f 3 5 5 == 1
  some {
    num := num
    pid := 256 * f 1 4 0 + beAt b 2 1
    start := f 1 6 6 == 1
    scrambled := f 3 7 6 != 0
    cc := f 3 3 0
    discont := field && beAt b 4 1 != 0 && f 5 7 7 == 1
    carries := f 3 4 4 == 1
    payload := if f 3 4 4 = 0 then [] else b.drop (if field then 5 + beAt b 4 1 else 4) }

/-- Three sync bytes at a spacing of 188. -/
def tsSynced (bs : List Byte) : Bool := [0, 188, 376].all (fun i => decide (i < bs.length) && beAt bs i 1 == 0x47)

/-- The packets of a range, and whether bytes were skipped to regain sync. -/
def tsSplit : Nat → List Byte → List (List Byte) × Bool
  | 0, _ => ([], false)
  | fuel + 1, bs =>
    if bs.length < 188 then ([], false)
    else if beAt bs 0 1 = 0x47 then
      let (ps, lost) := tsSplit fuel (bs.drop 188)
      (bs.take 188 :: ps, lost)
    else match (List.range bs.length).find? (fun i => tsSynced (bs.drop i)) with
      | some i => ((tsSplit fuel (bs.drop i)).1, true)
      | none => ([], true)

/-- A piece of a PID's payload: the packet it came in, whether a payload unit starts, whether the continuity counter shows a gap
before it, and its bytes. -/
structure TsPiece where
  num : Nat
  start : Bool
  gap : Bool
  bytes : List Byte
  deriving DecidableEq, Repr

/-- The pieces of one PID's packets, `last` being the counter before; a packet sent twice counts once. -/
def tsPieces : Option Nat → List TsPacket → List TsPiece
  | _, [] => []
  | last, p :: ps =>
    if !p.carries then tsPieces (if p.discont then none else last) ps
    else if last = some p.cc ∧ !p.discont then tsPieces last ps
    else
      let gap := match last with | none => false | some c => !p.discont && (c + 1) % 16 != p.cc
      ⟨p.num, p.start, gap, p.payload⟩ :: tsPieces (some p.cc) ps

/-- The pieces of a PID. -/
def tsOf (ps : List TsPacket) (pid : Nat) : List TsPiece := tsPieces none (ps.filter (fun p => p.pid == pid))

/-- The sections of a PID, one after the other: from the first that starts. -/
def psiBytes (l : List TsPiece) : List Byte :=
  match l.dropWhile (fun p => !p.start) with
  | [] => []
  | p :: ps => p.bytes.drop (1 + beAt p.bytes 0 1) ++ ps.flatMap (fun q => if q.start then q.bytes.drop 1 else q.bytes)

/-- The first whole section of a table that is in force. -/
def psiTable (tid : Nat) : Nat → List Byte → Option (List Byte)
  | 0, _ => none
  | fuel + 1, bs =>
    let n := 3 + beAt bs 1 2 % 4096
    if bs.length < n then none
    else if beAt bs 0 1 = tid ∧ beAt bs 5 1 % 2 = 1 then some (bs.take n)
    else if beAt bs 0 1 = 0xFF then psiTable tid fuel (bs.drop 1)
    else psiTable tid fuel (bs.drop n)

/-- The PID of the PMT of the first program of a PAT. -/
def patProgram (s : List Byte) : Option Nat :=
  ((List.range ((s.length - 12) / 4)).find? (fun i => beAt s (8 + 4 * i) 2 != 0)).map (fun i => beAt s (10 + 4 * i) 2 % 8192)

/-- The streams of a PMT: type and PID. -/
def pmtStreams : Nat → List Byte → List (Nat × Nat)
  | 0, _ => []
  | fuel + 1, bs => if bs.length < 5 then [] else (beAt bs 0 1, beAt bs 1 2 % 8192) :: pmtStreams fuel (bs.drop (5 + beAt bs 3 2 % 4096))

/-- The streams of the first program. -/
def tsProgram (ps : List TsPacket) : Option (List (Nat × Nat)) :=
  let table (tid pid : Nat) : Option (List Byte) :=
    let bs := psiBytes (tsOf ps pid)
    psiTable tid bs.length bs
  ((table 0 0).bind patProgram).bind (fun pid => (table 2 pid).map (fun s =>
    pmtStreams s.length ((s.take (s.length - 4)).drop (12 + beAt s 10 2 % 4096))))

/-- The codec of a stream type that is accepted. -/
def tsCodec : Nat → Option Codec
  | 0x02 => some .mpeg2
  | 0x1B => some .h264
  | 0x24 => some .hevc
  | _ => none

/-- A PES packet: the packet it starts in, its time, its payload, the offsets in it before which data are missing, and the packets
its bytes came in, by offset. -/
structure Pes where
  num : Nat
  pts : Option (BitVec 33)
  payload : List Byte
  gaps : List Nat
  marks : List (Nat × Nat)
  deriving DecidableEq, Repr

/-- The time stamp of a PES header. -/
def pesPts (raw : List Byte) : Option (BitVec 33) :=
  if nbits (beAt raw 6 1) 7 6 = 2 ∧ nbits (beAt raw 7 1) 7 7 = 1 then
    some (BitVec.ofNat 33 (nbits (beAt raw 9 1) 3 1 * 2 ^ 30 + nbits (beAt raw 10 2) 15 1 * 2 ^ 15 + nbits (beAt raw 12 2) 15 1))
  else none

/-- The PES packet of a payload unit's pieces; none without its start code. -/
def pesOf (l : List TsPiece) : Option Pes :=
  let raw := l.flatMap (fun p => p.bytes)
  if beAt raw 0 3 ≠ 1 ∨ raw.length < 6 then none else
  let head := if nbits (beAt raw 6 1) 7 6 = 2 then 9 + beAt raw 8 1 else 6
  let len := beAt raw 4 2
  let body := if len = 0 then raw else raw.take (6 + len)
  let offs := (l.foldl (fun acc p => (acc.1 + p.bytes.length, acc.2 ++ [(acc.1 - head, p)])) (0, [])).2
  some ⟨(l.map (fun p => p.num)).headD 0, pesPts raw, body.drop head, offs.filterMap (fun o => if o.2.gap then some o.1 else none),
    offs.map (fun o => (o.1, o.2.num))⟩

/-- Pieces grouped by payload unit, from the first that starts. -/
def pesGroups : List TsPiece → List (List TsPiece)
  | [] => []
  | p :: ps =>
    match pesGroups ps with
    | [] => [[p]]
    | g :: gs => if (g.head?.map (fun q => q.start)).getD false then [p] :: g :: gs else (p :: g) :: gs

/-- The PES packets of a PID. -/
def tsPes (ps : List TsPacket) (pid : Nat) : List Pes :=
  (pesGroups ((tsOf ps pid).dropWhile (fun p => !p.start))).filterMap pesOf

/-- An elementary stream: its bytes, the offsets before which data are missing, and packet numbers by offset. -/
def esOf (l : List Pes) : List Byte × List Nat × List (Nat × Nat) :=
  l.foldl (fun (bs, gs, ms) p =>
    (bs ++ p.payload, gs ++ p.gaps.map (bs.length + ·), ms ++ p.marks.map (fun k => (bs.length + k.1, k.2)))) ([], [], [])

/-- Cuts an elementary stream from offset `at_` into access units of the given lengths: one that a gap lies across, or at whose end
one lies, is not whole. -/
def cutUnits (gs : List Nat) (ms : List (Nat × Nat)) : Nat → List Byte → List Nat → List VideoUnit
  | _, _, [] => []
  | at_, bs, n :: ns =>
    let e := at_ + n
    ⟨bs.take n, !gs.any (fun g => decide (at_ < g) && decide (g ≤ e)), (ms.filter (fun k => decide (k.1 < e))).foldl (fun a k => max a k.2) 0⟩
      :: cutUnits gs ms e (bs.drop n) ns

/-- The transport-stream demultiplexer (R361, R363): `vid` and `aid` as in Table 13.2. -/
def tsDemux (vid aid : Nat) (bs : List Byte) : Demuxed :=
  let (raw, lost) := tsSplit bs.length bs
  let ps := (raw.mapIdx tsPacket).filterMap id
  let prog := tsProgram ps
  let streams := prog.getD []
  let isVideo (s : Nat × Nat) : Bool := (tsCodec s.1).isSome
  let video := if vid = 0x1FFF then (streams.find? isVideo).map (fun s => s.2) else some vid
  let audio := if aid = 0xFFFF then none
    else if aid = 0 ∨ aid = 0x1FFF then (streams.find? (fun s => !isVideo s)).map (fun s => s.2) else some aid
  match video with
  | none => Demuxed.failed [if prog.isNone then 4 else 6]
  | some v =>
    let causes := (if lost then [7] else [])
      ++ (if ps.any (fun p => p.scrambled && (p.pid == v || some p.pid == audio)) then [5] else [])
      ++ (if streams.any (fun s => s.2 == v && !isVideo s) then [6] else [])
    let (es, gs, ms) := esOf (tsPes ps v)
    let codec := match (streams.find? (fun s => s.2 == v)).bind (fun s => tsCodec s.1) with | some c => c | none => Config.esCodec es
    { causes := causes, codec := codec, entry := [], units := cutUnits gs ms 0 es (Config.unitLengths codec es)
      first := none, start := 0
      audio := (audio.elim [] (tsPes ps)).map (fun p => ⟨p.pts.getD 0, p.pts.isSome, p.payload, p.num⟩) }

/-! ## ISO base media files (R362) -/

/-- A box: its type, its offset in its parent, and its body. -/
structure IsoBox where
  kind : Nat
  off : Nat
  body : List Byte
  deriving DecidableEq, Repr

/-- The code of a four-character type. -/
def fourcc (s : String) : Nat := s.toList.foldl (fun n c => 256 * n + c.toNat) 0

/-- The boxes of bytes that begin at offset `off`, none where one overruns them. -/
def isoBoxes : Nat → Nat → List Byte → Option (List IsoBox)
  | 0, _, bs => if bs.isEmpty then some [] else none
  | fuel + 1, off, bs =>
    if bs.isEmpty then some []
    else if bs.length < 8 then none
    else
      let s := beAt bs 0 4
      let (head, size) := if s = 1 then (16, beAt bs 8 8) else if s = 0 then (8, bs.length) else (8, s)
      if size < head ∨ bs.length < size then none
      else (isoBoxes fuel (off + size) (bs.drop size)).map (⟨beAt bs 4 4, off, (bs.take size).drop head⟩ :: ·)

/-- The boxes in a body. -/
def isoIn (bs : List Byte) : Option (List IsoBox) := isoBoxes bs.length 0 bs

/-- The first box of a type. -/
def isoGet (k : String) (l : List IsoBox) : Option IsoBox := l.find? (fun b => b.kind == fourcc k)

/-- Every box of a type. -/
def isoAll (k : String) (l : List IsoBox) : List IsoBox := l.filter (fun b => b.kind == fourcc k)

/-- The body of a box that lies at a path below a body. -/
def isoPath : List String → List Byte → Option (List Byte)
  | [], bs => some bs
  | k :: ks, bs => ((isoIn bs).bind (isoGet k)).bind (fun b => isoPath ks b.body)

/-- The rows of a table of a full box: a count at byte `at_`, then rows of `n` bytes. -/
def isoRows (bs : List Byte) (at_ n : Nat) : Option (List (List Byte)) :=
  let c := beAt bs at_ 4
  if bs.length < at_ + 4 + n * c then none else some ((List.range c).map (fun i => (bs.drop (at_ + 4 + n * i)).take n))

/-- A sample of a track: its bytes' offset and number, its decode time and whether it is a sync sample. -/
structure IsoSample where
  off : Nat
  size : Nat
  time : Nat
  sync : Bool
  deriving DecidableEq, Repr

/-- A track: its number, handler type and time scale, its sample entry's type and body, and its samples. -/
structure IsoTrack where
  id : Nat
  handler : Nat
  scale : Nat
  kind : Nat
  entry : List Byte
  samples : List IsoSample
  deriving DecidableEq, Repr

/-- Numbers that follow one another from `o`, each with its size. -/
def isoRun : Nat → List Nat → List (Nat × Nat)
  | _, [] => []
  | o, n :: ns => (o, n) :: isoRun (o + n) ns

/-- Sizes laid out over chunks, each an offset and a count. -/
def isoLay : List (Nat × Nat) → List Nat → List (Nat × Nat)
  | [], _ => []
  | (o, n) :: cs, ns => isoRun o (ns.take n) ++ isoLay cs (ns.drop n)

/-- The sizes of stsz or stz2. -/
def isoSizes (stbl : List IsoBox) : Option (List Nat) :=
  match isoGet "stsz" stbl, isoGet "stz2" stbl with
  | some b, _ =>
    let c := beAt b.body 8 4
    if beAt b.body 4 4 ≠ 0 then some (List.replicate c (beAt b.body 4 4))
    else (isoRows b.body 8 4).map (fun l => l.map beNat)
  | none, some b =>
    let c := beAt b.body 8 4
    let f := beAt b.body 7 1
    if f = 8 ∨ f = 16 then (isoRows b.body 8 (f / 8)).map (fun l => l.map beNat)
    else if f = 4 ∧ 12 + (c + 1) / 2 ≤ b.body.length then
      some ((List.range c).map (fun i => nbits (beAt b.body (12 + i / 2) 1) (if i % 2 = 0 then 7 else 3) (if i % 2 = 0 then 4 else 0)))
    else none
  | none, none => none

/-- The sum of the counts of a table's rows, each 4 bytes at the front. -/
def isoCounts (rows : List (List Byte)) : Nat := (rows.map (fun r => beAt r 0 4)).foldl (· + ·) 0

/-- The samples of a sample table; none where its tables are missing or contradict each other. -/
def isoSamples (stbl : List IsoBox) : Option (List IsoSample) := do
  let sizes ← isoSizes stbl
  let stts ← (isoGet "stts" stbl).bind (fun b => isoRows b.body 4 8)
  let stsc ← (isoGet "stsc" stbl).bind (fun b => isoRows b.body 4 12)
  let chunks ← match isoGet "stco" stbl, isoGet "co64" stbl with
    | some b, _ => isoRows b.body 4 4
    | none, some b => isoRows b.body 4 8
    | none, none => none
  let ctts ← match isoGet "ctts" stbl with | some b => (isoRows b.body 4 8).map some | none => some none
  let sync ← match isoGet "stss" stbl with | some b => (isoRows b.body 4 4).map (fun l => some (l.map beNat)) | none => some none
  let n := sizes.length
  let per (i : Nat) : Nat := ((stsc.filter (fun r => decide (beAt r 0 4 ≤ i))).getLast?.map (fun r => beAt r 4 4)).getD 0
  let laid := chunks.mapIdx (fun i o => (beNat o, per (i + 1)))
  let times := (stts.flatMap (fun r => List.replicate (beAt r 0 4) (beAt r 4 4))).foldl (fun (t, l) d => (t + d, l ++ [t])) (0, [])
  if isoCounts stts ≠ n ∨ (laid.map (fun c => c.2)).foldl (· + ·) 0 ≠ n ∨ ctts.any (fun l => isoCounts l != n)
      ∨ sync.any (fun l => l.any (fun k => k == 0 || decide (n < k))) then none
  else some ((isoLay laid sizes).mapIdx (fun i s => ⟨s.1, s.2, times.2.getD i 0, match sync with | some l => l.contains (i + 1) | none => true⟩))

/-- A trak box. -/
def isoTrack (bs : List Byte) : Option IsoTrack := do
  let tkhd ← isoPath ["tkhd"] bs
  let mdhd ← isoPath ["mdia", "mdhd"] bs
  let hdlr ← isoPath ["mdia", "hdlr"] bs
  let stbl ← (isoPath ["mdia", "minf", "stbl"] bs).bind isoIn
  let stsd ← isoGet "stsd" stbl
  let entry ← (isoIn (stsd.body.drop 8)).bind List.head?
  let samples ← isoSamples stbl
  let at_ (b : List Byte) : Nat := if beAt b 0 1 = 1 then 20 else 12
  return ⟨beAt tkhd (at_ tkhd) 4, beAt hdlr 8 4, beAt mdhd (at_ mdhd) 4, entry.kind, entry.body, samples⟩

/-- A number of `n` bytes that is there if a flag says so, and what follows. -/
def isoOpt (there : Bool) (n : Nat) (bs : List Byte) : Option Nat × List Byte :=
  if there then (some (beAt bs 0 n), bs.drop n) else (none, bs)

/-- The rows of a trun: duration, size and flags, each with its default. -/
def trunRows (fl : Nat) (dflt : Nat × Nat × Nat) : Nat → List Byte → List (Nat × Nat × Nat)
  | 0, _ => []
  | n + 1, bs =>
    let (d, bs) := isoOpt (fl.testBit 8) 4 bs
    let (s, bs) := isoOpt (fl.testBit 9) 4 bs
    let (f, bs) := isoOpt (fl.testBit 10) 4 bs
    let (_, bs) := isoOpt (fl.testBit 11) 4 bs
    (d.getD dflt.1, s.getD dflt.2.1, f.getD dflt.2.2) :: trunRows fl dflt n bs

/-- A trun from offset `base` and `next`, the end of the run before: its samples and its end, `time` being its decode time. -/
def isoTrun (bs : List Byte) (dflt : Nat × Nat × Nat) (base next time : Nat) : Option (List IsoSample × Nat × Nat) :=
  let fl := beAt bs 1 3
  let n := beAt bs 4 4
  let (off, r) := isoOpt (fl.testBit 0) 4 (bs.drop 8)
  let (first, r) := isoOpt (fl.testBit 2) 4 r
  let row := 4 * ([8, 9, 10, 11].filter (fun i => fl.testBit i)).length
  if bs.length < 8 ∨ r.length < row * n then none else
  let at_ := match off with | some o => ((base : Int) + toSigned 32 o).toNat | none => next
  let rows := (trunRows fl dflt n r).mapIdx (fun i x => if i = 0 then (x.1, x.2.1, first.getD x.2.2) else x)
  let out := rows.foldl (fun (l, o, t) x => (l ++ [⟨o, x.2.1, t, !x.2.2.testBit 16⟩], o + x.2.1, t + x.1)) (([] : List IsoSample), at_, time)
  some out

/-- The defaults of a track in trex: duration, size and flags. -/
def trexOf (moov : List IsoBox) (id : Nat) : Nat × Nat × Nat :=
  match (((isoGet "mvex" moov).bind (fun b => isoIn b.body)).getD []).find? (fun b => b.kind == fourcc "trex" && beAt b.body 4 4 == id) with
  | some b => (beAt b.body 12 4, beAt b.body 16 4, beAt b.body 20 4)
  | none => (0, 0, 0)

/-- A traf of the moof at offset `moof`: its track, its samples, the end of its data and its next decode time; `prev` is the end of
the data of the traf before and `time` gives each track's decode time so far. -/
def isoTraf (moov : List IsoBox) (moof prev : Nat) (time : Nat → Nat) (bs : List Byte) : Option (Nat × List IsoSample × Nat × Nat) := do
  let boxes ← isoIn bs
  let tfhd ← isoGet "tfhd" boxes
  let fl := beAt tfhd.body 1 3
  let id := beAt tfhd.body 4 4
  let (base, r) := isoOpt (fl.testBit 0) 8 (tfhd.body.drop 8)
  let (_, r) := isoOpt (fl.testBit 1) 4 r
  let (d, r) := isoOpt (fl.testBit 3) 4 r
  let (s, r) := isoOpt (fl.testBit 4) 4 r
  let (f, _) := isoOpt (fl.testBit 5) 4 r
  let dflt := trexOf moov id
  let dflt := (d.getD dflt.1, s.getD dflt.2.1, f.getD dflt.2.2)
  let base := base.getD (if fl.testBit 17 then moof else prev)
  let t0 := match isoGet "tfdt" boxes with | some b => beAt b.body 4 (if beAt b.body 0 1 = 1 then 8 else 4) | none => time id
  let (l, e, t) ← (isoAll "trun" boxes).foldlM (fun (l, o, t) b =>
    (isoTrun b.body dflt base o t).map (fun x => (l ++ x.1, x.2.1, x.2.2))) (([] : List IsoSample), base, t0)
  return (id, l, e, t)

/-- A track with the samples of a movie's fragments, which follow those of its moov. -/
def isoFragments (moov tops : List IsoBox) (tr : IsoTrack) : Option IsoTrack := do
  let endOf (l : List IsoSample) : Nat := (l.getLast?.map (fun s => s.time)).getD 0
  let (l, _) ← (isoAll "moof" tops).foldlM (fun (acc : List IsoSample × (Nat → Nat)) b => do
    let boxes ← isoIn b.body
    let (l, _, time) ← (isoAll "traf" boxes).foldlM (fun (x : List IsoSample × Nat × (Nat → Nat)) t => do
      let (id, s, e, next) ← isoTraf moov b.off x.2.1 x.2.2 t.body
      return (if id = tr.id then x.1 ++ s else x.1, e, fun i => if i = id then next else x.2.2 i)) (acc.1, b.off, acc.2)
    return (l, time)) (tr.samples, fun i => if i = tr.id then endOf tr.samples else 0)
  return { tr with samples := l }

/-- An MPEG-2 Video object type in an mp4v entry's esds (object types 0x60 to 0x65). -/
def mp4vMpeg2 (entry : List Byte) : Bool :=
  match isoPath ["esds"] (entry.drop 78) with
  | none => false
  | some b =>
    let body (bs : List Byte) : List Byte := ((bs.drop 1).dropWhile (fun x => x.toNat.testBit 7)).drop 1
    let es := body (b.drop 4)
    let fl := beAt es 2 1
    let skip := 3 + (if fl.testBit 7 then 2 else 0) + (if fl.testBit 6 then 1 + beAt es (if fl.testBit 7 then 5 else 3) 1 else 0)
      + (if fl.testBit 5 then 2 else 0)
    let o := beAt (body (es.drop skip)) 0 1
    decide (0x60 ≤ o) && decide (o ≤ 0x65)

/-- The codec of a sample entry that is supported. -/
def isoCodec (kind : Nat) (entry : List Byte) : Option Codec :=
  if kind = fourcc "avc1" ∨ kind = fourcc "avc3" then some .h264
  else if kind = fourcc "hvc1" ∨ kind = fourcc "hev1" then some .hevc
  else if kind = fourcc "av01" then some .av1
  else if kind = fourcc "mp4v" ∧ mp4vMpeg2 entry then some .mpeg2
  else none

/-- The track of a number, or the first of a handler for 0. -/
def isoPick (l : List IsoTrack) (id : Nat) (handler : String) : Option IsoTrack :=
  l.find? (fun t => t.handler == fourcc handler && (id == 0 || t.id == id))

/-- The ISO base media demultiplexer (R362, R363): decoding starts at the sync sample that precedes sample `start` (Table 13.2). -/
def isoDemux (vid aid start : Nat) (bs : List Byte) : Demuxed :=
  let parsed : Option (IsoTrack × Option IsoTrack) := do
    let tops ← isoIn bs
    let moov ← isoGet "moov" tops
    if 2 ^ 24 < moov.body.length + 8 then none else
    let boxes ← isoIn moov.body
    let tracks ← (isoAll "trak" boxes).mapM (fun b => isoTrack b.body)
    let video ← (isoPick tracks vid "vide").bind (isoFragments boxes tops)
    let audio ← match (if aid = 0xFFFF then none else isoPick tracks aid "soun") with
      | some t => (isoFragments boxes tops t).map some
      | none => some none
    let inside (t : IsoTrack) : Bool := t.samples.all (fun s => decide (s.off + s.size ≤ bs.length))
    if inside video && audio.all inside then return (video, audio) else none
  let cut (s : IsoSample) : List Byte := (bs.drop s.off).take s.size
  match parsed with
  | none => Demuxed.failed [4]
  | some (v, a) =>
    let hidden := v.kind == fourcc "encv" || a.any (fun t => t.kind == fourcc "enca")
    match isoCodec v.kind v.entry, (List.range (min start v.samples.length)).reverse.find? (fun i => (v.samples.map (fun s => s.sync)).getD i false) with
    | none, _ => Demuxed.failed [if hidden then 5 else 6]
    | some _, none => Demuxed.failed [if hidden then 5 else 4]
    | some codec, some i =>
      let ascale := match a with | some t => t.scale | none => 1
      let units := v.samples.drop i
      { causes := if hidden then [5] else [], codec := codec, entry := v.entry
        units := units.map (fun s => ⟨cut s, true, s.time * ascale⟩)
        first := some (start - 1 - i), start := (units.head?.map (fun s => s.time)).getD 0 * ascale
        audio := (a.elim [] (fun t => t.samples)).map (fun s => ⟨BitVec.ofNat 33 s.time, true, cut s, s.time * v.scale⟩) }

/-! ## Projectors (R364, R365, R367) -/

/-- Profile, level, chroma and depth that a projector decodes (Table 13.3). -/
def codecSupports (c : Codec) (i : StreamInfo) : Bool :=
  match c with
  | .h264 => [Profile.constrainedBaseline, .main, .high].contains i.profile && decide (i.level ≤ 52) && (i.c420 || i.mono) && i.depth == 8
  | .hevc => [Profile.main, .main10].contains i.profile && decide (i.level ≤ 51) && i.c420 && (i.depth == 8 || i.depth == 10)
  | .av1 => i.profile == .main && decide (i.level ≤ 51) && (i.c420 || i.mono) && (i.depth == 8 || i.depth == 10)
  | .mpeg2 => i.profile == .main && decide (i.level ≤ 4) && i.c420 && i.depth == 8

/-- A picture that a projector decodes (R365). -/
def projSupports (c : Codec) (i : StreamInfo) : Bool := codecSupports c i && decide (i.width ≤ 4096) && decide (i.height ≤ 2304)

/-- A decoded picture: its place in output order, its kind, the picture, whether it replaces one, and its access unit's number. -/
structure Decoded where
  order : Nat
  kind : FieldKind
  pic : Picture
  replaced : Bool
  num : Nat
  deriving DecidableEq, Repr

/-- The lines of two fields in turn. -/
def weavePlane (a b : List (List Nat)) : List (List Nat) := (a.zip b).flatMap (fun r => [r.1, r.2])

/-- A frame of a top and a bottom field. -/
def weave (a b : Picture) : Picture :=
  { a with height := 2 * a.height, interlaced := true, y := weavePlane a.y b.y, cb := weavePlane a.cb b.cb, cr := weavePlane a.cr b.cr }

/-- Every other line, from line `q` on. -/
def fieldPlane (q : Nat) (a : List (List Nat)) : List (List Nat) := (List.range (a.length / 2)).map (fun i => a.getD (2 * i + q) [])

/-- One field of a frame, the top one for 0. -/
def fieldOf (q : Nat) (a : Picture) : Picture :=
  { a with height := a.height / 2, y := fieldPlane q a.y, cb := fieldPlane q a.cb, cr := fieldPlane q a.cr }

/-- A mid-grey frame (R367). -/
def greyFrame (i : StreamInfo) : Picture :=
  let plane (h w : Nat) : List (List Nat) := List.replicate h (List.replicate w (128 * 2 ^ (i.depth - 8)))
  let chroma := if i.mono then [] else plane ((i.height + 1) / 2) ((i.width + 1) / 2)
  ⟨i.width, i.height, i.depth, i.mono, false, plane i.height i.width, chroma, chroma⟩

/-- A picture as a frame or a field of a kind: a field alone makes a frame of its own lines twice (log 46). -/
def asKind (want have_ : FieldKind) (a : Picture) : Picture :=
  match want, have_ with
  | .frame, .frame => a
  | .frame, _ => weave a a
  | .top, .frame => fieldOf 0 a
  | .bottom, .frame => fieldOf 1 a
  | _, _ => a

/-- The picture before a place in output order, of those decoded so far. -/
def beforeOut (l : List Decoded) (order : Nat) : Option Decoded :=
  l.foldl (fun b d => if decide (d.order < order) && b.all (fun x => decide (x.order ≤ d.order)) then some d else b) none

/-- What replaces a picture that does not decode: the previous one in output order, or mid-grey (R367). -/
def replacement (i : StreamInfo) (c : CodedPicture) (l : List Decoded) : Picture :=
  match beforeOut l c.order with
  | some d => asKind c.kind d.kind d.pic
  | none => asKind c.kind .frame (greyFrame i)

/-- Decodes access units in order; a replacement is the reference of later pictures (R364, R367). -/
def decodeUnits (codec : Codec) (entry : List Byte) : List VideoUnit → List (List Byte) → List Decoded → List Decoded
  | [], _, l => l
  | u :: us, done, l =>
    let done := done ++ [u.bytes]
    let c := Config.decodeUnit codec entry done (l.map (fun d => d.pic))
    let good := if u.whole then c.picture else none
    let pic := match good with | some p => p | none => replacement (Config.unitInfo codec entry done) c l
    decodeUnits codec entry us done (l ++ [⟨c.order, c.kind, pic, good.isNone, l.length⟩])

/-- Puts a decoded picture into output order. -/
def outInsert (d : Decoded) : List Decoded → List Decoded
  | [] => [d]
  | e :: es => if d.order < e.order then d :: e :: es else e :: outInsert d es

/-- Output order. -/
def outSort (l : List Decoded) : List Decoded := l.foldl (fun a d => outInsert d a) []

/-- An output picture: its picture, the pictures replaced in it and the access units it came from. -/
structure OutPic where
  pic : Picture
  replaced : Nat
  nums : List Nat
  deriving DecidableEq, Repr

/-- The pictures in output order, two fields of opposite parity in succession woven into one (R368); a field without its partner is
a picture with incomplete data (R367). -/
def outPics : List Decoded → List OutPic
  | [] => []
  | [d] => [if d.kind = .frame then ⟨d.pic, b2n d.replaced, [d.num]⟩ else ⟨weave d.pic d.pic, 1, [d.num]⟩]
  | d :: e :: ds =>
    match d.kind, e.kind with
    | .frame, _ => ⟨d.pic, b2n d.replaced, [d.num]⟩ :: outPics (e :: ds)
    | .top, .bottom => ⟨weave d.pic e.pic, b2n d.replaced + b2n e.replaced, [d.num, e.num]⟩ :: outPics ds
    | .bottom, .top => ⟨weave e.pic d.pic, b2n d.replaced + b2n e.replaced, [d.num, e.num]⟩ :: outPics ds
    | _, _ => ⟨weave d.pic d.pic, 1, [d.num]⟩ :: outPics (e :: ds)

/-- What a sample's decode gives (R361 to R368): the causes of Table 13.8 met, pictures replaced and decoded, matrix_coefficients, the
size of the decoded picture, the number of the picture framing begins at, the pictures in output order, and the audio units. -/
structure SampleResult where
  causes : List Nat
  concealed : Nat
  decoded : Nat
  matrix : Nat
  size : Nat × Nat
  first : Nat
  pics : List Picture
  audio : List AudioUnit
  deriving DecidableEq, Repr

/-- A result without pictures. -/
def SampleResult.failed (causes : List Nat) : SampleResult := ⟨causes, 0, 0, 0, (0, 0), 0, [], []⟩

/-- Decodes a demultiplexed sample from its random access point through the last picture that framing needs (R363 to R368): `skip`
pictures dropped first in a transport stream, then `f` pictures `s` apart. -/
def decodeSample (d : Demuxed) (skip f s : Nat) : SampleResult :=
  if d.causes.any (fun c => c != 7) then SampleResult.failed d.causes else
  let all := outPics (outSort (decodeUnits d.codec d.entry d.units [] []))
  let first := match d.first with | none => skip | some u => all.findIdx (fun o => o.nums.contains u)
  let last := first + (f - 1) * s
  let n := if last < all.length then 1 + ((all.take (last + 1)).flatMap (fun o => o.nums)).foldl max 0 else d.units.length
  let units := d.units.take n
  let infos := (List.range n).map (fun i => Config.unitInfo d.codec d.entry ((units.take (i + 1)).map (fun u => u.bytes)))
  let outs := outPics (outSort (decodeUnits d.codec d.entry units [] []))
  let replaced := (outs.map (fun o => o.replaced)).foldl (· + ·) 0
  let stop := (units.getLast?.map (fun u => u.place)).getD 0
  { causes := d.causes ++ (if replaced ≠ 0 then [7] else []) ++ (if infos.all (projSupports d.codec) then [] else [6])
    concealed := replaced, decoded := n
    matrix := (infos.head?.map (fun i => i.matrix)).getD 2
    size := (infos.head?.map (fun i => (i.width, i.height))).getD (0, 0)
    first := first, pics := outs.map (fun o => o.pic)
    audio := if n = 0 then [] else d.audio.filter (fun a => decide (d.start ≤ a.place) && decide (a.place ≤ stop)) }

end Sys2Proof.Machine
end

