-- ==== Sys2Proof/Machine/Dailies.lean ====
section
/-!
DEFINITION. Dailies ingest (13_dailies.md R348 to R377): storage reads, sample records, the splice, batches, ready lists,
framing and sample regions.
-/
namespace Sys2Proof.Machine

/-! ## Records -/

/-- A stream's hidden state. -/
def strAt (m : Mod) (p : Nat) : StrSt := sget (fun _ => StrSt.reset) m.strs p

/-- Sets a stream's hidden state. -/
def setStr (m : Mod) (p : Nat) (v : StrSt) : Mod := { m with strs := sset (fun _ => StrSt.reset) m.strs p v }

/-- A port's hidden state. -/
def nvAt (m : Mod) (q : Nat) : NvSt := sget (fun _ => NvSt.reset) m.nvs q

/-- DLY_NVME_STAT.state: 0 Off, 1 Init, 2 Ready, 3 Failed. -/
def nvState (m : Mod) (q : Nat) : Nat := fld m (rNvStat q) 31 28

/-- The stream's context. -/
def strCtx (m : Mod) (p : Nat) : Nat := fld m (rStrCtl p) 27 16
/-- Q (Table 13.11). -/
def strAhead (m : Mod) (p : Nat) : Nat := max 1 (min 8 (fld m (rStrCtl p) 15 8))
/-- The stream prepares batches. -/
def strOn (m : Mod) (p : Nat) : Bool := fld m (rStrCtl p) 0 0 == 1 && !(strAt m p).refused
def strN (m : Mod) (p : Nat) : Nat := fld m (rStrN p) 48 0
def strStep (m : Mod) (p : Nat) : Nat := fld m (rStrStep p) 24 0
def strCount (m : Mod) (p : Nat) : Nat := fld m (rStrShare p) 47 24
def strFrom (m : Mod) (p : Nat) : Nat := fld m (rStrShare p) 23 0

/-! ## The splice (R353, R354) -/

/-- Rounds of the Feistel network. -/
def feistelRounds (seed : W64) (k stream t u : Nat) : Nat → Nat → Nat → Nat × Nat
  | 0, l, r => (l, r)
  | n + 1, l, r =>
    let h := k / 2
    let f := (kcg seed (BitVec.ofNat 64 t) stream (BitVec.ofNat 64 ((5 - n) * 2 ^ 56 + u % 2 ^ 32 * 2 ^ 24 + r))).toNat % 2 ^ h
    feistelRounds seed k stream t u n r (Nat.xor l f)

/-- feistel. -/
def feistel (seed : W64) (k stream t u x : Nat) : Nat :=
  let h := k / 2
  let (l, r) := feistelRounds seed k stream t u 6 (x / 2 ^ h) (x % 2 ^ h)
  l * 2 ^ h + r

/-- The smallest even k from 2 on with 2^k ≥ n. -/
def permK (n : Nat) : Nat := ((List.range 24).find? (fun j => n ≤ 2 ^ (2 * j + 2))).elim 48 (fun j => 2 * j + 2)

/-- Cycle walking; the walk is a permutation's cycle, so 2^k steps are never exceeded. -/
def permWalk (seed : W64) (n k stream t u : Nat) : Nat → Nat → Nat
  | 0, y => y
  | fuel + 1, y => if y < n then y else permWalk seed n k stream t u fuel (feistel seed k stream t u y)

/-- perm. -/
def perm (seed : W64) (n stream t u x : Nat) : Nat :=
  let k := permK n
  permWalk seed n k stream t u (2 ^ k) (feistel seed k stream t u x)

/-! ## Framing values (R369 to R374, Table 13.11) -/

/-- Framing registers as numbers. -/
structure Frm where
  x0 : Nat
  y0 : Nat
  cw : Nat
  ch : Nat
  rx : Nat
  ry : Nat
  wo : Nat
  ho : Nat
  f : Nat
  s : Nat
  rz : Bool
  fmt : Nat
  order : Bool
  p : Nat
  t : Nat
  deint : Bool
  matrix : Nat
  mode : Nat
  deriving DecidableEq, Repr

/-- A stream's framing values. -/
def frmOf (m : Mod) (p : Nat) : Frm where
  x0 := fld m (rFrmCrop p) 11 0
  y0 := fld m (rFrmCrop p) 23 12
  cw := fld m (rFrmCrop p) 35 24
  ch := fld m (rFrmCrop p) 47 36
  rx := fld m (rFrmJit p) 11 0
  ry := fld m (rFrmJit p) 23 12
  wo := fld m (rFrmOut p) 11 0
  ho := fld m (rFrmOut p) 23 12
  f := fld m (rFrmTok p) 27 20 + 1
  s := fld m (rFrmTok p) 19 16 + 1
  rz := fld m (rFrmTok p) 12 12 == 1
  fmt := fld m (rFrmTok p) 11 8
  order := fld m (rFrmTok p) 7 7 == 1
  p := match fld m (rFrmTok p) 6 4 with | 0 => 4 | 1 => 8 | 2 => 14 | 3 => 16 | 4 => 32 | _ => 0
  t := fld m (rFrmTok p) 3 0
  deint := fld m (rFrmCol p) 4 4 == 1
  matrix := fld m (rFrmCol p) 3 2
  mode := fld m (rFrmCol p) 1 0

/-- Channels C. -/
def frmC (x : Frm) : Nat := if x.mode = 2 then 1 else 3
/-- E, the elements of a token, a multiple of 32. -/
def frmE (x : Frm) : Nat := (frmC x * x.t * x.p * x.p + 31) / 32 * 32
/-- Blocks of a token. -/
def frmNb (x : Frm) : Nat := frmE x / 32
/-- Tokens of one tubelet layer. -/
def frmLayer (x : Frm) : Nat := x.ho / x.p * (x.wo / x.p)
/-- Tokens of a sample, unpadded. -/
def frmValid (x : Frm) : Nat := x.f / x.t * frmLayer x
/-- T, padded. -/
def frmT (x : Frm) : Nat := (frmValid x + 15) / 16 * 16
/-- The format. -/
def frmFmt (x : Frm) : Fmt := (fmtOfCode x.fmt).getD .bf16
/-- TOFF (R374). -/
def frmToff (x : Frm) : Nat :=
  if fmtScalable (frmFmt x) then (64 + 16 * (frmT x / 16) * frmNb x + 1023) / 1024 * 1024 else 1024
/-- AUD in bytes. -/
def strAudBytes (m : Mod) (p : Nat) : Nat := fld m (rStrAud p) 24 6 * 64
/-- DLY_STR_STRIDE (R374). -/
def strStride (m : Mod) (p : Nat) : Nat :=
  let x := frmOf m p
  (frmToff x + frmT x / 16 * frmNb x * tileBytes (frmFmt x) + strAudBytes m p + 4095) / 4096 * 4096

/-- The configuration lets the stream run (R369, R372, R373, Table 13.11); also N, STEP, the share count and the list's length in
their ranges (log 24). -/
def strValid (m : Mod) (p : Nat) : Bool :=
  let x := frmOf m p
  [x.x0, x.y0, x.cw, x.ch, x.rx, x.ry].all (fun v => v % 2 == 0) && decide (2 ≤ x.cw) && decide (2 ≤ x.ch)
    && decide (1 ≤ x.fmt) && decide (x.fmt ≤ 9) && x.p != 0 && decide (1 ≤ x.t) && decide (x.t ≤ 8) && x.mode != 3
    && x.f % x.t == 0 && x.wo % x.p == 0 && x.ho % x.p == 0
    && (List.range 3).all (fun k => !fpNonFinite (BitVec.ofNat 32 (rd m (rFrmMean p k)).toNat)
          && !fpNonFinite (BitVec.ofNat 32 (rd m (rFrmScale p k)).toNat))
    && decide (1 ≤ strN m p) && decide (strN m p ≤ 2 ^ 48) && decide (1 ≤ strStep m p) && decide (strStep m p ≤ 2 ^ 24)
    && decide (1 ≤ strCount m p) && decide (strCount m p ≤ 65536) && decide (fld m (rStrRln p) 6 0 ≤ 64)

/-! ## Framing (R368 to R373) -/

/-- A pixel of a plane; out of range it is not asked for. -/
def px (pl : List (List Nat)) (y x : Nat) : Nat := (pl.getD y []).getD x 0

/-- The picture framing takes: an interlaced one with deint = 1 gives its top field (R368). -/
def topField (x : Frm) (q : Picture) : Picture :=
  if x.deint ∧ q.interlaced then fieldOf 0 q else q

/-- coord (R370). -/
def frmCoord (x wc wo : Nat) : Nat × Nat :=
  let s : Int := ((2 * x + 1) * wc * 256 / (2 * wo) : Nat) - 128
  let s := (max 0 (min s (((wc - 1) * 256 : Nat) : Int))).toNat
  (s / 256, s % 256)

/-- One output pixel of resize, from a crop at (cx, cy) of `wc` × `hc` (R370). -/
def frmPixel (pl : List (List Nat)) (cx cy wc hc wo ho ox oy : Nat) : Nat :=
  let (iy, fy) := frmCoord oy hc ho
  let (ix, fx) := frmCoord ox wc wo
  let jy := min (iy + 1) (hc - 1)
  let jx := min (ix + 1) (wc - 1)
  let at_ (y x : Nat) : Nat := px pl (cy + y) (cx + x)
  let h0 := (256 - fx) * at_ iy ix + fx * at_ iy jx
  let h1 := (256 - fx) * at_ jy ix + fx * at_ jy jx
  ((256 - fy) * h0 + fy * h1 + 32768) / 65536

/-- The FP32 value of an integer that FP32 holds. -/
def fpOfInt (i : Int) : W32 := if i < 0 then fpNeg (fpOfNat i.natAbs) else fpOfNat i.natAbs

/-- The FP32 value nearest to n / d. -/
def fpRatio (n d : Nat) : W32 := fpDiv (fpOfNat n) (fpOfNat d)

/-- AR, AGB, AGR, AB of a matrix (Table 13.4). -/
def frmCoef : Nat → W32 × W32 × W32 × W32
  | 0 => (fpRatio 1402 1000, fpNeg (fpRatio 344136 1000000), fpNeg (fpRatio 714136 1000000), fpRatio 1772 1000)
  | 1 => (fpRatio 15748 10000, fpNeg (fpRatio 187324 1000000), fpNeg (fpRatio 468124 1000000), fpRatio 18556 10000)
  | _ => (fpRatio 14746 10000, fpNeg (fpRatio 164553 1000000), fpNeg (fpRatio 571353 1000000), fpRatio 18814 10000)

/-- Matrix 3 takes matrix_coefficients from the stream (R371). -/
def frmMatrix (x : Frm) (code : Nat) : Nat := if x.matrix < 3 then x.matrix else if code = 5 ∨ code = 6 then 0 else if code = 9 then 2 else 1

/-- The channels of an output pixel (R371). -/
def frmColour (mode : Nat) (coef : W32 × W32 × W32 × W32) (depth yv cbv crv : Nat) : List W32 :=
  let k := 2 ^ (depth - 8)
  let y := fpMul (fpOfInt ((yv : Int) - (16 * k : Nat))) (fpRatio 1 (219 * k))
  let cb := fpMul (fpOfInt ((cbv : Int) - (128 * k : Nat))) (fpRatio 1 (224 * k))
  let cr := fpMul (fpOfInt ((crv : Int) - (128 * k : Nat))) (fpRatio 1 (224 * k))
  let (ar, agb, agr, ab) := coef
  match mode with
  | 0 => [fpFma ar cr y, fpFma agr cr (fpFma agb cb y), fpFma ab cb y]
  | 1 => [y, cb, cr]
  | _ => [y]

/-- An infinity becomes the largest finite value of its sign: framing never produces one (R373, log 46). -/
def fpSaturate (a : W32) : W32 := if bits a 30 0 = 0x7F800000 then a - 1 else a

/-- Channel `c` of output pixel (ox, oy) of a picture, cropped at (cx, cy). -/
def frmValue (m : Mod) (p : Nat) (x : Frm) (matrix cx cy : Nat) (q : Picture) (c oy ox : Nat) : W32 :=
  let yv := frmPixel q.y cx cy x.cw x.ch x.wo x.ho ox oy
  let ch (pl : List (List Nat)) : Nat :=
    if q.mono then 128 * 2 ^ (q.depth - 8) else frmPixel pl (cx / 2) (cy / 2) (x.cw / 2) (x.ch / 2) x.wo x.ho ox oy
  let v := (frmColour x.mode (frmCoef matrix) q.depth yv (ch q.cb) (ch q.cr)).getD c 0
  fpSaturate (fpMul (fpSub v (BitVec.ofNat 32 (rd m (rFrmMean p c)).toNat)) (BitVec.ofNat 32 (rd m (rFrmScale p c)).toNat))

/-- The elements of token `k` of the sample, `pics` being its output frames (R372). -/
def frmToken (m : Mod) (p : Nat) (x : Frm) (matrix cx cy : Nat) (pics : List Picture) (k : Nat) : List W32 :=
  let l := k / frmLayer x
  let ty := k % frmLayer x / (x.wo / x.p)
  let tx := k % frmLayer x % (x.wo / x.p)
  let v (c f r w : Nat) : W32 :=
    match pics[l * x.t + f]? with
    | some q => frmValue m p x matrix cx cy q c (ty * x.p + r) (tx * x.p + w)
    | none => 0
  let es := if x.order
    then (List.range x.t).flatMap (fun f => (List.range x.p).flatMap (fun r => (List.range x.p).flatMap (fun w =>
      (List.range (frmC x)).map (fun c => v c f r w))))
    else (List.range (frmC x)).flatMap (fun c => (List.range x.t).flatMap (fun f => (List.range x.p).flatMap (fun r =>
      (List.range x.p).map (fun w => v c f r w))))
  es ++ List.replicate (frmE x - es.length) 0

/-- Block `b` of a token in its format: the scale byte and the bytes of the row (R373). -/
def frmBlock (x : Frm) (es : List W32) (b : Nat) : Byte × List Byte :=
  let c : ConvCtl := ⟨frmFmt x, if x.rz then .zero else .nearest, true, 0, 0, 0, 0⟩
  let blk := (es.drop (32 * b)).take 32
  if fmtScalable c.f then
    let (s, codes, _) := convBlock c (List.range 32) blk
    (BitVec.ofNat 8 s, packElems c.f codes)
  else (0, packElems c.f (blk.map (fun v => (convElem c 0 v).1)))

/-! ## Stream status -/

/-- DLY_STR_STAT follows the stream: Full while Q batches are ready (log 24). -/
def strStat (m : Mod) (p : Nat) : Mod :=
  let x := strAt m p
  let ready := (x.batches.filter (fun b => b.ready)).length
  let st := if x.refused then 3 else if fld m (rStrCtl p) 0 0 = 0 then 0 else if strAhead m p ≤ ready then 2 else 1
  setFld (setFld m (rStrStat p) 31 28 st) (rStrStat p) 19 16 ready

/-- The batch that starts at a cursor. -/
def batchAt (x : StrSt) (start : Nat) : Option DlyBatch := x.batches.find? (fun b => b.start == start)

/-- Changes a batch. -/
def onBatch (m : Mod) (p start : Nat) (f : DlyBatch → DlyBatch) : Mod :=
  let x := strAt m p
  setStr m p { x with batches := x.batches.map (fun b => if b.start = start then f b else b) }

/-- Changes a sample of a batch. -/
def onSample (m : Mod) (p start pos : Nat) (f : DlySample → DlySample) : Mod :=
  onBatch m p start (fun b => { b with samples := b.samples.map (fun s => if s.pos = pos then f s else s) })

/-! ## Sample records and Reads (R350 to R352) -/

/-- Field [hi:lo] of word `i` of a record. -/
def recFld (ws : List W64) (i hi lo : Nat) : Nat := bits (ws.getD i 0) hi lo

/-- The record is valid (R352, Table 13.2). -/
def sampleRecValid (ws : List W64) : Bool :=
  let ts := recFld ws 0 35 34 == 0
  let pid (v : Nat) : Bool := decide (0x10 ≤ v) && decide (v ≤ 0x1FFF)
  let vid := recFld ws 3 15 0
  let aid := recFld ws 3 31 16
  recFld ws 0 33 32 != 3 && decide (recFld ws 0 35 34 ≤ 1) && recFld ws 0 63 36 == 0 && recFld ws 2 63 40 == 0
    && recFld ws 2 39 0 != 0 && (!ts || (pid vid && (pid aid || aid == 0 || aid == 0xFFFF))) && (ts || recFld ws 3 63 32 != 0)

/-- The address of a sample record (R352). -/
def recAddr (m : Mod) (p index : Nat) : Nat := fld m (rStrRec p) 56 5 * 32 + 32 * index

/-- The sample index of a position (R354). -/
def sampleIndex (m : Mod) (p pos : Nat) : Nat :=
  perm (rd m (rPrSeed p)) (strN m p) 0xFFF0 (pos / strN m p) 0 (pos % strN m p)

/-- The position of sample `i` of the share in the batch at a cursor (R354). -/
def sharePos (m : Mod) (p c i : Nat) : Nat := (c + strFrom m p + i) % 2 ^ 64

/-- A sample as it enters a batch: its record is read in the stream's context, and a context that is not one of the partition gives
no record (R386, log 46); with path 2 the port of its first Read is a free choice (R351). -/
def newSample (m : Mod) (p c i : Nat) : DlySample :=
  let seed := rd m (rPrSeed p)
  let pos := sharePos m p c i
  let index := sampleIndex m p pos
  let ws := if ctxOf m (strCtx m p) p then words8 (vaBytes m (strCtx m p) (recAddr m p index) 32) else []
  let w := if fld m (rStrCtl p) 7 7 = 1 then perm seed (strCount m p) 0xFFF1 c (strFrom m p) i else i
  let path := recFld ws 0 33 32
  let nsid := recFld ws 0 31 0
  let causes := (if sampleRecValid ws then [] else [4])
    ++ (if nsid < fld m (rStrNs p) 31 0 ∨ fld m (rStrNs p) 63 32 < nsid then [3] else [])
  { i := i, pos := pos, index := index, slot := w, words := ws.take 4
    port := if path = 2 then bits (Config.freeWord (m.free + i)) 0 0 else path % 2
    lba := 0, next := 0, last := 0, data := [], causes := causes, proj := none, done := false }

/-- The sample has failed already. -/
def sampleFailed (s : DlySample) : Bool := s.causes.any (fun c => [1, 2, 3, 4, 5, 6, 9].contains c)

/-- Reads of a sample that have not completed. -/
def sampleReads (m : Mod) (p start pos : Nat) : List DlyRead :=
  m.reads.filter (fun r => r.live && r.part == p && r.start == start && r.pos == pos)

/-- Every Read of the sample has completed, or none is to be issued. -/
def readsDone (m : Mod) (p start : Nat) (s : DlySample) : Bool :=
  (sampleReads m p start s.pos).isEmpty && (sampleFailed s || (s.last != 0 && s.next == s.last))

/-- Blocks put into address order. -/
def blockInsert (b : Nat × List Byte) : List (Nat × List Byte) → List (Nat × List Byte)
  | [] => [b]
  | c :: cs => if b.1 < c.1 then b :: c :: cs else c :: blockInsert b cs

/-- The bytes of the record's range, in address order whatever order the Reads completed in (R351). -/
def sampleBytes (s : DlySample) : List Byte :=
  let all := (s.data.foldl (fun l b => blockInsert b l) []).flatMap (fun b => b.2)
  (all.drop ((s.words.getD 1 0).toNat % s.lba)).take (recFld s.words 2 39 0)

/-- The next sample with a Read to issue on port `q`: partition, batch and sample, in ascending order (log 24). -/
def nextRead (m : Mod) (q : Nat) : Option (Nat × Nat × DlySample) :=
  (List.range 12).findSome? (fun p =>
    if !strOn m p then none else
    (strAt m p).batches.findSome? (fun b =>
      (b.samples.find? (fun s => s.port == q && !sampleFailed s && !s.done && (s.last == 0 || decide (s.next < s.last)))).map
        (fun s => (p, b.start, s))))

/-- A namespace that the module uses (Table 13.1). -/
def nsUsed (n : NvNs) : Bool := (n.lba == 512 || n.lba == 4096) && n.metadata == 0 && !n.protection && n.nvm

/-- The namespace of a number that port `q` reports and the module uses. -/
def nvNs (m : Mod) (q nsid : Nat) : Option NvNs := (nvAt m q).nss.find? (fun n => n.nsid.toNat == nsid && nsUsed n)

/-- The Reads a port may hold: max_out, and the entries of its queues (R351, Table 13.1). -/
def nvCap (m : Mod) (q : Nat) : Nat := min (max 1 (min 1024 (fld m (rNvCtl q) 31 16))) (fld m (rNvStat q) 15 0 * (nvAt m q).depth)

/-- The outstanding Reads of a port. -/
def nvOut (m : Mod) (q : Nat) : List DlyRead := m.reads.filter (fun r => r.port == q && r.issued)

/-- A sample fails with a cause: its Reads that wait to be issued again are not. -/
def sampleFail (m : Mod) (p start pos cause : Nat) : Mod :=
  onSample { m with reads := m.reads.filter (fun r => r.issued || !(r.live && r.part == p && r.start == start && r.pos == pos)) } p start pos
    (fun s => { s with causes := s.causes ++ [cause] })

/-- A Ready port issues what it may: Reads to be issued again, then new ones in ascending block order (R351); `fuel` bounds the samples
and Reads. -/
def nvIssue (q : Nat) : Nat → Mod → Mod
  | 0, m => m
  | fuel + 1, m =>
    if nvState m q ≠ 2 ∨ nvCap m q ≤ (nvOut m q).length then m else
    match m.reads.find? (fun r => r.port == q && !r.issued) with
    | some r =>
      if (nvNs m q r.nsid).isNone then nvIssue q fuel (sampleFail m r.part r.start r.pos 3)
      else nvIssue q fuel (satReg { m with reads := m.reads.erase r ++ [{ r with id := m.readId, issued := true }], readId := m.readId + 1 }
        (rNvRetry q) 32 1)
    | none =>
      match nextRead m q with
      | none => m
      | some (p, start, s) =>
        let nsid := recFld s.words 0 31 0
        match nvNs m q nsid with
        | none => nvIssue q fuel (sampleFail m p start s.pos 3)
        | some ns =>
          let off := (s.words.getD 1 0).toNat
          let s := if s.last = 0 then
              { s with lba := ns.lba, next := off / ns.lba, last := (off + recFld s.words 2 39 0 + ns.lba - 1) / ns.lba }
            else s
          let n := min (s.last - s.next) (max 1 (min (nvAt m q).mdts (2 ^ 20) / ns.lba))
          let m := onSample m p start s.pos (fun _ => { s with next := s.next + n })
          let r : DlyRead := ⟨m.readId, p, start, s.pos, nsid, recFld s.words 0 33 32 == 2, q, s.next, n, 0, true, true⟩
          nvIssue q fuel { m with reads := m.reads ++ [r], readId := m.readId + 1 }

/-- Both ports issue what they can. -/
def nvPump (m : Mod) : Mod :=
  let fuel (m : Mod) (q : Nat) : Nat :=
    2048 + ((List.range 12).map (fun p => ((strAt m p).batches.map (fun b => b.samples.length)).foldl (· + ·) 0)).foldl (· + ·) 0 + q
  [0, 1].foldl (fun m q => nvIssue q (fuel m q) m) m

/-! ## Batches (R355, R360) -/

/-- The cursors of the batches a stream prepares. -/
def strNamed (m : Mod) (p : Nat) : List Nat :=
  (List.range (strAhead m p)).map (fun k => ((rd m (rPrCur p)).toNat + k * strStep m p) % 2 ^ 64)

/-- Batches leave: their Reads and decodes go on and are dropped (R360). -/
def dropBatches (m : Mod) (p : Nat) (keep : DlyBatch → Bool) : Mod :=
  let x := strAt m p
  let gone := x.batches.filter (fun b => !keep b)
  let busy := gone.flatMap (fun b => b.samples.filterMap (fun s => if s.done then none else s.proj))
  let lost (r : DlyRead) : Bool := r.part == p && gone.any (fun b => b.start == r.start)
  let m := { m with reads := (m.reads.filter (fun r => r.issued || !lost r)).map (fun r => if lost r then { r with live := false } else r) }
  setStr m p { x with batches := x.batches.filter keep, dropped := x.dropped ++ busy }

/-- The batches in ascending order from the cursor, those it does not name before them (R355). -/
def strOrder (m : Mod) (p : Nat) (l : List DlyBatch) : List DlyBatch :=
  let named := strNamed m p
  l.filter (fun b => !named.contains b.start) ++ named.eraseDups.filterMap (fun c => l.find? (fun b => b.start == c))

/-! ## Ready lists (R357 to R359) -/

/-- Entry `e` of the ready list of a slot. -/
def rlAddr (m : Mod) (p slot e : Nat) : Nat := fld m (rStrRlist p) 56 12 * 4096 + 4096 * slot + 64 * e

/-- Bytes in the stream's context. -/
def rlRead (m : Mod) (p va n : Nat) : Except (Nat × Nat) (List Byte) :=
  if ctxOf m (strCtx m p) p then vaRead m (strCtx m p) va n else .error (va, 3)

/-- An entry of a list is launched: a LAUNCH without rsvd bits, whose clusters all lie in the partition (R358). -/
def rlOk (m : Mod) (p : Nat) (ws : List W64) : Bool :=
  efld ws 0 7 0 == 1 && efld ws 0 31 9 == 0 && efld ws 4 63 28 == 0 && [5, 6, 7].all (fun i => ws.getD i 0 == 0)
    && (efld ws 4 23 14 == 0 || (decide (efld ws 4 3 0 < 8) && decide (efld ws 4 13 4 + efld ws 4 23 14 ≤ 625)))
    && (sbClusters ws).all (fun k => partOfCluster m k == some p)

/-- The channels a list names, by 16 × cluster + channel (R359). -/
def rlChannels (m : Mod) (p slot : Nat) : List Nat :=
  (List.range (fld m (rStrRln p) 6 0)).flatMap (fun e =>
    match rlRead m p (rlAddr m p slot e) 64 with
    | .ok bs => let ws := words8 bs
                if rlOk m p ws then (sbClusters ws).map (fun k => 16 * k + efld ws 4 27 24) else []
    | .error _ => [])

/-- The open's batch has a slot: STAT shows it, and the channels of its list wait for it (R357, R359). -/
def strSelect (m : Mod) (p slot : Nat) : Mod :=
  let m := setFld m (rStrStat p) 2 0 slot
  { m with ingest := (m.ingest ++ rlChannels m p slot).eraseDups }

/-- The partition's channels wait for no list any more (R359). -/
def ingestEnd (m : Mod) (p : Nat) : Mod := { m with ingest := m.ingest.filter (fun e => partOfCluster m (e / 16) != some p) }

/-- The list has been launched. -/
def rlEnd (m : Mod) (p : Nat) : Mod := ingestEnd (setStr m p { strAt m p with list := none, held := false }) p

/-- A fetch for the list faults: MEM_SB_FADDR and MEM_SB_ERR of the partition's engine take it, the record of R258 names the stream, and
the list is held until a Resume (R358, log 24). -/
def rlFault (m : Mod) (p e va : Nat) : Mod :=
  let x := strCtx m p
  let m := setBit (wrN m (rSbFaddr p) (va % 2 ^ 57)) (rSbErr p) 3
  let m := setStr m p { strAt m p with held := true }
  if ctxOf m x p then
    sendUnclassed m (some x) 0x11 17 x p (leBytes 4 e ++ leBytes 4 0 ++ leBytes 8 (va % 2 ^ 57) ++ [BitVec.ofNat 8 (p + 16)])
  else m

/-- Launches descriptors until the list ends, a queue is full, a fetch waits or a fetch faults; `fuel` bounds their number. -/
def rlLaunch (p : Nat) : Nat → Mod → Mod
  | 0, m => m
  | fuel + 1, m =>
    let ctx := strCtx m p
    match (strAt m p).list with
    | none => m
    | some (slot, e, sub) =>
      if fld m (rStrRln p) 6 0 ≤ e then rlEnd m p else
      let next (m : Mod) (e sub : Nat) : Mod := rlLaunch p fuel (setStr m p { strAt m p with list := some (slot, e, sub) })
      let at_ := rlAddr m p slot e
      if rangeBusy m ctx at_ 64 false then rangeWake m ctx at_ 64 false else
      match rlRead m p at_ 64 with
      | .error f => rlFault m p e f.1
      | .ok bs =>
        let ws := words8 bs
        let m := if sub = 0 then eccRead m ctx at_ 64 none else m
        if !rlOk m p ws then next (setBit m (rStrErr p) 1) (e + 1) 0
        else if efld ws 4 23 14 ≤ sub then next m (e + 1) 0
        else
          let k := 625 * efld ws 4 3 0 + efld ws 4 13 4 + sub
          let ch := efld ws 4 27 24
          let va := (ws.getD 1 0).toNat + 64 * sub
          if rangeBusy m ctx va 64 false then rangeWake m ctx va 64 false else
          match rlRead m p va 64 with
          | .error f => rlFault m p e f.1
          | .ok ds =>
            if launchRefused m k ch then next (setBit m (rChErr k ch) 0) e (sub + 1)
            else match enqueue m k ch (words8 ds) with
              | none => m
              | some m => next (eccRead m ctx va 64 none) e (sub + 1)

/-- The list goes on, unless a fault holds it; 64 entries name at most 625 clusters each. -/
def rlPump (m : Mod) (p : Nat) : Mod := if (strAt m p).held then m else rlLaunch p 40200 m

/-- A Resume of the partition's engine: a held list goes on, and so does a Faulted engine (R257, R358). -/
def rlResume (m : Mod) (p : Nat) : Mod :=
  if (strAt m p).held then
    rlPump (setStr (if sbState m p = 5 then sbResume m p else m) p { strAt m p with held := false }) p
  else sbResume m p

/-- A write of MEM_SB_CMD: a Resume reaches the stream's list too (R257, R358). -/
def engineCommand (m : Mod) (e cmd : Nat) : Mod := if cmd = 3 then rlResume m e else sbCommand m e cmd

/-- The list of a batch is launched (R357). -/
def rlStart (m : Mod) (p : Nat) (b : DlyBatch) : Mod :=
  let m := onBatch m p b.start (fun b => { b with launched := true })
  rlPump (setStr m p { strAt m p with waiting := none, list := some (b.slot, 0, 0), held := false }) p

/-- An accepted open (R357, R359). -/
def strOpen (m : Mod) (p : Nat) : Mod :=
  if fld m (rStrCtl p) 0 0 = 0 then m else
  let c := (rd m (rPrCur p)).toNat
  match batchAt (strAt m p) c with
  | none => setStr m p { strAt m p with waiting := some c }
  | some b =>
    let m := strSelect m p b.slot
    if b.ready then rlStart m p b else setStr m p { strAt m p with waiting := some c }

/-! ## Preparation -/

/-- The records of the batch at a cursor can be read now (R384). -/
def recsFree (m : Mod) (p c : Nat) : Bool :=
  (List.range (strCount m p)).all (fun i => !rangeBusy m (strCtx m p) (recAddr m p (sampleIndex m p (sharePos m p c i))) 32 false)

/-- The records of the batch at a cursor are read (R437). -/
def recsRead (m : Mod) (p c : Nat) : Mod :=
  if m.ecc.isEmpty then m else
  (List.range (strCount m p)).foldl (fun m i => eccRead m (strCtx m p) (recAddr m p (sampleIndex m p (sharePos m p c i))) 32 none) m

/-- Prepares the batch at a cursor, in the free slot of lowest number; an open that waits for it selects it. -/
def addBatch (m : Mod) (p c : Nat) : Mod :=
  let x := strAt m p
  if (batchAt x c).isSome || !recsFree m p c then m else
  match (List.range (strAhead m p)).find? (fun q => !x.batches.any (fun b => b.slot == q)) with
  | none => m
  | some q =>
    let n := strCount m p
    let b : DlyBatch := ⟨c, q, (List.range n).map (newSample m p c), false, false⟩
    let m := recsRead { setStr m p { x with batches := strOrder m p (x.batches ++ [b]) } with free := m.free + n } p c
    if x.waiting = some c then strSelect m p q else m

/-- The stream prepares what it may; a configuration that has become invalid refuses the next preparation (Table 13.11). -/
def strPump (m : Mod) (p : Nat) : Mod :=
  if fld m (rStrCtl p) 0 0 = 0 then strStat m p else
  let due := (strNamed m p).any (fun c => (batchAt (strAt m p) c).isNone)
  if !due then strStat m p else
  if strValid m p then
    let m := setStr m p { strAt m p with refused := false }
    strStat (nvPump ((strNamed m p).foldl (fun m c => addBatch m p c) m)) p
  else strStat (setBit (setStr m p { strAt m p with refused := true }) (rStrErr p) 0) p

/-- PRINT_CUR has changed: batches it no longer names are freed, and new ones are prepared (R355). -/
def strCursor (m : Mod) (p : Nat) : Mod :=
  let named := strNamed m p
  strPump (dropBatches m p (fun b => named.contains b.start)) p

/-- A stream register has been written while enable is 1 (R360). -/
def strReconfig (m : Mod) (p : Nat) : Mod :=
  if fld m (rStrCtl p) 0 0 = 0 then m else
  let gone := ((strAt m p).batches.filter (fun b => !b.launched)).length
  strPump (satReg (dropBatches m p (fun b => b.launched)) (rStrRefetch p) 32 gone) p

/-- Enable is written 1 (R355, R373, Table 13.11). -/
def strEnable (m : Mod) (p : Nat) : Mod :=
  if strValid m p then strPump (setStr m p { strAt m p with refused := false }) p
  else strStat (setBit (setStr m p { strAt m p with refused := true }) (rStrErr p) 0) p

/-- Enable is written 0 (R360). -/
def strDisable (m : Mod) (p : Nat) : Mod :=
  let m := dropBatches m p (fun _ => false)
  strStat (ingestEnd (setStr m p { strAt m p with refused := false, waiting := none, list := none, held := false }) p) p

/-- A stream with a batch to prepare goes on. -/
def strTick (m : Mod) (p : Nat) : Mod :=
  if strOn m p && (strNamed m p).any (fun c => (batchAt (strAt m p) c).isNone) then strPump m p else m

/-! ## Samples (R366, R374 to R376) -/

/-- A free projector of lowest number takes the next sample in position order (R366). -/
def sampleAssign (p : Nat) (m : Mod) : Mod :=
  if !strOn m p then m else
  let mask := (rd m (rStrProj p)).toNat
  match (List.range 48).find? (fun j => mask.testBit j && !bit (rd m rDlyProjBusy) j) with
  | none => m
  | some j =>
    match (strAt m p).batches.findSome? (fun b =>
        (b.samples.find? (fun s => s.proj.isNone && !s.done)).map (fun s => (b.start, s.pos))) with
    | none => m
    | some (start, pos) => setBit (onSample m p start pos (fun s => { s with proj := some j })) rDlyProjBusy j

/-- The status of causes: 0 ok, 1 concealed, 2 truncated, 3 failed (R376, Table 13.8). -/
def sampleStatus (causes : List Nat) (layers : Nat) : Nat :=
  if causes.any (fun c => [1, 2, 3, 4, 5, 6, 9].contains c) || (causes.contains 8 && layers == 0) then 3
  else if causes.contains 8 then 2 else if causes.contains 7 then 1 else 0

/-- The audio units that fit, and whether one did not (R363). -/
def audioBytes (limit : Nat) (us : List AudioUnit) : List Byte × Bool :=
  us.foldl (fun acc u =>
    let head : Nat := u.pts.toNat + b2n u.valid * 2 ^ 33 + u.payload.length % 2 ^ 24 * 2 ^ 40
    let unit := leBytes 8 head ++ u.payload ++ List.replicate ((8 - u.payload.length % 8) % 8) 0
    if acc.1.length + unit.length ≤ limit then (acc.1 ++ unit, acc.2) else (acc.1, true)) ([], false)

/-- What the sample's record and the bytes that storage returned for it decode to (R348, R352, R361 to R368). -/
def sampleResult (x : Frm) (s : DlySample) : SampleResult :=
  if !s.causes.isEmpty then SampleResult.failed [] else
  let vid := recFld s.words 3 15 0
  let aid := recFld s.words 3 31 16
  let start := recFld s.words 3 63 32
  let bs := sampleBytes s
  if recFld s.words 0 35 34 = 0 then decodeSample (tsDemux vid aid bs) start x.f x.s
  else decodeSample (isoDemux vid aid start bs) 0 x.f x.s

/-- The Dailies write-back arbiter. -/
def wbArb : ArbId := .block 63 0

/-- An entry of the arbiter's table grants stream `p` locked sequences, and its phase admits the stream (R273, R278). -/
def wbOpen (m : Mod) (p : Nat) : Bool :=
  (List.range (arbLen m wbArb)).any (fun e => let x := arbEntry m wbArb e; x.2 && (x.1 == p || x.1 == 31))
    && !arbMasked m wbArb { arbAt m wbArb with used := [] } p

/-- Decisions of the arbiter until a request of `p` is granted (R266). -/
def wbTurns (p id : Nat) : Nat → Mod → Mod
  | 0, m => m
  | fuel + 1, m =>
    let x := arbAt m wbArb
    if x.reqs.any (fun q => q.rq == p && q.id == id) then
      wbTurns p id fuel (arbDecide wbArb (if x.due then 0 else match x.run with | some _ => arbLeft x | none => 1) [] m)
    else m

/-- Stream `p` writes `beats` lines from an address on as one request of the arbiter, requester `p` (R375). -/
def wbSend (m : Mod) (p va beats id : Nat) (locked : Bool) : Mod :=
  let dst : Fin 9 := match translate m (strCtx m p) va true with
    | .ok a => if a < hbmTop then Fin.ofNat 9 (a / 0x1800000000) else 8
    | .error _ => 8
  let x := arbAt m wbArb
  let q : ArbReq := ⟨p, p, beats, locked, 0, id, va, 8, dst, true, none⟩
  wbTurns p id ((x.reqs.length + 3) * (2 * arbLen m wbArb + 2)) (arbJoin m wbArb [q])

/-- Writes T-tile `j` with the line that holds its sidecar, as one locked sequence (R375). -/
def tileWrite (p base toff : Nat) (scalable : Bool) (m : Mod) (j : Nat) (rows : List (Byte × List Byte)) : Mod :=
  let data := rows.flatMap (fun r => r.2)
  let va := base + toff + data.length * j
  let m := vaPuts (wbSend m p va (data.length / 64 + 1) (2 ^ 32 + j) true) (strCtx m p) va data
  if scalable then vaPuts m (strCtx m p) (base + 64 + 16 * j) (rows.map (fun r => r.1)) else m

/-- Writes lines that are no tile, four to a request. -/
def linesWrite (p : Nat) (m : Mod) (va : Nat) (bs : List Byte) : Mod :=
  let n := (bs.length + 63) / 64
  vaPuts ((List.range ((n + 3) / 4)).foldl (fun m i => wbSend m p (va + 256 * i) (min 4 (n - 4 * i)) (2 ^ 33 + i) false) m) (strCtx m p) va bs

/-- The region of a sample of a batch (R374). -/
def regionBase (m : Mod) (p : Nat) (b : DlyBatch) (s : DlySample) : Nat :=
  fld m (rStrBuf p) 56 12 * 4096 + (b.slot * strCount m p + s.slot) * strStride m p

/-- Writes a sample's region, header last (R374, R375, Tables 13.5 and 13.6), with its counters and event (R376). -/
def sampleWrite (m : Mod) (p : Nat) (b : DlyBatch) (s : DlySample) : Mod :=
  let x := frmOf m p
  let r := sampleResult x s
  let e := s.pos / strN m p
  let j := kcg (rd m (rPrSeed p)) (BitVec.ofNat 64 e) 0xFFF2 (BitVec.ofNat 64 s.pos)
  let cx := x.x0 + 2 * (bits j 31 0 % (x.rx / 2 + 1))
  let cy := x.y0 + 2 * (bits j 63 32 % (x.ry / 2 + 1))
  let pics := (List.range x.f).filterMap (fun i => (r.pics[r.first + i * x.s]?).map (topField x))
  let layers := pics.length / x.t
  let causes := s.causes ++ r.causes
    ++ (if pics.length < x.f then [8] else [])
    ++ (if pics.any (fun q => decide (q.width < cx + x.cw) || decide (q.height < cy + x.ch)) then [9] else [])
  let status := sampleStatus causes layers
  let cause := causes.foldl (fun a c => if a = 0 then c else min a c) 0
  let valid := if status = 3 then 0 else layers * frmLayer x
  let tok (k : Nat) : List W32 :=
    if k < valid then frmToken m p x (frmMatrix x r.matrix) cx cy pics k else List.replicate (frmE x) 0
  let base := regionBase m p b s
  let tiles := (List.range (frmT x / 16)).flatMap (fun g =>
    let rows := (List.range 16).map (fun i => tok (16 * g + i))
    (List.range (frmNb x)).map (fun k => rows.map (fun es => frmBlock x es k)))
  let (audio, cut) := audioBytes (strAudBytes m p) r.audio
  let header := [leBytes 8 s.pos, leBytes 8 s.index, leBytes 8 (valid + status * 2 ^ 32 + cause * 2 ^ 40),
    leBytes 8 (frmT x + r.concealed % 2 ^ 32 * 2 ^ 32), leBytes 8 (audio.length + b2n cut * 2 ^ 32),
    leBytes 8 (r.size.1 + r.size.2 * 2 ^ 32), leBytes 8 (r.decoded % 2 ^ 32), leBytes 8 e].flatten
  let m := if ctxOf m (strCtx m p) p then
      let m := (tiles.mapIdx (fun j t => (j, t))).foldl (fun m t => tileWrite p base (frmToff x) (fmtScalable (frmFmt x)) m t.1 t.2) m
      let m := linesWrite p m (base + frmToff x + frmT x / 16 * frmNb x * tileBytes (frmFmt x)) audio
      linesWrite p m base header
    else m
  let m := satReg (satReg m (rStrSamples p) 48 1) rDlyPixels 48
    (if status = 3 then 0 else (pics.map (fun q => q.width * q.height)).foldl (· + ·) 0)
  if status = 0 then m else
    raise (satReg m (if status = 1 then rStrConcealed p else if status = 2 then rStrTrunc p else rStrFailed p) 32 1)
      (telemEv 8 10 1 .warning ([BitVec.ofNat 8 p, BitVec.ofNat 8 status, BitVec.ofNat 8 cause] ++ leBytes 5 0 ++ leBytes 8 s.pos))

/-- Clears a projector's bit in DLY_PROJ_BUSY. -/
def projFree (m : Mod) (j : Nat) : Mod := setFld m rDlyProjBusy j j 0

/-- The sample that projector `j` decodes for a stream, and its batch. -/
def projSample (m : Mod) (p j : Nat) : Option (DlyBatch × DlySample) :=
  (strAt m p).batches.findSome? (fun b => (b.samples.find? (fun s => s.proj == some j && !s.done)).map (fun s => (b, s)))

/-- Projector `j`'s decode and its framing end: the sample's region is written once its bytes are there and the arbiter and the
memory take it, or the result is dropped with its batch (R360, R375, R376). -/
def sampleDone (p j : Nat) (m : Mod) : Mod :=
  match projSample m p j with
  | some (b, s) =>
    let base := regionBase m p b s
    if !readsDone m p b.start s || !wbOpen m p then m
    else if rangeBusy m (strCtx m p) base (strStride m p) true then rangeWake m (strCtx m p) base (strStride m p) true
    else onSample (projFree (sampleWrite m p b s) j) p b.start s.pos (fun s => { s with done := true, data := [] })
  | none =>
    let x := strAt m p
    if x.dropped.contains j then projFree (setStr m p { x with dropped := x.dropped.erase j }) j else m

/-- The lowest batch whose samples are all written is read back and ready; a waiting list is launched (R356, R357). -/
def batchReady (p : Nat) (m : Mod) : Mod :=
  let x := strAt m p
  match x.batches.find? (fun b => !b.ready && b.samples.all (fun s => s.done)) with
  | none => m
  | some b =>
    let m := strStat (onBatch m p b.start (fun b => { b with ready := true })) p
    if x.waiting = some b.start then rlStart (setFld m (rStrStat p) 2 0 b.slot) p b else m

/-! ## NVMe ports (R350, R351) -/

/-- A write of DLY_NVME_CTL.enable. -/
def nvEnable (m : Mod) (q on : Nat) : Mod := if on = 1 then wrN m (rNvStat q) (2 ^ 28) else wrN m (rNvStat q) 0

/-- The controller's initialisation ends: up to 16 I/O queue pairs, each at most 256 entries deep (Table 13.1). -/
def nvInit (q : Nat) (ok : Bool) (pairs depth mdts : Nat) (nss : List NvNs) (width rate : Nat) (m : Mod) : Mod :=
  if nvState m q ≠ 1 then m else
  let link := width % 16 * 2 ^ 24 + rate % 16 * 2 ^ 20
  if ok then
    nvPump { wrN m (rNvStat q) (2 * 2 ^ 28 + link + min 16 pairs) with
      nvs := sset (fun _ => NvSt.reset) m.nvs q ⟨nss, mdts, min 256 depth⟩ }
  else setBit (wrN m (rNvStat q) (3 * 2 ^ 28 + link)) (rNvErr q) 2

/-- A Read has failed: it waits to be issued again, with path 2 on the other port, or its sample fails (R351). -/
def readRetry (m : Mod) (r : DlyRead) (cause : Nat) : Mod :=
  if !r.live then m
  else match (batchAt (strAt m r.part) r.start).bind (fun b => b.samples.find? (fun s => s.pos == r.pos)) with
  | none => m
  | some s =>
    if sampleFailed s then m
    else if r.tries < fld m rDlyCfg 3 0 then
      { m with reads := m.reads ++ [{ r with port := if r.either then 1 - r.port else r.port, tries := r.tries + 1, issued := false }] }
    else sampleFail m r.part r.start r.pos cause

/-- The outstanding Read of a number on a port. -/
def readOf (m : Mod) (q tag : Nat) : Option DlyRead := m.reads.find? (fun r => r.id == tag && r.port == q && r.issued)

/-- A Read completes: its blocks are kept for the demultiplexer (R348, R351). One that returns another number of bytes has not
succeeded (log 46). -/
def readComplete (q tag : Nat) (ok : Bool) (data : List Byte) (m : Mod) : Mod :=
  match readOf m q tag with
  | none => m
  | some r =>
    let m := satReg { m with reads := m.reads.erase r } (rNvCmds q) 48 1
    let size := ((nvNs m q r.nsid).map (fun n => n.lba)).getD 0
    nvPump (if ok && data.length == r.n * size then
        let m := satReg m (rNvRbytes q) 48 data.length
        if r.live then onSample m r.part r.start r.pos (fun s => { s with data := s.data ++ [(r.lba, data)] }) else m
      else readRetry (setBit m (rNvErr q) 0) r 1)

/-- A Read times out: it is aborted, and what arrives for it later finds it no more (R351). -/
def readTimeout (q tag : Nat) (m : Mod) : Mod :=
  match readOf m q tag with
  | none => m
  | some r => nvPump (readRetry (setBit (satReg { m with reads := m.reads.erase r } (rNvTmo q) 32 1) (rNvErr q) 1) r 2)

/-! ## The rows -/

/-- The controller's initialisation ends (R350). -/
def execNvmeInitDone (q : Fin 2) (ok : Bool) (queues : NvQueues) (mdts : Nat) (nss : List NvNs) (width rate : BitVec 4) (s : State) :
    Host.Outcome State Fault Refusal :=
  .next (s.onMod (nvInit q.val ok queues.pairs queues.depth mdts nss width.toNat rate.toNat))

/-- A Read completes (R351). -/
def execNvmeReadComplete (q : Fin 2) (tag : Nat) (ok : Bool) (data : List Byte) (s : State) : Host.Outcome State Fault Refusal :=
  .next (s.onMod (readComplete q.val tag ok data))

/-- A Read times out (R351). -/
def execNvmeReadTimeout (q : Fin 2) (tag : Nat) (s : State) : Host.Outcome State Fault Refusal :=
  .next (s.onMod (readTimeout q.val tag))

/-- The controller reports an asynchronous event (R349). -/
def execNvmeAsyncEvent (q : Fin 2) (s : State) : Host.Outcome State Fault Refusal :=
  .next (s.onMod (fun m => if nvState m q.val = 2 then setBit m (rNvErr q.val) 3 else m))

/-- A free projector takes a sample (R366). -/
def execDlySampleAssign (p : Part) (s : State) : Host.Outcome State Fault Refusal := .next (s.onMod (sampleAssign p.val))

/-- A sample is written (R376). -/
def execDlySampleDone (p : Part) (j : Fin 48) (s : State) : Host.Outcome State Fault Refusal :=
  .next (s.onMod (sampleDone p.val j.val))

/-- A batch is ready (R356). -/
def execDlyBatchReady (p : Part) (s : State) : Host.Outcome State Fault Refusal := .next (s.onMod (batchReady p.val))

end Sys2Proof.Machine
end

