-- ==== Sys2Proof/Machine/Reach.lean ====
section
/-!
DEFINITION. How an access names control-space registers (14_partitions_host.md R404) and which of them a VF reaches (R403,
Table 14.10).
-/
namespace Sys2Proof.Machine

/-- Width in bytes of the register at an offset, 0 for none. -/
def regSize (off : Nat) : Nat := (regInfo off).elim 0 (·.size)

/-- What an access of a size at an offset addresses (R404): a register, a half of a 64-bit register (named by the register's
offset), a group of byte registers, a reserved offset, or nothing that the size or alignment allows. -/
inductive Access where
  | bad
  | reserved
  | whole (off : Nat)
  | low (off : Nat)
  | high (off : Nat)
  | lanes (off : Nat)
  deriving DecidableEq, Repr

/-- A byte of the range lies in a register. -/
def inRegister (off n : Nat) : Bool :=
  (natsFrom off n).any (fun o => regSize o != 0 || decide (4 ≤ regSize (o / 4 * 4)) || regSize (o / 8 * 8) == 8)

/-- The kind of an access: misalignment and size come before everything else (log 11). -/
def accessAt (off size : Nat) : Access :=
  if (size ≠ 1 ∧ size ≠ 4 ∧ size ≠ 8) ∨ off % size ≠ 0 then .bad
  else if size = 8 then (if regSize off = 8 then .whole off else if inRegister off 8 then .bad else .reserved)
  else if size = 4 then
    (if regSize off = 4 then .whole off
     else if regSize off = 8 then .low off
     else if off % 8 = 4 ∧ regSize (off - 4) = 8 then .high (off - 4)
     else if (natsFrom off 4).any (fun o => regSize o == 1) then .lanes off else .reserved)
  else if regSize off = 1 then .whole off
  else if inRegister off 1 then .bad else .reserved

/-- The offset that decides a function's reach. -/
def Access.base (a : Access) (off : Nat) : Nat := match a with | .whole o | .low o | .high o | .lanes o => o | _ => off

/-- The bits of the register at an offset that VF p + 1 may write, or none where it does not reach it (Table 14.10). -/
def vfMask (m : Mod) (p off : Nat) : Option Nat :=
  let block (base len mask : Nat) : Option Nat := if base ≤ off ∧ off < base + len then some mask else none
  if off < 0x10000 then (if off = rModId then some 0 else none)
  else if off < 0x20000 then block (printBase p) 0x400 m64
  else if off < 0x40000 then
    if partBase p ≤ off ∧ off < partBase p + 0x100 then
      (if off = rPartCtl p then some 1 else if off = rPartOwner p then some m64 else some 0)
    else if 0x21000 ≤ off ∧ off < 0x23000 then (if off < 0x21300 ∨ 0x22000 ≤ off then some 0 else none)
    else if ctxWin ≤ off ∧ off < ctxWin + 0x54 then
      let o := off - ctxWin
      let c := ctxAt m (bits (fnAt m (p + 1)).ctxSel 11 0)
      if o < 0x0C then some m64 else if o = 0x0C then some 0
      else if c.active ∧ c.part.val = p then some m64 else none
    else none
  else if off < 0x70000 then none
  else if off < 0x100000 then block meterBase 0x10000 0
  else if off < 0x200000 then
    if off = rTopo ∨ off = rLinemap 0 ∨ off = rLinemap 1 ∨ off = rLinemap 2 then some 0
    else if 0x104000 ≤ off ∧ off < 0x106000 then
      let i := (off - 0x104000) / 0x80
      if fld m (rCsCtl i) 7 4 = p then some (if off = rCsCtl i then m64 - 0xF0 else m64) else none
    else if 0x108000 ≤ off ∧ off < 0x108800 then
      let r := (off - 0x108000) / 0x80
      if fld m (rRlCtl r) 7 4 = p then some (if off = rRlCtl r then m64 - 0xF0 else m64) else none
    else block (grpBase p) 0x100 m64
  else if off < 0x300000 then
    if off = rDlyCap ∨ off = rStrProj p then some 0 else block (strBase p) 0x100 m64
  else if off < 0x310000 then
    if off = rMemCap ∨ off = rFarSize then some 0
    else if rPstall p 0 ≤ off ∧ off < rPstall p 0 + 0x80 then some 0
    else block (sbBase p) 0x100 m64
  else if 0x01000000 ≤ off ∧ off < 0x01800000 then
    let o := off % 0x100000
    let k := 625 * ((off - 0x01000000) / 0x100000) + o / 0x400
    if o < 625 * 0x400 ∧ off % 0x400 < 0x380 ∧ partHasBay m p (bayOf k) then some m64 else none
  else none

/-- The bits a function may write of the register at an offset it reaches. -/
def reachMask (m : Mod) (fn : Fn) (off : Nat) : Option Nat := match fn with | .pf => some m64 | .vf p => vfMask m p.val off

/-- A denied access (R405): PART_DENY, MOD_ERR.deny and an audit event; PART_ERR.deny shows it (log 29). -/
def denyAccess (m : Mod) (fn : Fn) (off value : Nat) : Mod :=
  match fn with
  | .pf => m
  | .vf p => audit (satReg (setBit (setBit m rModErr 3) (rPartErr p.val) 3) (rPartDeny p.val) 32 1) (fnKey fn) off value 1 0

end Sys2Proof.Machine
end

