-- ==== Sys2Proof/Machine/Print.lean ====
section
/-!
DEFINITION. Print engines (11_takes_prints.md R282 to R312) and the contributions, verdicts and votes they exchange
(12_zwison_fabric.md R333, R339, R340).
-/
namespace Sys2Proof.Machine

/-! ## Control messages (R333) -/

/-- A body padded to whole flits. -/
def padFlits (bs : List Byte) : List Byte := bs ++ List.replicate ((64 - bs.length % 64) % 64) 0

/-- Sends a control message to a neighbour and keeps it until it is acknowledged, over a link that is Down too (R333); the index field
carries its number (log 20). -/
def sendControl (m : Mod) (q typ p : Nat) (rest : List W64) (body : List Byte) : Mod :=
  let bs := padFlits body
  let cls := dateline m q
  let head := mkHead (headWord0 m (neighbour m q) 0 typ (bs.length / 64) p) (grpId m p) (grpEpoch m p) m.ctlKey rest
  let m := { m with unacked := m.unacked ++ [(m.ctlKey, ⟨q, cls, head, bs, 0, false⟩)], ctlKey := m.ctlKey + 1 }
  if portUsable m q then sendOn m q cls head bs else m

/-- Acknowledges a control message to the neighbour that sent it. -/
def sendAck (m : Mod) (q p : Nat) (kind : Nat) : Mod :=
  sendNear m q 0 0x23 p (grpId m p) (grpEpoch m p) 0 [BitVec.ofNat 64 kind, rd m (rPrSlate p)] []

/-- The module decides alone for its partition, or is its group's anchor (log 26). -/
def isAnchor (m : Mod) (p : Nat) : Bool := grpState m p == 0 || fld m (rGrpAnchor p) 14 0 == myCoord m

/-- The census tree of the current epoch carries contributions and votes: the group is Formed, or there is none (R330). -/
def treeUp (m : Mod) (p : Nat) : Bool := grpState m p == 0 || grpState m p == 2

/-- The child ports of the census tree. -/
def treeChildren (m : Mod) (p : Nat) : List Nat := if grpState m p = 0 then [] else (grpAt m p).children

/-- A message to the parent. -/
def toParent (m : Mod) (p : Nat) (rest : List W64) (body : List Byte) : Mod :=
  match (grpAt m p).parent with
  | some q => sendControl m q 0x20 p rest body
  | none => m

/-- A message to every child. -/
def toChildren (m : Mod) (p : Nat) (rest : List W64) (body : List Byte) : Mod :=
  (treeChildren m p).foldl (fun m q => sendControl m q 0x20 p rest body) m

/-! ## Registers and branches -/

/-- The context of the job. -/
def prCtx (m : Mod) (p : Nat) : Nat := fld m (rPrId p) 35 24
/-- The signed scale of a byte; −128 and −127 act as −126. -/
def scaleOf (b : Nat) : Int := max (-126) (toSigned 8 b)
/-- The working scale e. -/
def prScale (m : Mod) (p : Nat) : Int := scaleOf (fld m (rPrLscale p) 7 0)
/-- Sets the working scale. -/
def setScale (m : Mod) (p : Nat) (e : Int) : Mod := setFld m (rPrLscale p) 7 0 (BitVec.ofInt 8 e).toNat
/-- Branches in use. -/
def prBranches (m : Mod) (p : Nat) : Nat := fld m (rPrCtl p) 9 8 + 1
/-- The bays of a branch; those of branch 0 are the partition's until they are written (Table 11.8). -/
def brBays (m : Mod) (p b : Nat) : Nat :=
  if b = 0 ∧ !(prAt m p).baysSet then (rd m (rPartBays p)).toNat else (rd m (rPrBr p b 0)).toNat
/-- The bays of every branch. -/
def allBays (m : Mod) (p : Nat) : Nat := (List.range (prBranches m p)).foldl (fun a b => a ||| brBays m p b) 0
/-- PRINT_ERR.cmd_ignored. -/
def prIgnored (m : Mod) (p : Nat) : Mod := setBit m (rPrErr p) 0
/-- Sets the phase. -/
def setPhase11 (m : Mod) (p ph : Nat) : Mod := setFld m (rPrStat p) 3 0 ph
/-- The slate. -/
def prSlate (m : Mod) (p : Nat) : W64 := rd m (rPrSlate p)
/-- PRINT_STAT.attempt. -/
def prAttempt (m : Mod) (p : Nat) : Nat := fld m (rPrStat p) 15 8
/-- Updates an engine's hidden state. -/
def onPr (m : Mod) (p : Nat) (f : PrintSt → PrintSt) : Mod := setPr m p (f (prAt m p))

/-- The bays of branches are non-empty, disjoint and inside the partition (R285). -/
def branchesOk (m : Mod) (p : Nat) : Bool :=
  ((List.range (prBranches m p)).foldl (fun (acc : Bool × Nat) b =>
    let x := brBays m p b
    (acc.1 && x != 0 && x &&& acc.2 == 0 && x &&& (rd m (rPartBays p)).toNat == x, acc.2 ||| x)) (true, 0)).1

/-! ## Journal (R293) -/

/-- One byte into the CRC-64 register, reflected. -/
def crc64Byte (c : Nat) (b : Byte) : Nat :=
  (List.range 8).foldl (fun c _ => if c % 2 = 1 then Nat.xor (c / 2) 0xC96C5795D7870F42 else c / 2) (Nat.xor c b.toNat)

/-- crc64_update. -/
def crc64Update (c : W64) (bs : List Byte) : W64 := BitVec.ofNat 64 (bs.foldl crc64Byte c.toNat)

/-- The digest function of bytes. -/
def crc64 (bs : List Byte) : W64 := crc64Update 0xFFFFFFFFFFFFFFFF bs ^^^ 0xFFFFFFFFFFFFFFFF

/-- The journal's address. -/
def jBase (m : Mod) (p : Nat) : Nat := fld m (rPrJbase p) 56 8 * 256

/-- The 256 bytes at PRINT_JBASE are mapped to HBM of this module in the job's context (R285). -/
def jMapped (m : Mod) (p : Nat) : Bool :=
  match translate m (prCtx m p) (jBase m p) false with
  | .ok a => decide (a < hbmTop)
  | .error _ => false

/-- A journal copy of Table 11.6. -/
def journalCopy (m : Mod) (p state : Nat) (slate seq : W64) : List Byte :=
  let s := prAt m p
  let b := leBytes 8 (0x4A31 + state * 2 ^ 16) ++ leBytes 8 slate.toNat
    ++ leBytes 8 (fld m (rPrApplied p) 31 0 + s.stagedHi * 2 ^ 32) ++ leBytes 8 s.crc.toNat
    ++ leBytes 8 (fld m (rPrAtabN p) 31 0 + s.vdEpoch.toNat * 2 ^ 32) ++ leBytes 8 seq.toNat ++ List.replicate 72 0
  b ++ leBytes 8 (crc64 b).toNat

/-- Writes the next journal copy; none when its page does not take the write. -/
def journalWrite (m : Mod) (p state : Nat) (slate : W64) : Option Mod :=
  let seq := (prAt m p).seq + 1
  let bs := journalCopy m p state slate seq
  let m := onPr m p (fun s => { s with seq := seq })
  let va := jBase m p + 128 * (seq.toNat % 2)
  match vaWrite m (prCtx m p) va bs with
  | .ok _ => some (vaLate m (prCtx m p) va bs)
  | .error _ => none

/-- The engine's apply cannot go on: Held with reason 5 and PRINT_ERR.apply_fault (log 25). -/
def applyFault (m : Mod) (p : Nat) : Mod := setBit (prHold m p 5) (rPrErr p) 6

/-- The valid journal copies: state, A, S, CRC register and sequence number (R293). -/
def journalRead (m : Mod) (p : Nat) : Option (Nat × Nat × Nat × W64 × W64 × W32) :=
  let copy (i : Nat) : Option (Nat × Nat × Nat × W64 × W64 × W32) :=
    match vaRead m (prCtx m p) (jBase m p + 128 * i) 128 with
    | .error _ => none
    | .ok bs =>
      let w (j : Nat) : Nat := leNat ((bs.drop (8 * j)).take 8)
      let st := nbits (w 0) 23 16
      if nbits (w 0) 15 0 = 0x4A31 ∧ w 15 = (crc64 (bs.take 120)).toNat
          ∧ ((st = 1 ∧ w 1 = (prSlate m p).toNat) ∨ (st = 2 ∧ (w 1 + 1) % 2 ^ 64 = (prSlate m p).toNat)) then
        some (st, nbits (w 2) 31 0, nbits (w 2) 63 32, BitVec.ofNat 64 (w 3), BitVec.ofNat 64 (w 5),
          BitVec.ofNat 32 (nbits (w 4) 63 32))
      else none
  match copy 0, copy 1 with
  | some a, some b => some (if a.2.2.2.2.1.toNat < b.2.2.2.2.1.toNat then b else a)
  | some a, none => some a
  | none, b => b

/-! ## Slate-bound changes (R302 to R304) -/

/-- PRINT_MODE_CTL.state: 0 none, 1 Staged, 2 Holding, 3 Applied, 4 Abandoned, 5 Withdrawn, 6 Refused. -/
def modeState (m : Mod) (p : Nat) : Nat := fld m (rPrModeCtl p) 18 16
/-- Sets the state. -/
def setMode (m : Mod) (p st : Nat) : Mod := setFld m (rPrModeCtl p) 18 16 st
/-- A change is Staged or Holding for the slate. -/
def modeFor (m : Mod) (p : Nat) : Bool :=
  (modeState m p == 1 || modeState m p == 2) && rd m (rPrModeSlate p) == prSlate m p
/-- A valid offset of an entry: it names a register, or the upper half of one, that the partition reaches (R386, R403; log
25). -/
def modeOffOk (m : Mod) (p off : Nat) : Bool :=
  match accessAt off 4 with
  | .whole o | .low o | .high o | .lanes o => (vfMask m p o).any (· != 0)
  | _ => false

/-- A stage command (R302). -/
def modeStage (m : Mod) (p n : Nat) : Mod :=
  if modeState m p = 2 then prIgnored m p else
  let m := if modeState m p = 1 then m else setFld m (rPrModeCtl p) 4 0 n
  let n := fld m (rPrModeCtl p) 4 0
  if 1 ≤ n ∧ n ≤ 16 ∧ (List.range n).all (fun k => modeOffOk m p (rd m (rPrMeOff p k)).toNat)
      ∧ (prSlate m p).toNat ≤ (rd m (rPrModeSlate p)).toNat then setMode m p 1 else setMode m p 6

/-- A withdraw command (R302). -/
def modeWithdraw (m : Mod) (p n : Nat) : Mod :=
  if modeState m p = 2 then prIgnored m p
  else setMode (if modeState m p = 1 then m else setFld m (rPrModeCtl p) 4 0 n) p 5

/-! ## Records (R298, R299) -/

/-- Writes a print or scrap record to the PF ring, the context's ring and PRINT_LAST. -/
def prRecord (m : Mod) (p kind verdict : Nat) (flags : Nat) (v : VerdictMsg) (attempt : Nat) (slate digest se ge : W64) : Mod :=
  let re := b2n (grpEpoch m p != (prAt m p).openEpoch.toNat)
  let w1 := kind + verdict * 2 ^ 8 + attempt * 2 ^ 10 + flags * 2 ^ 18 + re * 2 ^ 24 + v.fail.toNat * 2 ^ 32
    + fld m (rPrLscale p) 7 0 * 2 ^ 40
  let ws := [slate.toNat, w1, (rd m (rPrCur p)).toNat, digest.toNat, se.toNat, ge.toNat,
    grpEpoch m p + v.members % 2 ^ 16 * 2 ^ 32 + fld m (rPrId p) 11 0 * 2 ^ 48, m.hclk]
  let m := (List.range 8).foldl (fun m i => wrN m (rPrLast p i) (ws.getD i 0)) m
  let x := prCtx m p
  let body := ws.flatMap (leBytes 8)
  let m := sendUnclassed m none kind 64 x p body
  if (ctxAt m x).active && (ctxAt m x).part.val == p then sendUnclassed m (some x) kind 64 x p body else m

/-- The code of a verdict. -/
def verdictCode : VerdictKind → Nat
  | .finite => 1 | .nonfinite => 2 | .failed => 3

/-- A scrap record; PRINT_COUNT counts it. -/
def prScrap (m : Mod) (p : Nat) (v : VerdictMsg) : Mod :=
  let m := setFld m (rPrCount p) 63 32 (fld m (rPrCount p) 63 32 + 1)
  prRecord m p 2 (verdictCode v.kind) 0 v (prAttempt m p) (prSlate m p) 0 0 0

/-! ## Open, close, skip, release (R284 to R291) -/

/-- An open is refused (R285, R438, R487). -/
def openRefused (m : Mod) (p : Nat) : Bool :=
  let ev := fld m (rPrCtl p) 15 10
  let sz := (rd m (rPrStgSz p)).toNat
  fld m (rPrCtl p) 0 0 == 0 || m.uncontained || arbStartUp m || !ctxOf m (prCtx m p) p
    || decide (fld m (rPrId p) 23 12 < fld m (rPrId p) 11 0) || decide (47 < ev) || ev == fld m (rSbCtl p) 13 8
    || rd m (rPrAtabN p) == 0 || decide (2 ^ 24 < (rd m (rPrAtabN p)).toNat)
    || decide ((rd m (rPrStgN p)).toNat < 2) || decide (64 < (rd m (rPrStgN p)).toNat)
    || sz == 0 || sz % 64 != 0 || decide (2 ^ 26 < sz) || !jMapped m p || !branchesOk m p
    || sget (fun _ => 0) (prAt m p).opened (prSlate m p).toNat == 255

/-- Changes the cores of a list of global numbers, ascending. -/
def onCores (m : Mod) (cs : List Nat) (f : CoreSt → CoreSt) : Mod :=
  { m with cores := cs.foldr (fun c acc => sset (fun _ => CoreSt.reset) acc c (f (coreAt m c))) m.cores }

/-- The descriptors of a partition's channels were launched before the open (R286). -/
def markOld (m : Mod) (p : Nat) : Mod :=
  let old (d : QDesc) : QDesc := { d with old := true }
  { m with chans := m.chans.map (fun e =>
      if partOfCluster m (e.1 / 16) = some p then
        (e.1, { e.2 with active := e.2.active.map old, queue := e.2.queue.map old, kept := e.2.kept.map old }) else e) }

/-- The open command (R285). -/
def prOpen (m : Mod) (p : Nat) : Mod :=
  if prPhase m p ≠ 0 ∧ prPhase m p ≠ 6 then prIgnored m p
  else if openRefused m p then setBit m (rPrErr p) 1
  else
    let slate := prSlate m p
    let seed := rd m (rPrSeed p)
    let m := onCores m (coresOfPart m p) (fun x => { x with slate := slate, seed := seed, nonfinite := false })
    let n := sget (fun _ => 0) (prAt m p).opened slate.toNat + 1
    let m := setFld m (rPrStat p) 15 8 n
    let m := if fld m (rSbCtl p) 0 0 = 1 then sbStart m p else m
    let m := wrN m (rPrTOpen p) m.hclk
    let m := onPr m p (fun s => { PrintSt.reset with
      opened := sset (fun _ => 0) s.opened slate.toNat n, cursor := rd m (rPrCur p), openEpoch := BitVec.ofNat 32 (grpEpoch m p)
      verdict := s.verdict.filter (fun v => v.1 != slate), seq := s.seq, copying := s.copying, warm := s.warm, baysSet := s.baysSet, emaSet := s.emaSet })
    let m := setFld m rSwNf p p 0
    let m := (List.range 64).foldl (fun m i => if fld m (rCsCtl i) 0 0 = 1 ∧ csPart m i = p then csStart m i else m) m
    strOpen (setPhase11 (markOld m p) p 1) p

/-- The close command (R286). -/
def prClose (m : Mod) (p : Nat) : Mod := if prPhase m p = 1 then setPhase11 m p 2 else prIgnored m p

/-- The skip command (R290, R291). -/
def prSkip (m : Mod) (p : Nat) : Mod :=
  if prPhase m p = 6 then setPhase11 (onPr m p (fun s => { s with skip := true })) p 5 else prIgnored m p

/-! ## Contribution and verdict (R286, R287, R339) -/

/-- A core lets its branch's take close. -/
def coreClosed (m : Mod) (c : Nat) (x : CoreSt) : Bool :=
  x.state == .halted || x.state == .faulted || (match x.wait with | some (.verdict _) => true | _ => false)
    || (clAt m (clusterOf c)).lent.isSome

/-- The close condition. -/
def closeMet (m : Mod) (p : Nat) : Bool :=
  let bays := allBays m p
  let fresh (d : QDesc) : Bool := !d.old && (dSrcSpace d == 5 || dDstSpace d == 5)
  m.cores.all (fun e => !bays.testBit (bayOf (clusterOf e.1)) || coreClosed m e.1 e.2)
    && m.chans.all (fun e => partOfCluster m (e.1 / 16) != some p || !(chStream e.2 ++ e.2.kept).any fresh)

/-- This module's sums of a branch: its streams marked for statistics (R338). -/
def ownBranch (m : Mod) (p b : Nat) : BranchSum :=
  let n := (rd m (rPrBr p b 8)).toNat
  let ss := (List.range 64).filter (fun i => fld m (rCsCtl i) 0 0 == 1 && csPart m i == p && fld m (rCsCtl i) 1 1 == 1
    && fld m (rCsCtl i) 3 2 == b)
  ⟨n, b2n (n != 0), (ss.map (fun i => (csAt m i).sq)).foldl (· + ·) 0, (ss.map (fun i => (csAt m i).ns)).foldl (· + ·) 0⟩

/-- This module's contribution. -/
def ownContribution (m : Mod) (p fail : Nat) : Contribution where
  tag := BitVec.ofNat 16 (grpId m p)
  epoch := BitVec.ofNat 32 (grpEpoch m p)
  slate := prSlate m p
  attempt := BitVec.ofNat 8 (prAttempt m p)
  nf := m.cores.any (fun e => partOfCluster m (clusterOf e.1) == some p && e.2.nonfinite && (clAt m (clusterOf e.1)).lent.isNone)
    || bit (rd m rSwNf) p
  fail := BitVec.ofNat 8 fail
  stagedOr := modeFor m p
  stagedAnd := modeFor m p
  members := 1
  branches := (List.range (prBranches m p)).map (ownBranch m p)

/-- The lowest non-zero of two fail codes. -/
def lowFail (a b : Byte) : Byte := if a = 0 then b else if b = 0 then a else if a.toNat ≤ b.toNat then a else b

/-- Sums by branch. -/
def addBranches : List BranchSum → List BranchSum → List BranchSum
  | a :: as, b :: bs => ⟨a.b + b.b, a.m + b.m, a.sq + b.sq, a.ns + b.ns⟩ :: addBranches as bs
  | as, [] => as
  | [], bs => bs

/-- The combination of Table 12.9. -/
def addContribution (a b : Contribution) : Contribution :=
  { a with nf := a.nf || b.nf, fail := lowFail a.fail b.fail, stagedOr := a.stagedOr || b.stagedOr
           stagedAnd := a.stagedAnd && b.stagedAnd, members := a.members + b.members
           branches := addBranches a.branches b.branches }

/-- The verdict an anchor forms (R287, R339). -/
def verdictOf (c : Contribution) : VerdictMsg where
  tag := c.tag
  epoch := c.epoch
  slate := c.slate
  attempt := c.attempt
  kind := if c.fail ≠ 0 then .failed else if c.nf then .nonfinite else .finite
  fail := c.fail
  stagedOr := c.stagedOr
  members := c.members
  branches := c.branches.map (fun b => ⟨b.b, b.m, d64Round false b.sq (-298), d64Round false b.ns (-298)⟩)

/-- The words of a contribution's head flit: this model's layout (log 20). -/
def contributionHead (c : Contribution) : List W64 :=
  [BitVec.ofNat 64 (1 + c.attempt.toNat * 2 ^ 8 + c.fail.toNat * 2 ^ 16 + b2n c.nf * 2 ^ 24 + b2n c.stagedOr * 2 ^ 25
    + b2n c.stagedAnd * 2 ^ 26), c.slate, BitVec.ofNat 64 (c.members + c.epoch.toNat * 2 ^ 32)]

/-- The body of a contribution: this model's layout (log 20). -/
def contributionBody (c : Contribution) : List Byte :=
  c.branches.flatMap (fun b => leBytes 8 b.b ++ leBytes 8 b.m ++ leBytes 80 b.sq ++ leBytes 80 b.ns)

/-- The words of a verdict's head flit (log 20). -/
def verdictHead (v : VerdictMsg) : List W64 :=
  [BitVec.ofNat 64 (2 + v.attempt.toNat * 2 ^ 8 + v.fail.toNat * 2 ^ 16 + verdictCode v.kind * 2 ^ 24 + b2n v.stagedOr * 2 ^ 26),
   v.slate, BitVec.ofNat 64 (v.members + v.epoch.toNat * 2 ^ 32)]

/-- The body of a verdict (log 20). -/
def verdictBody (v : VerdictMsg) : List Byte :=
  v.branches.flatMap (fun b => leBytes 8 b.b ++ leBytes 8 b.m ++ leBytes 8 b.sq.toNat ++ leBytes 8 b.ns.toNat)

/-- Every contribution of the subtree is held: the anchor forms the verdict, another member sends the combination to its
parent (R333, R339). -/
def prForward (m : Mod) (p : Nat) : Mod :=
  let s := prAt m p
  match s.parts.find? (fun e => e.1 == 7) with
  | none => m
  | some own =>
    let kids := treeChildren m p
    if prPhase m p ≠ 3 ∨ !s.contributed ∨ s.formed.isSome ∨ !treeUp m p ∨ !kids.all (fun q => s.parts.any (fun e => e.1 == q)) then m else
    let c := (s.parts.filter (fun e => kids.contains e.1)).foldl (fun a e => addContribution a e.2) own.2
    let m := onPr m p (fun s => { s with formed := some (verdictOf c) })
    if isAnchor m p then m else toParent m p (contributionHead c) (contributionBody c)

/-- The module contributes and enters Verdict. -/
def prContribute (m : Mod) (p fail : Nat) : Mod :=
  let c := ownContribution m p fail
  prForward (setPhase11 (onPr m p (fun s => { s with contributed := true, parts := (7, c) :: s.parts })) p 3) p

/-- The close condition is met (R286). -/
def contributeRow (p : Nat) (m : Mod) : Mod := if prPhase m p = 2 ∧ closeMet m p then prContribute m p (prAt m p).fail else m

/-- The take timeout (R286): a failure of code 0x04, unless the close condition is met. -/
def takeTimeout (p : Nat) (m : Mod) : Mod :=
  if (prPhase m p ≠ 1 ∧ prPhase m p ≠ 2) ∨ rd m (rPrTmo p) = 0 then m
  else if prPhase m p = 2 ∧ closeMet m p then prContribute m p (prAt m p).fail
  else
    let m := noteFailure m p 4
    prContribute m p (prAt m p).fail

/-- A message of the census tree is dropped with cause 3; one of another epoch sets ZW_GRP_ERR.epoch_drop (R327, R332, R339). -/
def treeDrop (m : Mod) (p q : Nat) (tag : W16) (epoch : W32) : Mod :=
  let m := if tag.toNat = grpId m p ∧ epoch.toNat ≠ grpEpoch m p then setBit m (rGrpErr p) 1 else m
  dropMsg m 3 q (headWord0 m (myCoord m) 0 0x20 0 p)

/-- The group id or the epoch is not the partition's group's. -/
def treeOther (m : Mod) (p : Nat) (tag : W16) (epoch : W32) : Bool := tag.toNat != grpId m p || epoch.toNat != grpEpoch m p

/-- A child's contribution arrives (R333, R339). -/
def contributionIn (p q : Nat) (c : Contribution) (m : Mod) : Mod :=
  if !(treeChildren m p).contains q ∨ treeOther m p c.tag c.epoch ∨ c.slate ≠ prSlate m p ∨ c.attempt.toNat ≠ prAttempt m p then
    treeDrop m p q c.tag c.epoch
  else
    let m := sendAck m q p 1
    if (prAt m p).parts.any (fun e => e.1 == q) then m
    else prForward (onPr m p (fun s => { s with parts := s.parts ++ [(q, c)] })) p

/-- A register takes a binary64 value; of a NaN the free bits are drawn (log 25). -/
def wr64 (m : Mod) (off : Nat) (v : W64) : Mod :=
  if d64IsNaN v then
    let (f, m) := drawFree m
    wr m off (d64NaN ||| (f &&& 0x8007FFFFFFFFFFFF))
  else wr m off v

/-- The statistics of one branch (R305, R306). -/
def prStats (p : Nat) (e : Int) (k : Nat) (m : Mod) (x : Nat × BranchStat) : Mod :=
  let (b, v) := x
  let (s, g, ok) := noiseStats v.m v.sq v.ns v.b e
  if !ok then wr64 (wr64 m (rPrBr p b 0x10) d64NaN) (rPrBr p b 0x18) d64NaN else
  let m := wr64 (wr64 m (rPrBr p b 0x10) s) (rPrBr p b 0x18) g
  let first := !(prAt m p).emaSet.contains b
  let ema (old new : W64) : W64 := if first then new else d64Add old (d64Mul (d64Pow2 (-(k : Int))) (d64Sub new old))
  let se := ema (rd m (rPrBr p b 0x20)) s
  let ge := ema (rd m (rPrBr p b 0x28)) g
  let m := wr64 (wr64 (wr64 m (rPrBr p b 0x20) se) (rPrBr p b 0x28) ge) (rPrBr p b 0x30) (d64Div se ge)
  onPr m p (fun st => { st with emaSet := if first then b :: st.emaSet else st.emaSet, est := if b = 0 then some (s, g) else st.est })

/-- wait.vd of the partition's cores that run under the slate completes (R132, R288). -/
def verdictWake (m : Mod) (p : Nat) (slate : W64) (fin : Bool) : Mod :=
  m.cores.foldl (fun m e =>
    match e.2.wait with
    | some (.verdict pd) =>
      if partOfCluster m (clusterOf e.1) = some p ∧ e.2.slate = slate ∧ !e.2.wakeDone then
        finishWait (wake m (clusterOf e.1)) e.1 (fun x => setP x pd fin) else m
    | _ => m) m

/-- The engine acts on a verdict (R288 to R292). -/
def prAct (m : Mod) (p : Nat) (v : VerdictMsg) : Mod :=
  let fin := v.kind == .finite
  let m := setFld m (rPrStat p) 5 4 (verdictCode v.kind)
  let m := onPr m p (fun s => { s with acted := some v, verdict := some (v.slate, v.attempt.toNat, fin), formed := none, holdDone := false
                                       skip := false, joined := false, votes := [], voteFormed := none
                                       vdEpoch := BitVec.ofNat 32 (grpEpoch m p) })
  let m := verdictWake m p v.slate fin
  match v.kind with
  | .finite =>
    let m := (((List.range (prBranches m p)).zip v.branches).foldl (prStats p (prScale m p) (fld m (rPrHold p) 27 24)) m)
    let m := wrN (wrN m (rPrStaged p) 0) (rPrApplied p) 0
    setPhase11 (onPr m p (fun s => { s with stagedHi := 0, crc := 0xFFFFFFFFFFFFFFFF })) p 4
  | .failed => prScrap (setPhase11 (setFld m (rPrStat p) 31 24 v.fail.toNat) p 6) p v
  | .nonfinite =>
    let m := if fld m (rPrCtl p) 3 3 = 1 then setFld (setScale m p (max (prScale m p - 1) (-126))) (rPrLscale p) 31 16 0 else m
    if fld m (rPrCtl p) 1 1 = 1 then prScrap (setPhase11 m p 6) p v
    else if prAttempt m p ≤ fld m (rPrCtl p) 7 4 then prScrap (setPhase11 m p 0) p v
    else prScrap (setPhase11 (onPr m p (fun s => { s with skip := true })) p 5) p v

/-- A verdict arrives, from the parent or, at the anchor, as the one it formed; it goes on to the children (R287, R339). -/
def verdictIn (p : Nat) (v : VerdictMsg) (m : Mod) : Mod :=
  let s := prAt m p
  if isAnchor m p then
    (if prPhase m p = 3 ∧ s.formed = some v then prAct (toChildren m p (verdictHead v) (verdictBody v)) p v else m)
  else
    let port := (grpAt m p).parent
    if !treeUp m p ∨ treeOther m p v.tag v.epoch ∨ v.slate ≠ prSlate m p then
      if s.acted = some v then (match port with | some q => sendAck m q p 2 | none => m)
      else treeDrop m p (port.getD 7) v.tag v.epoch
    else
      let m := match port with | some q => sendAck m q p 2 | none => m
      if s.acted = some v then m
      else if v.attempt.toNat ≠ prAttempt m p then setBit m (rPrErr p) 2
      else if prPhase m p ≠ 3 then m
      else prAct (toChildren m p (verdictHead v) (verdictBody v)) p v

/-! ## Apply (R292 to R294) -/

/-- An apply-table entry: destination, end, digest and length; none when it is not mapped or breaks Table 11.5. -/
def atabEntry (m : Mod) (p i : Nat) : Option (Nat × Bool × Bool × Nat) :=
  match vaRead m (prCtx m p) (fld m (rPrAtab p) 56 5 * 32 + 32 * i) 32 with
  | .error _ => none
  | .ok bs =>
    let w (j : Nat) : Nat := leNat ((bs.drop (8 * j)).take 8)
    let len := nbits (w 1) 31 0
    if nbits (w 0) 61 57 = 0 ∧ nbits (w 0) 5 0 = 0 ∧ nbits (w 1) 63 32 = 0 ∧ w 2 = 0 ∧ w 3 = 0 ∧ len % 64 = 0 ∧ 64 ≤ len
        ∧ len ≤ (rd m (rPrStgSz p)).toNat
    then some (nbits (w 0) 56 0, (w 0).testBit 62, (w 0).testBit 63, len) else none

/-- The last index of the group that begins at `i`, within `n` entries: none for an invalid entry or no end. -/
def groupEnd (m : Mod) (p : Nat) : Nat → Nat → Option Nat
  | 0, _ => none
  | n + 1, i =>
    if fld m (rPrAtabN p) 31 0 ≤ i then none else
    match atabEntry m p i with
    | none => none
    | some e => if e.2.1 then some i else groupEnd m p n (i + 1)

/-- The engine copies the next chunk when one is staged and a mover is free (R255, R293). -/
def prPump (m : Mod) (p : Nat) : Mod :=
  let ph := prPhase m p
  let a := fld m (rPrApplied p) 31 0
  let s := prAt m p
  if (ph ≠ 4 ∧ ph ≠ 8) ∨ s.copying ∨ s.stagedHi ≤ a then m else
  if rangeBusy m (prCtx m p) (fld m (rPrAtab p) 56 5 * 32 + 32 * a) 32 false then m else
  let read (m : Mod) : Mod := eccRead m (prCtx m p) (fld m (rPrAtab p) 56 5 * 32 + 32 * a) 32 (some 2)
  match atabEntry m p a with
  | none => prHold (read m) p 4
  | some e =>
    let n := max 1 (rd m (rPrStgN p)).toNat
    let src := fld m (rPrStg p) 56 6 * 64 + a % n * (rd m (rPrStgSz p)).toNat
    match moverStart m ⟨if ph = 4 then .apply p else .replay p, prCtx m p, src, e.1, e.2.2.2, none, false⟩ with
    | none => m
    | some m => onPr (read m) p (fun s => { s with copying := true })

/-- The engine waits at the first chunk of a group: the group is staged, or its table entries are invalid (R293). -/
def groupStaged (p : Nat) (m : Mod) : Mod :=
  let a := fld m (rPrApplied p) 31 0
  let s := prAt m p
  if prPhase m p ≠ 4 ∨ s.copying ∨ a ≠ s.stagedHi ∨ fld m (rPrAtabN p) 31 0 ≤ a then m else
  let most := min (fld m (rPrAtabN p) 31 0 - a) (rd m (rPrStgN p)).toNat
  if rangeBusy m (prCtx m p) (fld m (rPrAtab p) 56 5 * 32 + 32 * a) (32 * most) false then m else
  match groupEnd m p (rd m (rPrStgN p)).toNat a with
  | none => prHold m p 4
  | some g =>
    if (rd m (rPrStaged p)).toNat ≤ g then m else
    match journalWrite (onPr m p (fun s => { s with stagedHi := g + 1 })) p 1 (prSlate m p) with
    | none => applyFault m p
    | some m => prPump m p

/-- The mover that copies for a print engine. -/
def prMover (m : Mod) (p : Nat) : Option (Nat × MoverJob) :=
  (List.range 8).findSome? (fun i =>
    match moverAt m i with
    | some j => if j.owner = .apply p ∨ j.owner = .replay p then some (i, j) else none
    | none => none)

/-- Apply is complete: the engine enters Vote, or is Held when the re-formed group left it out (R293, R297). -/
def prApplied (m : Mod) (p : Nat) : Mod :=
  if (prAt m p).leftOut then prHold m p 1 else setPhase11 m p 5

/-- A chunk's copy has read back (R293): CRC, applied_hi and the journal. Lines whose requests are refused go again (R255). -/
def chunkDone (p : Nat) (m : Mod) : Mod :=
  match prMover m p with
  | none => m
  | some (i, j) =>
    if j.refused then m
    else if (jobFault m j).isSome then
      let m := onPr (setMover m i none) p (fun s => { s with copying := false })
      if prPhase m p = 4 ∨ prPhase m p = 8 then applyFault m p else m
    else
      let (m1, done) := moverStep m i j
      if !done then m1 else
      let m1 := onPr m1 p (fun s => { s with copying := false })
      if prPhase m p ≠ 4 ∧ prPhase m p ≠ 8 then m1 else
      let a := fld m (rPrApplied p) 31 0
      let digest := match atabEntry m p a with | some e => e.2.2.1 | none => false
      let m1 := if digest then onPr m1 p (fun s => { s with crc := crc64Update s.crc (vaBytes m j.ctx j.src j.len) }) else m1
      match journalWrite (wrN m1 (rPrApplied p) (a + 1)) p 1 (prSlate m p) with
      | none => applyFault m1 p
      | some m2 =>
        if prPhase m p = 4 ∧ fld m (rPrAtabN p) 31 0 ≤ a + 1 then prApplied m2 p else prPump m2 p

/-- The release command (R290, R293, R297): from a hold for an invalid apply table the apply, or the replay that met it, goes on. -/
def prRelease (m : Mod) (p : Nat) : Mod :=
  match prPhase m p with
  | 6 => setPhase11 m p 0
  | 7 =>
    if fld m (rPrStat p) 23 20 = 4 then
      let m := setFld m (rPrStat p) 23 20 0
      if (rd m (rPrStaged p)).toNat < (prAt m p).stagedHi then prPump (recovery (setPhase11 m p 8) true) p
      else prPump (setPhase11 m p 4) p
    else setPhase11 (setFld (onPr m p (fun s => { s with leftOut := false })) (rPrStat p) 23 20 0) p 0
  | _ => prIgnored m p

/-- The verdict under which a replayed take was applied (R292): finite. The journal keeps the group epoch at it; its attempt, its
staged OR and its members are free values (log 42). -/
def replayVerdict (m : Mod) (p : Nat) (epoch : W32) (v : W64) : VerdictMsg where
  tag := BitVec.ofNat 16 (grpId m p)
  epoch := epoch
  slate := prSlate m p
  attempt := BitVec.ofNat 8 (bits v 24 17)
  kind := .finite
  fail := 0
  stagedOr := bit v 16
  members := bits v 15 0
  branches := []

/-- The first enable after a warm reset reads the journal (R294, R486). -/
def prEnable (m : Mod) (p : Nat) : Mod :=
  if !(prAt m p).warm then m else
  let m := onPr m p (fun s => { s with warm := false })
  let read := journalRead m p
  let m := eccRead m (prCtx m p) (jBase m p) 256 (some 1)
  match read with
  | none => setBit (prHold m p 6) (rPrErr p) 4
  | some (st, a, s, crc, seq, ep) =>
    let m := onPr m p (fun x => { x with seq := seq, crc := crc, stagedHi := s, vdEpoch := ep })
    if st ≠ 1 then m else
    let (v, m) := drawFree m
    let m := onPr m p (fun x => { x with openEpoch := ep, acted := some (replayVerdict m p ep v) })
    prPump (recovery (setPhase11 (wrN m (rPrApplied p) a) p 8) true) p

/-- Replay has copied every staged chunk: the apply goes on at chunk S, and the partition's event ring is told (R294). -/
def replayDone (p : Nat) (m : Mod) : Mod :=
  let s := prAt m p
  if prPhase m p ≠ 8 ∨ s.copying ∨ fld m (rPrApplied p) 31 0 < s.stagedHi then m else
  let m := replayOver (setPhase11 (wrN m (rPrStaged p) s.stagedHi) p 4)
  let m := sendOpaque m (some (prCtx m p)) 0x03 (prCtx m p) p
  if fld m (rPrAtabN p) 31 0 ≤ s.stagedHi then prApplied m p else m

/-! ## Vote (R295, R340) -/

/-- The words of a vote's head flit (log 20); kind 3 a vote, 4 a result. -/
def voteHead (kind : Nat) (x : VoteMsg) : List W64 :=
  [BitVec.ofNat 64 (kind + x.attempt.toNat * 2 ^ 8 + b2n x.stagedAnd * 2 ^ 26), x.slate, BitVec.ofNat 64 (x.epoch.toNat * 2 ^ 32)]

/-- The entries of a vote, 16 bytes each (R340). -/
def voteBody (x : VoteMsg) : List Byte := x.entries.flatMap (fun e => leBytes 8 e.digest.toNat ++ leBytes 8 (e.count + b2n e.equal * 2 ^ 32))

/-- Two entries combine. -/
def addShard (a b : ShardVote) : ShardVote :=
  if a.count = 0 then b else if b.count = 0 then a
  else ⟨if a.digest.toNat ≤ b.digest.toNat then a.digest else b.digest, a.count + b.count, a.equal && b.equal && a.digest == b.digest⟩

/-- Two lists of entries combine by shard. -/
def addShards : List ShardVote → List ShardVote → List ShardVote
  | a :: as, b :: bs => addShard a b :: addShards as bs
  | as, [] => as
  | [], bs => bs

/-- Two votes combine. -/
def addVote (a b : VoteMsg) : VoteMsg := { a with stagedAnd := a.stagedAnd && b.stagedAnd, entries := addShards a.entries b.entries }

/-- The digest this member votes for: of the take, or of the last print for a skip-print. -/
def prDigest (m : Mod) (p : Nat) : W64 :=
  if (prAt m p).skip then rd m (rPrDigest p) else (prAt m p).crc ^^^ 0xFFFFFFFFFFFFFFFF

/-- This member's vote. -/
def ownVote (m : Mod) (p : Nat) : VoteMsg where
  tag := BitVec.ofNat 16 (grpId m p)
  epoch := BitVec.ofNat 32 (grpEpoch m p)
  slate := prSlate m p
  attempt := BitVec.ofNat 8 (prAttempt m p)
  stagedAnd := (prAt m p).staged
  entries := (List.range (fld m (rPrId p) 23 12 + 1)).map (fun i =>
    if i = fld m (rPrId p) 11 0 then ⟨prDigest m p, 1, true⟩ else ⟨0, 0, true⟩)

/-- Every vote of the subtree is held: the anchor forms the result, another member sends the combination on. -/
def voteForward (m : Mod) (p : Nat) : Mod :=
  let s := prAt m p
  let kids := treeChildren m p
  if !s.joined ∨ s.voteFormed.isSome ∨ !treeUp m p ∨ !kids.all (fun q => s.votes.any (fun e => e.1 == q)) then m else
  let x := (s.votes.filter (fun e => kids.contains e.1)).foldl (fun a e => addVote a e.2) (ownVote m p)
  let m := onPr m p (fun s => { s with voteFormed := some x })
  if isAnchor m p then m else toParent m p (voteHead 3 x) (voteBody x)

/-- The staged OR of the verdict acted on. -/
def prStagedOr (m : Mod) (p : Nat) : Bool := match (prAt m p).acted with | some v => v.stagedOr | none => false

/-- The module joins the vote (R295, R302). -/
def voteJoin (p : Nat) (m : Mod) : Mod :=
  let s := prAt m p
  if prPhase m p ≠ 5 ∨ s.joined ∨ !(!prStagedOr m p || modeFor m p || s.holdDone) then m else
  let staged := modeFor m p
  let m := if staged then setMode m p 2 else m
  voteForward (onPr m p (fun s => { s with joined := true, staged := staged })) p

/-- PRINT_HOLD µs have passed since the verdict: a module in Vote joins. -/
def holdTimeout (p : Nat) (m : Mod) : Mod :=
  if (prAt m p).acted.isSome then voteJoin p (onPr m p (fun s => { s with holdDone := true })) else m

/-- A child's vote arrives. The slate alone names the take: a member that was reset in its apply no longer knows the attempt (R294,
R295). -/
def voteIn (p q : Nat) (x : VoteMsg) (m : Mod) : Mod :=
  if !(treeChildren m p).contains q ∨ treeOther m p x.tag x.epoch ∨ x.slate ≠ prSlate m p then treeDrop m p q x.tag x.epoch
  else
    let m := sendAck m q p 3
    if (prAt m p).votes.any (fun e => e.1 == q) then m
    else voteForward (onPr m p (fun s => { s with votes := s.votes ++ [(q, x)] })) p

/-! ## Print (R295, R296) -/

/-- grow_cnt counts a finite print; what follows its largest value is free (log 25). -/
def prGrow (m : Mod) (p : Nat) : Mod :=
  let n := fld m (rPrLscale p) 31 16
  let (v, m) := if n = 65535 then (let (f, m) := drawFree m; (bits f 15 0, m)) else (n + 1, m)
  let g := fld m (rPrCtl p) 31 16
  if g ≠ 0 ∧ g ≤ v then
    setFld (setScale m p (min (prScale m p + 1) (toSigned 8 (fld m (rPrLscale p) 15 8)))) (rPrLscale p) 31 16 0
  else setFld m (rPrLscale p) 31 16 v

/-- The engine prints on a vote result; `apply` writes the staged entries (R295, R296, R304). -/
def prPrint (m : Mod) (p : Nat) (x : VoteMsg) (apply : Mod → Mod) : Mod :=
  let s := prAt m p
  let v : VerdictMsg := s.acted.getD ⟨0, 0, 0, 0, .failed, 0, false, 0, []⟩
  let attempt := v.attempt.toNat
  let slate := prSlate m p
  let digest := prDigest m p
  let mine := modeFor m p
  let applied := v.stagedOr && x.stagedAnd
  let gone := !applied && ((v.stagedOr && mine) || modeState m p == 2)
  let m := if applied then setMode (apply m) p 3 else if gone then setMode m p 4 else m
  let m := if !s.skip ∧ fld m (rPrCtl p) 3 3 = 1 then prGrow m p else m
  let m := setFld m (rPrLscaleP p) 7 0 (fld m (rPrLscale p) 7 0)
  let m := wrN m (rPrCur p) (((rd m (rPrCur p)).toNat + strStep m p) % 2 ^ 64)
  let m := if s.skip then m else wr m (rPrDigest p) digest
  let m := setFld (wr m (rPrSlate p) (slate + 1)) (rPrStat p) 15 8 0
  let m := setFld m (rPrCount p) 31 0 (fld m (rPrCount p) 31 0 + 1)
  let m := onPr m p (fun s => { s with opened := [] })
  let (m, jok) := match journalWrite m p 2 slate with | some m => (m, true) | none => (m, false)
  let own := match x.entries[fld m (rPrId p) 11 0]? with | some e => !e.equal | none => false
  let any := x.entries.any (fun e => !e.equal)
  let lost := x.entries.any (fun e => e.count == 0)
  let flags := b2n s.skip + b2n own * 2 + b2n any * 4 + b2n lost * 8 + b2n applied * 16
    + b2n (gone || (v.stagedOr && !x.stagedAnd)) * 32
  let est := s.est.getD (0, 0)
  let m := prRecord m p 1 (verdictCode v.kind) flags v attempt slate digest est.1 est.2
  let m := if any then raise (setBit m (rPrErr p) 3) (telemEv 8 11 1 .alarm ([BitVec.ofNat 8 p] ++ List.replicate 7 0 ++ leBytes 8 slate.toNat))
    else m
  let m := onPr m p (fun s => { s with acted := none, joined := false, votes := [], parts := [], voteFormed := none, skip := false
                                       est := none })
  let m := if any then prHold m p 2 else if lost then prHold m p 3 else if !jok then applyFault m p else setPhase11 m p 0
  strCursor m p

/-- A vote result arrives, from the parent or, at the anchor, as the one it formed (R295, R340). -/
def voteResultIn (p : Nat) (x : VoteMsg) (apply : Mod → Mod) (m : Mod) : Mod :=
  let s := prAt m p
  let go (m : Mod) : Mod := prPrint (toChildren m p (voteHead 4 x) (voteBody x)) p x apply
  if isAnchor m p then
    (if prPhase m p = 5 ∧ s.joined ∧ s.voteFormed = some x then go m else m)
  else
    let port := (grpAt m p).parent
    if !treeUp m p ∨ treeOther m p x.tag x.epoch then treeDrop m p (port.getD 7) x.tag x.epoch
    else
      let m := match port with | some q => sendAck m q p 4 | none => m
      if prPhase m p = 5 ∧ s.joined ∧ x.slate = prSlate m p then go m else m

/-! ## Re-formation (R297) -/

/-- The group has re-formed with this member, or has left it out. -/
def prReform (m : Mod) (p : Nat) (kept : Bool) : Mod :=
  let ph := prPhase m p
  if 1 ≤ ph ∧ ph ≤ 3 then
    if kept then prAct m p ⟨BitVec.ofNat 16 (grpId m p), BitVec.ofNat 32 (grpEpoch m p), prSlate m p, BitVec.ofNat 8 (prAttempt m p), .failed, 5, false,
      (grpAt m p).members.length, []⟩
    else prHold m p 1
  else if ph = 4 ∨ ph = 8 then onPr m p (fun s => { s with votes := [], voteFormed := none, leftOut := s.leftOut || !kept })
  else if ph = 5 then
    (if kept then voteForward (onPr m p (fun s => { s with votes := [], voteFormed := none })) p else prHold m p 1)
  else m

/-- A write of PRINT_CMD (R284). -/
def prCommand (m : Mod) (p cmd : Nat) : Mod :=
  match cmd with
  | 0 => m
  | 1 => prOpen m p
  | 2 => prClose m p
  | 3 => prSkip m p
  | 4 => prRelease m p
  | _ => prIgnored m p

/-! ## The rows -/

/-- The module contributes (R286). -/
def execPrintContribute (p : Part) (s : State) : Host.Outcome State Fault Refusal := .next (s.onMod (contributeRow p.val))

/-- The take times out (R286). -/
def execPrintTakeTimeout (p : Part) (s : State) : Host.Outcome State Fault Refusal := .next (s.onMod (takeTimeout p.val))

/-- A contribution arrives (R339). -/
def execContribution (p : Part) (q : Port) (x : Contribution) (s : State) : Host.Outcome State Fault Refusal :=
  .next (s.onMod (contributionIn p.val q.val x))

/-- A verdict arrives (R287). -/
def execVerdict (p : Part) (v : VerdictMsg) (s : State) : Host.Outcome State Fault Refusal := .next (s.onMod (verdictIn p.val v))

/-- A group of chunks is staged (R293). -/
def execApplyGroupStaged (p : Part) (s : State) : Host.Outcome State Fault Refusal := .next (s.onMod (groupStaged p.val))

/-- A chunk is applied (R293). -/
def execApplyChunkDone (p : Part) (s : State) : Host.Outcome State Fault Refusal := .next (s.onMod (chunkDone p.val))

/-- Replay ends (R294). -/
def execReplayDone (p : Part) (s : State) : Host.Outcome State Fault Refusal := .next (s.onMod (replayDone p.val))

/-- The module joins the vote (R295). -/
def execVoteJoin (p : Part) (s : State) : Host.Outcome State Fault Refusal := .next (s.onMod (voteJoin p.val))

/-- PRINT_HOLD passes (R295). -/
def execPrintHoldTimeout (p : Part) (s : State) : Host.Outcome State Fault Refusal := .next (s.onMod (holdTimeout p.val))

/-- A vote arrives (R340). -/
def execVote (p : Part) (q : Port) (x : VoteMsg) (s : State) : Host.Outcome State Fault Refusal := .next (s.onMod (voteIn p.val q.val x))

end Sys2Proof.Machine
end

