-- ==== Sys2Proof/Machine/Group.lean ====
section
/-!
DEFINITION. Groups (12_zwison_fabric.md R328 to R333, R345, R485): the census tree, formation, re-formation and holds, and the
control messages that carry them.
-/
namespace Sys2Proof.Machine

/-- Sets the group's state. -/
def setGrpState (m : Mod) (p st : Nat) : Mod := setFld m (rGrpStat p) 2 0 st

/-- The ports whose link leads to a module inside the box (R329). -/
def boxPorts (m : Mod) (p : Nat) : List Nat := (List.range 6).filter (fun q => portUsable m q && inBox m p (neighbour m q))

/-- The ports whose link leads to a member (R331). -/
def memberPorts (m : Mod) (p : Nat) : List Nat :=
  (List.range 6).filter (fun q => portUsable m q && (grpAt m p).members.contains (neighbour m q))

/-- A census or its reply (type 0x21): kind 1 the census, 2 a reply, 3 "not child", with the number of the census (log 43); this
model's layout (log 20). -/
def sendCensus (m : Mod) (q p kind wave : Nat) (body : List Byte) : Mod :=
  sendControl m q 0x21 p [BitVec.ofNat 64 kind, BitVec.ofNat 64 (grpEpoch m p + wave % 2 ^ 32 * 2 ^ 32)] body

/-- A group message (type 0x22): kind 1 REFORM_REQ, 2 NEW_GROUP, 3 HOLD; this model's layout (log 20). -/
def sendGroup (m : Mod) (q p kind : Nat) (body : List Byte) : Mod :=
  sendControl m q 0x22 p [BitVec.ofNat 64 kind, BitVec.ofNat 64 (grpEpoch m p)] body

/-- Messages of a partition's group that are not acknowledged are given up (log 27). -/
def dropUnacked (m : Mod) (p : Nat) : Mod :=
  { m with unacked := m.unacked.filter (fun u => bits (u.2.head.headD 0) 54 51 != p) }

/-- Aborts every running stream of a partition (R332, R345). -/
def abortStreams (m : Mod) (p : Nat) : Mod :=
  (List.range 64).foldl (fun m i => if csPart m i = p then csAbort m i else m) m

/-- The membership map in memory (R328). -/
def readMap (m : Mod) (p : Nat) : List Nat :=
  sortRank m p (mapMembers (vaBytes m (fld m (rGrpCtl p) 15 4) (fld m (rGrpMap p) 56 12 * 4096) 4096))

/-- The member enters Formed under a group (R330, R331): epoch, rank, count and map, and NEW_GROUP to its children; a re-formation
aborts the streams and acts on the take. -/
def newGroup (m : Mod) (p epoch : Nat) (members : List Nat) : Mod :=
  let again := grpState m p != 1 && grpState m p != 0
  let ms := sortRank m p members
  let m := dropUnacked m p
  let g := grpAt m p
  let m := setGrp m p { g with members := ms, awaiting := [], reached := [], censusOpen := false, forced := false }
  let m := wrN (wrN m (rGrpEpoch p) epoch) (rGrpRank p) (indexOf (myCoord m) ms)
  let m := setFld (setGrpState m p 2) (rGrpStat p) 31 16 ms.length
  let m := if again then vaLate m (fld m (rGrpCtl p) 15 4) (fld m (rGrpMap p) 56 12 * 4096) (mapBytes ms) else m
  let m := g.children.foldl (fun m q => sendGroup m q p 2 (mapBytes ms)) m
  if again then prReform (abortStreams m p) p true else voteForward (prForward m p) p

/-- The member enters Held (R331). -/
def grpHold (m : Mod) (p : Nat) : Mod :=
  setGrpState (setGrp m p { grpAt m p with awaiting := [], reached := [], censusOpen := false, forced := false }) p 4

/-- The member enters Held because no group reached it: it is left out of the re-formation (R297, R331). After a HOLD neither half
has formed a group, and the print engine waits in its phase. -/
def grpLeftOut (m : Mod) (p : Nat) : Mod := prReform (grpHold m p) p false

/-- A census has been answered everywhere: a member replies to its parent; the anchor decides (R330, R331). -/
def censusEnd (m : Mod) (p : Nat) : Mod :=
  let g := grpAt m p
  let reached := sortRank m p g.reached
  match g.parent with
  | some q => sendCensus m q p 2 g.wave (mapBytes reached)
  | none =>
    if grpState m p = 1 then
      (if reached = g.members then newGroup m p 1 reached
       else setGrp (setBit m (rGrpErr p) 2) p { g with censusOpen := false })
    else if g.forced ∨ g.members.length ≤ 2 * reached.length then newGroup m p ((grpEpoch m p + 1) % 2 ^ 32) reached
    else
      let m := dropUnacked (setBit m (rGrpErr p) 2) p
      grpHold (g.children.foldl (fun m q => sendGroup m q p 3 []) m) p

/-- The ports over which a census goes on: those into the box for the anchor, the other member-facing ones for a member (R329). A
module that has not read its map yet reads it (log 43). -/
def censusPorts (m : Mod) (p : Nat) (parent : Option Nat) : List Nat :=
  match parent with
  | none => boxPorts m p
  | some q =>
    let ms := if grpState m p = 0 then readMap m p else (grpAt m p).members
    (List.range 6).filter (fun r => r != q && portUsable m r && ms.contains (neighbour m r))

/-- Forwards census `wave` to every port but the one it came from, or ends it when there is none. -/
def censusOut (m : Mod) (p : Nat) (parent : Option Nat) (wave : Nat) (forced : Bool) : Mod :=
  let ports := censusPorts m p parent
  let m := setGrp m p { grpAt m p with parent := parent, children := [], wave := wave, awaiting := ports, reached := [myCoord m]
                                       censusOpen := true, forced := forced }
  let m := ports.foldl (fun m q => sendCensus m q p 1 wave []) m
  if ports.isEmpty then censusEnd m p else m

/-- The anchor runs a new census. -/
def censusRun (m : Mod) (p : Nat) (forced : Bool) : Mod := censusOut m p none (((grpAt m p).wave + 1) % 2 ^ 32) forced

/-- A port no longer owes an answer. -/
def censusAnswer (m : Mod) (p q : Nat) (child : Option (List Nat)) : Mod :=
  let g := grpAt m p
  if !g.censusOpen ∨ !g.awaiting.contains q then m else
  let g := { g with awaiting := g.awaiting.erase q }
  let g := match child with
    | some ms => { g with children := g.children ++ [q], reached := g.reached ++ ms.filter (fun c => !g.reached.contains c) }
    | none => g
  let m := setGrp m p g
  if g.awaiting.isEmpty then censusEnd m p else m

/-- This module is the group's anchor. -/
def grpAnchorHere (m : Mod) (p : Nat) : Bool := fld m (rGrpAnchor p) 14 0 == myCoord m

/-- A census arrives (R329); the group id, and the epoch of a formed group, must match (R327, R332). The census that is known already
is a duplicate over the parent's port (R333), and is answered "not child" over any other; a Held member takes no part (R332). -/
def censusIn (p q : Nat) (tag : W16) (epoch wave : W32) (m : Mod) : Mod :=
  let g := grpAt m p
  let st := grpState m p
  if fld m (rGrpCtl p) 0 0 = 0 then dropMsg m 4 q (headWord0 m (myCoord m) 0 0x21 0 p)
  else if tag.toNat ≠ grpId m p ∨ ((st = 2 ∨ st = 3) ∧ epoch.toNat ≠ grpEpoch m p) then treeDrop m p q tag epoch
  else
    let m := sendAck m q p 1
    if st = 4 ∨ grpAnchorHere m p then sendCensus m q p 3 wave.toNat []
    else if g.parent.isSome ∧ g.wave = wave.toNat ∧ g.parent.any (portUsable m) then
      (if g.parent = some q then m else sendCensus m q p 3 wave.toNat [])
    else censusOut m p (some q) wave.toNat false

/-- A census reply arrives (R329), or the one by which a Formed member compares epochs after a warm reset (R485). The reply to an
earlier census is a duplicate. -/
def censusReplyIn (p q : Nat) (child : Bool) (tag : W16) (epoch wave : W32) (members : List Nat) (m : Mod) : Mod :=
  let g := grpAt m p
  if g.warm ∧ grpState m p = 2 ∧ tag.toNat = grpId m p then
    let m := setGrp (sendAck m q p 2) p { g with warm := false }
    if grpEpoch m p < epoch.toNat then grpLeftOut (setBit m (rGrpErr p) 3) p else m
  else if tag.toNat ≠ grpId m p ∨ ((grpState m p = 2 ∨ grpState m p = 3) ∧ epoch.toNat ≠ grpEpoch m p) then treeDrop m p q tag epoch
  else
    let m := sendAck m q p 2
    if g.wave = wave.toNat then censusAnswer m p q (if child then some members else none) else m

/-- The anchor repeats the census while Forming (R330). -/
def censusRepeat (p : Nat) (m : Mod) : Mod := if grpState m p = 1 ∧ grpAnchorHere m p then censusRun m p false else m

/-- A member enters Reforming and floods REFORM_REQ; the anchor runs a census (R331). -/
def grpReforming (m : Mod) (p : Nat) : Mod :=
  if grpState m p ≠ 2 then m else
  let m := setGrpState (setGrp m p { grpAt m p with censusOpen := false }) p 3
  let m := (memberPorts m p).foldl (fun m q => sendGroup m q p 1 []) m
  if grpAnchorHere m p then censusRun m p false else m

/-- A REFORM_REQ arrives, of this group and epoch (R327, R332). -/
def reformReq (p q : Nat) (key : MsgKey) (m : Mod) : Mod :=
  let w0 := headWord0 m (myCoord m) 0 0x22 0 p
  if fld m (rGrpCtl p) 0 0 = 0 then dropMsg m 4 q w0
  else if !grpMatch m p key then grpDrop m p key.tag q w0
  else grpReforming (sendAck m q p 1) p

/-- The epoch of a NEW_GROUP is older than this member's. -/
def epochOld (m : Mod) (p : Nat) (epoch : W32) : Bool := decide (2 ^ 31 ≤ (epoch.toNat + 2 ^ 32 - grpEpoch m p) % 2 ^ 32)

/-- NEW_GROUP arrives from the parent; one of an old epoch is dropped (R332), one that has acted already is a duplicate. A module that
has not been told to form, and answered the census, forms with the others (R330, log 43). -/
def newGroupIn (p q : Nat) (tag : W16) (epoch : W32) (members : List Nat) (m : Mod) : Mod :=
  let g := grpAt m p
  let st := grpState m p
  if fld m (rGrpCtl p) 0 0 = 0 then dropMsg m 4 q (headWord0 m (myCoord m) 0 0x22 0 p)
  else if tag.toNat ≠ grpId m p ∨ epochOld m p epoch then treeDrop m p q tag epoch
  else
    let m := sendAck m q p 2
    if (st = 0 ∨ st = 1 ∨ st = 3) ∧ g.parent = some q ∧ !grpAnchorHere m p then newGroup m p epoch.toNat members else m

/-- HOLD arrives from the parent. -/
def holdIn (p q : Nat) (key : MsgKey) (m : Mod) : Mod :=
  let g := grpAt m p
  let w0 := headWord0 m (myCoord m) 0 0x22 0 p
  if fld m (rGrpCtl p) 0 0 = 0 then dropMsg m 4 q w0
  else if !grpMatch m p key then grpDrop m p key.tag q w0
  else
    let m := sendAck m q p 3
    if grpState m p = 3 ∧ g.parent = some q then grpHold (g.children.foldl (fun m r => sendGroup m r p 3 []) m) p else m

/-- A port toward a member has been Down for ZW_GRP_TMO ms (R331). -/
def linkTimeout (p q : Nat) (m : Mod) : Mod :=
  if (grpAt m p).members.contains (neighbour m q) ∧ !portUsable m q then grpReforming m p else m

/-- A member in Reforming has heard neither NEW_GROUP nor HOLD (R331). -/
def reformTimeout (p : Nat) (m : Mod) : Mod := if grpState m p = 3 then grpLeftOut (setBit m (rGrpErr p) 3) p else m

/-- A port has gone Down: no answer is owed over it (R329). -/
def censusPortDown (m : Mod) (q : Nat) : Mod := (List.range 12).foldl (fun m p => censusAnswer m p q none) m

/-- An unacknowledged control message is sent again (R333). -/
def controlResend (q key : Nat) (m : Mod) : Mod :=
  match m.unacked.find? (fun u => u.1 == key && u.2.port == q) with
  | some u => if portUsable m q then sendOn m q u.2.cls u.2.head u.2.body else m
  | none => m

/-- A control acknowledgement arrives (R333). -/
def controlAck (q key : Nat) (m : Mod) : Mod := { m with unacked := m.unacked.filter (fun u => !(u.1 == key && u.2.port == q)) }

/-! ## Commands (R345) -/

/-- ZW_GRP_ERR.cmd_ignored. -/
def grpIgnored (m : Mod) (p : Nat) : Mod := setBit m (rGrpErr p) 0

/-- Form reads the map, in a context of the partition (R386), and enters Forming; the anchor's first census begins. -/
def grpForm (m : Mod) (p : Nat) : Mod :=
  let x := fld m (rGrpCtl p) 15 4
  let map := fld m (rGrpMap p) 56 12 * 4096
  if grpState m p ≠ 0 ∨ fld m (rGrpCtl p) 0 0 = 0 ∨ !ctxOf m x p ∨ !rangeMapped m x map 4096
  then grpIgnored m p
  else if rangeBusy m x map 4096 false then rangeWake m x map 4096 false
  else
    let m := setGrp m p { GroupSt.reset with members := readMap m p, wave := (grpAt m p).wave }
    let m := wrN (wrN m (rGrpEpoch p) 0) (rGrpStat p) (1 + 8 * b2n (grpAnchorHere m p))
    if grpAnchorHere m p then censusRun m p false else m

/-- Reform on the anchor. -/
def grpReform (m : Mod) (p : Nat) : Mod := if grpState m p = 2 ∧ grpAnchorHere m p then grpReforming m p else grpIgnored m p

/-- Leave. -/
def grpLeave (m : Mod) (p : Nat) : Mod :=
  if grpState m p = 0 then grpIgnored m p
  else wrN (setGrp (abortStreams (dropUnacked m p) p) p { GroupSt.reset with wave := (grpAt m p).wave }) (rGrpStat p) 0

/-- Forced reform on an anchor in Held. -/
def grpForced (m : Mod) (p : Nat) : Mod :=
  if grpState m p = 4 ∧ grpAnchorHere m p then censusRun m p true else grpIgnored m p

/-- A write of ZW_GRP_CMD. -/
def grpCommand (m : Mod) (p cmd : Nat) : Mod :=
  match cmd with
  | 0 => m
  | 1 => grpForm m p
  | 2 => grpReform m p
  | 3 => grpLeave m p
  | 4 => grpForced m p
  | _ => grpIgnored m p

/-! ## The rows -/

/-- A census arrives (R329). -/
def execCensus (p : Part) (q : Port) (x : CensusKey) (s : State) : Host.Outcome State Fault Refusal :=
  .next (s.onMod (censusIn p.val q.val x.tag x.epoch x.wave))

/-- A census reply arrives (R329, R485). -/
def execCensusReply (p : Part) (q : Port) (child : Bool) (x : CensusKey) (members : List Nat) (s : State) :
    Host.Outcome State Fault Refusal :=
  .next (s.onMod (censusReplyIn p.val q.val child x.tag x.epoch x.wave members))

/-- The anchor's census repeats (R330). -/
def execAnchorCensusRepeat (p : Part) (s : State) : Host.Outcome State Fault Refusal := .next (s.onMod (censusRepeat p.val))

/-- A REFORM_REQ arrives (R331). -/
def execReformReq (p : Part) (x : GroupMsg) (s : State) : Host.Outcome State Fault Refusal :=
  .next (s.onMod (reformReq p.val x.port.val x.key))

/-- NEW_GROUP arrives (R331). -/
def execNewGroup (p : Part) (q : Port) (x : GroupKey) (members : List Nat) (s : State) : Host.Outcome State Fault Refusal :=
  .next (s.onMod (newGroupIn p.val q.val x.tag x.epoch members))

/-- HOLD arrives (R331). -/
def execHold (p : Part) (x : GroupMsg) (s : State) : Host.Outcome State Fault Refusal :=
  .next (s.onMod (holdIn p.val x.port.val x.key))

/-- A port toward a member stays Down (R331). -/
def execGrpLinkTimeout (p : Part) (q : Port) (s : State) : Host.Outcome State Fault Refusal :=
  .next (s.onMod (linkTimeout p.val q.val))

/-- Reforming times out (R331). -/
def execReformingTimeout (p : Part) (s : State) : Host.Outcome State Fault Refusal := .next (s.onMod (reformTimeout p.val))

/-- A control message is sent again (R333). -/
def execControlResend (q : Port) (key : Nat) (s : State) : Host.Outcome State Fault Refusal :=
  .next (s.onMod (controlResend q.val key))

/-- A control acknowledgement arrives (R333). -/
def execControlAck (q : Port) (key : Nat) (s : State) : Host.Outcome State Fault Refusal :=
  .next (s.onMod (controlAck q.val key))

end Sys2Proof.Machine
end

