-- ==== Sys2Proof/Machine/Link.lean ====
section
/-!
DEFINITION. Zwison ports (12_zwison_fabric.md R313 to R327, R343, R344): frames received and sent, error correction, replay, credits,
port states, routing of messages, line maps and link sleep.
-/
namespace Sys2Proof.Machine

/-! ## Error correction (R316) -/

/-- Product in GF(2^8) under x^8 + x^4 + x^3 + x^2 + 1; `n` bits of the second factor are left. -/
def gfMulGo : Nat → Nat → Nat → Nat → Nat
  | 0, _, _, r => r
  | n + 1, a, b, r =>
    let a2 := 2 * a
    gfMulGo n (if 256 ≤ a2 then Nat.xor a2 0x11D else a2) (b / 2) (if b % 2 = 1 then Nat.xor r a else r)

/-- Product in GF(2^8). -/
def gfMul (a b : Nat) : Nat := gfMulGo 8 a b 0

/-- a^n. -/
def gfPow (a : Nat) : Nat → Nat
  | 0 => 1
  | n + 1 => gfMul a (gfPow a n)

/-- a^−1 = a^254. -/
def gfInv (a : Nat) : Nat := gfPow a 254

/-- Syndrome `j` of a codeword, its first symbol of the highest order. -/
def rsSyn (j : Nat) (c : List Nat) : Nat := let x := gfPow 2 j; c.foldl (fun s b => Nat.xor (gfMul s x) b) 0

/-- The codeword with symbol `i` changed by `y`. -/
def rsFix (c : List Nat) (i y : Nat) : List Nat := c.set i (Nat.xor (c.getD i 0) y)

/-- Decodes a codeword of 168 symbols: corrects up to two, and counts them; none beyond that. -/
def rsDecode (c : List Nat) : Option (List Nat × Nat) :=
  let s0 := rsSyn 0 c
  let s1 := rsSyn 1 c
  let s2 := rsSyn 2 c
  let s3 := rsSyn 3 c
  -- the place of the symbol whose locator is α^e
  let place (x : Nat) : Option Nat := (List.range 168).find? (fun i => gfPow 2 (167 - i) == x)
  if s0 = 0 ∧ s1 = 0 ∧ s2 = 0 ∧ s3 = 0 then some (c, 0)
  else if s0 ≠ 0 ∧ gfMul s0 s2 = gfMul s1 s1 ∧ gfMul s1 s3 = gfMul s2 s2 then
    (place (gfMul s1 (gfInv s0))).map (fun i => (rsFix c i s0, 1))
  else
    let det := Nat.xor (gfMul s0 s2) (gfMul s1 s1)
    if det = 0 then none else
    let d := gfInv det
    let a := gfMul d (Nat.xor (gfMul s0 s3) (gfMul s1 s2))
    let b := gfMul d (Nat.xor (gfMul s1 s3) (gfMul s2 s2))
    match (List.range 168).filter (fun i =>
        let x := gfPow 2 (167 - i)
        Nat.xor (Nat.xor (gfMul x x) (gfMul a x)) b == 0) with
    | [i, j] =>
      let x1 := gfPow 2 (167 - i)
      let x2 := gfPow 2 (167 - j)
      let y1 := gfMul (Nat.xor (gfMul s0 x2) s1) (gfInv (Nat.xor x1 x2))
      some (rsFix (rsFix c i y1) j (Nat.xor s0 y1), 2)
    | _ => none

/-- Codeword `c` of a frame: data bytes c, c + 8, …, then its four parity bytes. -/
def frameCode (bs : List Byte) (c : Nat) : List Nat :=
  (List.range 164).map (fun i => (bs.getD (c + 8 * i) 0).toNat) ++ (List.range 4).map (fun i => (bs.getD (1312 + 4 * c + i) 0).toNat)

/-- The corrected 1,312 data bytes of a frame and the symbols corrected. -/
def frameFix (bs : List Byte) : Option (List Byte × Nat) :=
  match (List.range 8).mapM (fun c => rsDecode (frameCode bs c)) with
  | none => none
  | some ws =>
    some ((List.range 1312).map (fun i => BitVec.ofNat 8 ((ws.getD (i % 8) ([], 0)).1.getD (i / 8) 0)),
      (ws.map (·.2)).foldl (· + ·) 0)

/-- One byte into the reflected CRC-32 register. -/
def crc32Byte (c : Nat) (b : Byte) : Nat :=
  (List.range 8).foldl (fun c _ => if c % 2 = 1 then Nat.xor (c / 2) 0xEDB88320 else c / 2) (Nat.xor c b.toNat)

/-- CRC-32 (Table 12.2). -/
def crc32 (bs : List Byte) : Nat := Nat.xor (bs.foldl crc32Byte 0xFFFFFFFF) 0xFFFFFFFF

/-- The data of a frame that is accepted: every codeword decodes and the CRC matches (R316). -/
def frameData (bs : List Byte) : Option (List Byte × Nat) :=
  match frameFix bs with
  | some (d, n) => if bs.length = 1344 ∧ crc32 (d.take 1308) = leNat (d.drop 1308) then some (d, n) else none
  | none => none

/-- The parity bytes of a codeword, highest order first: the remainder of its message symbols, first symbol highest order, times x^4
modulo the generator (x − 1)(x − α)(x − α²)(x − α³) = x^4 + 15 x^3 + 54 x^2 + 120 x + 64 (R316). -/
def rsParity (ms : List Nat) : List Nat :=
  ms.foldl (fun r s =>
    let f := Nat.xor s (r.getD 0 0)
    [Nat.xor (r.getD 1 0) (gfMul f 15), Nat.xor (r.getD 2 0) (gfMul f 54), Nat.xor (r.getD 3 0) (gfMul f 120), gfMul f 64])
    [0, 0, 0, 0]

/-- A frame of its 1,308 first bytes: the CRC and the parity of eight codewords follow (R315, R316). -/
def frameOf (bs : List Byte) : List Byte :=
  let d := bs ++ leBytes 4 (crc32 bs)
  d ++ (List.range 8).flatMap (fun c =>
    (rsParity ((List.range 164).map (fun i => (d.getD (c + 8 * i) 0).toNat))).map (BitVec.ofNat 8))

/-! ## Line maps (R323) -/

/-- The bit of the line map that a port's link has. -/
def linkBit (m : Mod) (q : Nat) : Nat :=
  let s := topoSize m (q / 2)
  let c := coordOf (myCoord m) (q / 2)
  if q % 2 = 0 then c else (c + s - 1) % s

/-- A line state announcement (type 0x24); the layout of words 2 and 3 is this model's (log 20). -/
def sendLine (m : Mod) (q d c : Nat) (down : Bool) : Mod :=
  sendNear m q 0 0x24 12 0 0 0 [BitVec.ofNat 64 (d + c * 4 + b2n down * 2 ^ 8)] []

/-- A port leaves or enters Up: the map follows, and the line is told in both directions. -/
def announce (m : Mod) (q : Nat) (down : Bool) : Mod :=
  let d := q / 2
  let b := linkBit m q
  let m := setFld m (rLinemap d) b b (b2n down)
  [2 * d, 2 * d + 1].foldl (fun m r => if portUsable m r then sendLine m r d b down else m) m

/-- A line state announcement arrives: it goes on unless the map says so already (log 28). -/
def lineState (q d c : Nat) (down : Bool) (m : Mod) : Mod :=
  if q / 2 ≠ d then m
  else if bit (rd m (rLinemap d)) c = down then m
  else
    let m := setFld m (rLinemap d) c c (b2n down)
    let r := if q % 2 = 0 then q + 1 else q - 1
    if portUsable m r then sendLine m r d c down else m

/-! ## Port states (R318, R319) -/

/-- Sets ZW_PORT_STAT.state. -/
def setPortState (m : Mod) (q st : Nat) : Mod := setFld m (rPortStat q) 2 0 st

/-- Messages partly received when a port's link is lost (R319): one that was going on is ended with an abort flit, one for this
module is counted under drop cause 5. -/
def abortParts (m : Mod) (q : Nat) : Mod := (portAt m q).parts.foldl (fun m e => cutPart m q e) m

/-- Messages that wait for a link that is lost, none of whose flits has left, meet a Down link after the choice (R322): they are dropped
with cause 1. What is left of one partly sent is lost with the link. -/
def dropWaiting (m : Mod) (q : Nat) : Mod :=
  let x := portAt m q
  let ws := (x.slots ++ x.outq).filterMap (fun f => if f.kind = 1 then some (BitVec.ofNat 64 (leNat (f.data.take 8))) else none)
    ++ (m.tx.filter (fun t => t.port == q && t.moved == 0)).map (fun t => t.head.headD 0)
  let m := { m with tx := m.tx.filter (fun t => t.port != q) }
  ws.foldl (fun m w => dropMsg m 1 q w) m

/-- A port's link is lost: its messages, its numbers and credits, and the line and the censuses that counted on it. -/
def portLost (m : Mod) (q st : Nat) : Mod :=
  let was := portUsable m q
  let x := portAt m q
  let m := dropWaiting m q
  let m := setFld (setPortState m q st) (rPortStat q) 27 23 0
  let m := abortParts (setPort m q { PortSt.reset with parts := x.parts, symbols := x.symbols, hourMarks := x.hourMarks }) q
  let m := setPort m q { portAt m q with parts := [] }
  if was then censusPortDown (announce m q true) q else m

/-- A port enters Down, which ZW_PORT_RETRAIN counts. -/
def enterDown (m : Mod) (q : Nat) : Mod := satReg (setBit (setPortState m q 1) (rPortErr q) 0) (rPortRetrain q) 32 1

/-- A port goes Down (R318). -/
def portDown (m : Mod) (q : Nat) : Mod := enterDown (portLost m q 1) q

/-- The coordinates and port that training must find (R318). -/
def peerOk (m : Mod) (q peer peerPort : Nat) : Bool := peer == neighbour m q && peerPort == (if q % 2 = 0 then q + 1 else q - 1)

/-- Training completes (R318, Table 12.1). -/
def trainDone (q lanes peer peerPort : Nat) (m : Mod) : Mod :=
  if portState m q ≠ 1 ∧ portState m q ≠ 2 then m
  else if lanes ≠ 4 then enterDown m q
  else
    let m := setFld (setFld m (rPortStat q) 27 23 (4 * 2 + 1)) (rPortStat q) 22 8 peer
    if peerOk m q peer peerPort then
      announce (setPort (setPortState m q 3) q { portAt m q with credits := linkCredits }) q false
    else setBit (setPortState m q 5) (rPortErr q) 1

/-- A Down port begins to train (R318). -/
def retrainTimer (q : Nat) (m : Mod) : Mod := if portState m q = 1 then setPortState m q 2 else m

/-- The port is enabled and its dimension has a size above 1 (R318). -/
def portWanted (m : Mod) (q : Nat) : Bool := fld m (rPortCtl q) 0 0 == 1 && decide (1 < topoSize m (q / 2))

/-- Off and Down follow ZW_PORT_CTL.enable and the torus size. -/
def portEnable (m : Mod) (q : Nat) : Mod :=
  if portWanted m q then (if portState m q = 0 then enterDown m q else m)
  else if portState m q = 0 then m
  else wrN (portLost m q 0) (rPortStat q) 0

/-- Signal is lost, by a port that trains or has trained; a port that sleeps has none (R318, R343). -/
def signalLoss (q : Nat) (m : Mod) : Mod :=
  match portState m q with
  | 2 => enterDown m q
  | 3 | 5 => portDown m q
  | _ => m

/-- No frame has been accepted for 1 µs (R318). -/
def frameTimeout (q : Nat) (m : Mod) : Mod := if portState m q = 3 ∨ portState m q = 5 then portDown m q else m

/-! ## Frames (R315 to R317, R325) -/

/-- A flit of an accepted frame: heads begin a message, bodies go on with it, an abort ends it (R319). -/
def flitIn (q : Nat) (m : Mod) (f : Nat × List Byte) : Mod :=
  let (tag, bs) := f
  let ch := nbits tag 3 2 * 2 + nbits tag 4 4
  let x := portAt m q
  let rest := x.parts.filter (fun e => e.1 != ch)
  let done (b : List Byte) : Bool := decide (64 * (1 + nbits (leNat (b.take 8)) 50 40) ≤ b.length)
  let keep (b : List Byte) : List (Nat × List Byte) := if done b then rest else (ch, b) :: rest
  let m := if nbits tag 1 0 = 0 then m else satReg m (rPortRx q) 48 1
  match nbits tag 1 0 with
  | 1 => setPort m q { x with parts := keep bs, headSeen := true }
  | 2 => (match x.parts.find? (fun e => e.1 == ch) with
    | some e => setPort m q { x with parts := keep (e.2 ++ bs) }
    | none => m)
  | 3 => (match x.parts.find? (fun e => e.1 == ch) with
    | some e => cutPart (setPort m q { x with parts := rest }) q e
    | none => m)
  | _ => m

/-- A flit enters the input buffer, until its message leaves it; an aborted message's flits leave with the abort (R325). -/
def bufferIn (q : Nat) (m : Mod) (f : Nat × List Byte) : Mod :=
  let ch := nbits f.1 3 2 * 2 + nbits f.1 4 4
  let x := portAt m q
  let up (l : List Nat) (n : Nat) : List Nat := l.set ch (l.getD ch 0 + n)
  match nbits f.1 1 0 with
  | 1 | 2 => setPort m q { x with held := up x.held 1 }
  | 3 =>
    let n := (match x.parts.find? (fun e => e.1 == ch) with | some e => e.2.length / 64 | none => 0)
    let k := min n (x.held.getD ch 0)
    setPort m q { x with held := x.held.set ch (x.held.getD ch 0 - k), owed := up x.owed (k + 1) }
  | _ => m

/-- A message of `n` flits leaves the input buffer of a port: their credits return (R325). -/
def bufferOut (m : Mod) (q ch n : Nat) : Mod :=
  let x := portAt m q
  let k := min n (x.held.getD ch 0)
  setPort m q { x with held := x.held.set ch (x.held.getD ch 0 - k), owed := x.owed.set ch (x.owed.getD ch 0 + k) }

/-- A credit return adds to its channel. -/
def creditReturn (x : PortSt) (f : Nat) : PortSt :=
  let i := nbits f 2 0
  { x with credits := x.credits.set i (x.credits.getD i 0 + nbits f 12 3) }

/-- The unacknowledged frames after the one of number `ack`. -/
def keptAfter (x : PortSt) (ack : Nat) : List (Nat × List Byte) := x.kept.filter (fun e => decide (2048 ≤ (ack + 4096 - e.1) % 4096))

/-- A receiver asks for a replay of the frames after the last it accepted, which are sent again as they were (R317); the eighth
replay of one frame takes the port Down (R318). With no such frame there is nothing to replay. -/
def replay (m : Mod) (q ack : Nat) : Mod :=
  let x := portAt m q
  let fs := keptAfter x ack
  if fs.isEmpty then m else
  let n := if x.nakAt = ack ∧ x.nakCount ≠ 0 then x.nakCount + 1 else 1
  let m := setPort m q { x with nakAt := ack, nakCount := n, again := fs.map (·.2) }
  let m := satReg (setBit m (rPortErr q) 2) (rPortReplay q) 32 1
  if 8 ≤ n then portDown m q else m

/-- A frame in order is passed on: its credits and its flits (R317, R319, R325). -/
def frameIn (q ctl : Nat) (flits : List (Nat × List Byte)) (m : Mod) : Mod :=
  let x := portAt m q
  let x := creditReturn (creditReturn x (nbits ctl 138 126)) (nbits ctl 151 139)
  let used := flits.any (fun f => nbits f.1 1 0 != 0)
  let x := { x with rxSeq := if used then (x.rxSeq + 1) % 4096 else x.rxSeq }
  flits.foldl (fun m f => flitIn q (bufferIn q m f) f) (setPort m q x)

/-! ## Link sleep and retraining (R318, R343, R344) -/

/-- A port asks to sleep once its output queue is empty: SLEEP_REQ. -/
def sleepAsk (m : Mod) (q : Nat) : Mod :=
  let x := portAt m q
  if portState m q = 3 ∧ !x.requested ∧ !x.committed ∧ !x.asked ∧ portQuiet m q then
    setPort m q { x with requested := true, busy := false, cmds := x.cmds ++ [1] } else m

/-- A port has been idle for sleep_idle µs. -/
def sleepIdle (q : Nat) (m : Mod) : Mod :=
  if fld m (rPortCtl q) 1 1 = 1 ∧ fld m (rPortCtl q) 23 8 ≠ 0 then sleepAsk m q else m

/-- A SLEEP_REQ arrives: the port's next frame answers it. -/
def sleepReq (q : Nat) (m : Mod) : Mod :=
  let x := portAt m q
  if portState m q ≠ 3 ∨ x.committed then m else setPort m q { x with asked := true, headSeen := false }

/-- The answer to a SLEEP_REQ, in the next frame: SLEEP_ACK, which commits, if the output queue is empty and neither a head flit nor a
CANCEL has come since the request; else SLEEP_NAK (R343). -/
def sleepAnswer (m : Mod) (q : Nat) : Mod :=
  let x := portAt m q
  if !x.asked then m
  else if portQuiet m q ∧ !x.headSeen then setPort m q { x with asked := false, committed := true, requested := false, cmds := [2] }
  else setPort m q { x with asked := false, cmds := x.cmds ++ [3] }

/-- A SLEEP_ACK arrives; traffic that came after the request is a latched wake. -/
def sleepAck (q : Nat) (m : Mod) : Mod :=
  let x := portAt m q
  if portState m q = 3 ∧ x.requested then
    setPort m q { x with requested := false, committed := true, latched := x.latched || x.busy, busy := false } else m

/-- A SLEEP_NAK arrives: the port stays Up. -/
def sleepNak (q : Nat) (m : Mod) : Mod :=
  let x := portAt m q
  if portState m q = 3 ∧ x.requested then setBit (setPort m q { x with requested := false, busy := false }) (rPortErr q) 5 else m

/-- A CANCEL arrives: before SLEEP_ACK it asks for SLEEP_NAK; after it the wake is latched. -/
def sleepCancel (q : Nat) (m : Mod) : Mod :=
  let x := portAt m q
  if x.committed then setPort m q { x with latched := true }
  else if x.asked then setPort m q { x with headSeen := true } else m

/-- Exit begins. -/
def sleepExit (m : Mod) (q : Nat) : Mod := setPort m q { portAt m q with exiting := true, latched := false }

/-- Entry completes; a latched wake begins exit (R344). -/
def sleepEntered (q : Nat) (m : Mod) : Mod :=
  let x := portAt m q
  if portState m q ≠ 3 ∨ !x.committed then m else
  let m := setPort (setPortState m q 4) q { x with committed := false, sleepFrom := m.hclk }
  if x.latched then sleepExit m q else m

/-- Traffic waits at a sleeping port: it sends a wake burst. -/
def linkWake (q : Nat) (m : Mod) : Mod := if portState m q = 4 ∧ !(portAt m q).exiting then sleepExit m q else m

/-- The port reaches Up. -/
def sleepLeft (q : Nat) (m : Mod) : Mod :=
  let x := portAt m q
  if portState m q = 4 ∧ x.exiting then
    satReg (setPort (setPortState m q 3) q { x with exiting := false }) (rPortSlept q) 48 (m.hclk - x.sleepFrom) else m

/-- A RETRAIN command, from the peer or ZW_PORT_CMD: a sleeping port wakes, a committed one will; any other trains again. -/
def retrain (q : Nat) (m : Mod) : Mod :=
  match portState m q with
  | 4 => linkWake q m
  | 3 => if (portAt m q).committed then setPort m q { portAt m q with latched := true } else portDown m q
  | 1 | 5 => setPortState m q 2
  | _ => m

/-- The cmd field of an accepted frame (Table 12.2); a reserved code does nothing. -/
def frameCmd (q cmd : Nat) (m : Mod) : Mod :=
  match cmd with
  | 1 => sleepReq q m
  | 2 => sleepAck q m
  | 3 => sleepNak q m
  | 4 => sleepCancel q m
  | 5 => retrain q m
  | _ => m

/-! ## Frames received and sent (R315 to R318) -/

/-- A frame arrives (R315 to R318): it is rejected, or passed on if it is the next in order; any other asks for a replay. Its
acknowledgement, its request for a replay and its command act. The messages of its flits have rows of their own (log 28). -/
def linkFrame (q : Nat) (bs : List Byte) (m : Mod) : Mod :=
  if portState m q ≠ 3 then m else
  let x := portAt m q
  let x := { x with symbols := x.symbols + 1344 }
  match frameData bs with
  | none =>
    let m := setPort m q { x with rejects := x.rejects + 1, nakOut := true }
    let m := satReg (setBit m (rPortErr q) 3) (rPortUncorr q) 32 1
    if 16 ≤ x.rejects + 1 then portDown m q else m
  | some (d, n) =>
    let m := satReg (setPort m q { x with rejects := 0 }) (rPortCorr q) 48 n
    let ctl := leNat (d.drop 1280)
    let flits := (List.range 20).map (fun i => (nbits ctl (5 * i + 4) (5 * i), (d.drop (64 * i)).take 64))
    let m := if nbits ctl 111 100 = (portAt m q).rxSeq then frameIn q ctl flits m
      else setPort m q { portAt m q with nakOut := true }
    let ack := nbits ctl 123 112
    let x := portAt m q
    let m := if nbits ctl 124 124 = 1 then setPort m q { x with kept := keptAfter x ack } else m
    let m := if nbits ctl 125 125 = 1 then replay m q ack else m
    frameCmd q (nbits ctl 155 152) m

/-- A credit return of a frame: the channel and the flits, at most 1,023 (Table 12.2). -/
def creditField (x : PortSt) (ch : Option Nat) : Nat := match ch with | some i => i + min 1023 (x.owed.getD i 0) * 8 | none => 0

/-- The control area of a frame but for its CRC (Table 12.2). -/
def frameControl (x : PortSt) (fs : List TxFlit) (cmd c0 c1 : Nat) : Nat :=
  let tags := (fs.mapIdx (fun i f => (f.kind + f.ch / 2 * 4 + f.ch % 2 * 16) * 2 ^ (5 * i))).foldl (· + ·) 0
  tags + x.txSeq * 2 ^ 100 + (x.rxSeq + 4095) % 4096 * 2 ^ 112 + 2 ^ 124 + b2n x.nakOut * 2 ^ 125 + c0 * 2 ^ 126 + c1 * 2 ^ 139
    + cmd * 2 ^ 152

/-- Sends a port's next frame (R315, R317, R343): one that is to be sent again; else a new one with up to 20 of the granted flits,
idle slots, the acknowledgement, up to two credit returns and a command. Only idle slots go out with 64 frames unacknowledged, and
while a sleep request waits for its answer or entry is under way (R344). A frame with a flit is kept. -/
def portFrame (m : Mod) (q : Nat) : Mod :=
  let x := portAt m q
  match x.again with
  | f :: fs => setPort m q { x with again := fs, wire := f }
  | [] =>
    let m := sleepAnswer m q
    let x := portAt m q
    let fs := if x.committed ∨ x.requested ∨ 64 ≤ x.kept.length then [] else x.slots.take 20
    let due := (List.range 8).filter (fun i => x.owed.getD i 0 != 0)
    let ctl := frameControl x fs (x.cmds.headD 0) (creditField x due[0]?) (creditField x due[1]?)
    let bs := frameOf (fs.flatMap (·.data) ++ List.replicate (64 * (20 - fs.length)) 0 ++ leBytes 28 ctl)
    let owed := (due.take 2).foldl (fun l i => l.set i (l.getD i 0 - min 1023 (l.getD i 0))) x.owed
    let x := { x with slots := x.slots.drop fs.length, owed := owed, cmds := x.cmds.drop 1, nakOut := false, wire := bs }
    let x := if fs.isEmpty then x else { x with kept := x.kept ++ [(x.txSeq, bs)], txSeq := (x.txSeq + 1) % 4096 }
    satReg (setPort m q x) (rPortTx q) 48 fs.length

/-- The frames of a house tick: a frame lasts 24 ns and a tick 20, so that a port that is Up begins one in five ticks of six (log 28). -/
def frameTick (m : Mod) : Mod :=
  if m.hclk % 6 = 0 then m
  else (List.range 6).foldl (fun m q => if portState m q = 3 then portFrame (portFill m q) q else m) m

/-! ## Routing (R320 to R322, R324) -/

/-- The virtual channel of a message type (Table 12.4). -/
def typeVc : Nat → Option Nat
  | 0x01 => some 2
  | 0x02 | 0x11 | 0x20 | 0x21 | 0x22 | 0x23 | 0x24 => some 0
  | 0x10 | 0x12 => some 1
  | 0x30 => some 3
  | _ => none

/-- The partition is not enabled for the message's type (drop cause 4). -/
def notEnabled (m : Mod) (typ p : Nat) : Bool :=
  if typ = 0x30 then partState m p != 2
  else if (0x10 ≤ typ ∧ typ ≤ 0x12) ∨ (0x20 ≤ typ ∧ typ ≤ 0x22) then fld m (rGrpCtl p) 0 0 == 0 else false

/-- A message at this module (R320, R322, R324): dropped, taken in (its own row then tells its contents), or sent on. One addressed
to the module in standby wakes it, waits, and is presented again (R421, log 29). A reel segment that came over a link goes over no
further one (R179); it is dropped with cause 1 (log 39). -/
def routeAt (port : Option (Nat × Bool)) (h : Head) (body : List Byte) (m : Mod) : Mod :=
  let w0 := h.getD 0 0
  let src := match port with | some e => e.1 | none => 7
  let typ := bits w0 39 32
  let p := bits w0 54 51
  let dst := bits w0 14 0
  if typeVc typ ≠ some (bits w0 31 30) ∨ bits w0 63 55 ≠ 0 ∨ 12 < p ∨ 1024 < bits w0 50 40 ∨ 64 * bits w0 50 40 ≠ body.length
  then dropMsg m 0 src w0
  else
    match nextDim m dst with
    | none =>
      if modState m ≠ 0 then modWake m
      else if p = 12 then (if (0x10 ≤ typ ∧ typ ≤ 0x12) ∨ (0x20 ≤ typ ∧ typ ≤ 0x22) ∨ typ = 0x30 then dropMsg m 4 src w0 else m)
      else if notEnabled m typ p then dropMsg m 4 src w0 else m
    | some d =>
      match (if typ = 0x01 ∧ port.isSome then none else routeOut m port dst d) with
      | some (r, cls) => sendOn m r cls h body
      | none => dropMsg m 1 src w0

/-- A message that came over a link leaves the port's input buffer, unless it waits for the module to leave standby (R325, R421). -/
def routeMsg (port : Option (Nat × Bool)) (h : Head) (body : List Byte) (m : Mod) : Mod :=
  let w0 := h.getD 0 0
  let waits := modState m != 0 && (nextDim m (bits w0 14 0)).isNone
  match port with
  | some (q, cls) =>
    if waits then routeAt port h body m
    else bufferOut (routeAt port h body m) q (2 * bits w0 31 30 + b2n cls) (1 + (body.length + 63) / 64)
  | none => routeAt port h body m

/-! ## Port commands (R346) -/

/-- A write of ZW_PORT_CMD. -/
def portCommand (m : Mod) (q cmd : Nat) : Mod :=
  match cmd with
  | 1 => retrain q m
  | 2 => linkWake q (portTraffic m q)
  | 3 => sleepAsk m q
  | _ => m

/-! ## The rows -/

/-- A frame arrives (R317). -/
def execLinkFrame (q : Port) (bytes : List Byte) (s : State) : Host.Outcome State Fault Refusal :=
  .next (s.onMod (linkFrame q.val bytes))
/-- A port loses signal (R318). -/
def execPortSignalLoss (q : Port) (s : State) : Host.Outcome State Fault Refusal := .next (s.onMod (signalLoss q.val))
/-- No frame is accepted for 1 µs (R318). -/
def execPortFrameTimeout (q : Port) (s : State) : Host.Outcome State Fault Refusal := .next (s.onMod (frameTimeout q.val))
/-- A Down port retrains (R318). -/
def execPortRetrainTimer (q : Port) (s : State) : Host.Outcome State Fault Refusal := .next (s.onMod (retrainTimer q.val))
/-- Training completes (R318). -/
def execLinkTrainDone (q : Port) (lanes : Nat) (peer : BitVec 15) (peerPort : Port) (s : State) :
    Host.Outcome State Fault Refusal :=
  .next (s.onMod (trainDone q.val lanes peer.toNat peerPort.val))
/-- A message is routed (R322). -/
def execMessageRoute (q : ArrivePort) (h : Head) (body : List Byte) (s : State) : Host.Outcome State Fault Refusal :=
  .next (s.onMod (routeMsg (match q with | .own => none | .port q cls => some (q.val, cls)) h body))
/-- A line state announcement arrives (R323). -/
def execLineStateAnnounce (q : Port) (dim : Fin 3) (coord : Fin 32) (down : Bool) (s : State) : Host.Outcome State Fault Refusal :=
  .next (s.onMod (lineState q.val dim.val coord.val down))
/-- A port has been idle (R343). -/
def execLinkSleepIdle (q : Port) (s : State) : Host.Outcome State Fault Refusal := .next (s.onMod (sleepIdle q.val))
/-- A SLEEP_REQ arrives (R343). -/
def execSleepReq (q : Port) (s : State) : Host.Outcome State Fault Refusal := .next (s.onMod (sleepReq q.val))
/-- A SLEEP_ACK arrives (R343). -/
def execSleepAck (q : Port) (s : State) : Host.Outcome State Fault Refusal := .next (s.onMod (sleepAck q.val))
/-- A SLEEP_NAK arrives (R344). -/
def execSleepNak (q : Port) (s : State) : Host.Outcome State Fault Refusal := .next (s.onMod (sleepNak q.val))
/-- A CANCEL arrives (R344). -/
def execCancel (q : Port) (s : State) : Host.Outcome State Fault Refusal := .next (s.onMod (sleepCancel q.val))
/-- A RETRAIN arrives (R343). -/
def execRetrain (q : Port) (s : State) : Host.Outcome State Fault Refusal := .next (s.onMod (retrain q.val))
/-- Entry into sleep completes (R344). -/
def execLinkSleepEntryDone (q : Port) (s : State) : Host.Outcome State Fault Refusal := .next (s.onMod (sleepEntered q.val))
/-- Traffic wakes a port (R343). -/
def execLinkWake (q : Port) (s : State) : Host.Outcome State Fault Refusal := .next (s.onMod (linkWake q.val))
/-- A waking port reaches Up (R343). -/
def execLinkSleepExitDone (q : Port) (s : State) : Host.Outcome State Fault Refusal := .next (s.onMod (sleepLeft q.val))

end Sys2Proof.Machine
end

