-- ==== Sys2Proof/Machine/Clock.lean ====
section
/-!
DEFINITION. The house clock.
-/
namespace Sys2Proof.Machine

/-- The wait counters of a running stream, for one house cycle of 25 fast cycles (R342): a local block is missing, or a peer's
message is. -/
def csWaitTick (m : Mod) (i : Nat) : Mod :=
  if !csRuns m i then m
  else if csAllFinal m i then satReg m (rCsWaitP i) 48 25 else satReg m (rCsWaitL i) 48 25

/-- One tick of the house clock, 20 ns (log 2): the count of R408 advances while the house domain is up, with the counters that
follow it. Ports send a frame in five of six ticks (R315), and engines that wait for space, for a free mover or for a target that
refused them go on. -/
def clockTick (m : Mod) : Mod :=
  if !m.boot.house then m else
  let m := throttleTick { m with hclk := (m.hclk + 1) % 2 ^ 64 }
  let m := lateFlush m.lateWrites.length (frameTick (arbTestEnd m))
  let m := (List.range 64).foldl (fun m i => csAdvance (csWaitTick m i) i) m
  (List.range 12).foldl (fun m p => prPump (rlPump (strTick m p) p) p) m

end Sys2Proof.Machine
end

