-- ==== Sys2Proof/Machine/Host.lean ====
section
/-!
DEFINITION. Partitions, contexts, doorbells, command queues and BAR4 (14_partitions_host.md R380 to R402), with the core
starts, stops and scrubs they command (03_octix_core.md R79, R80; 11_takes_prints.md R308 to R311).
-/
namespace Sys2Proof.Machine

/-! ## Scrubs, starts and stops of cores (R79, R80, R134) -/

/-- The scrub of R80: both physical halves, the instruction store, and every register and special register but the counters
of R70. -/
def scrubCore (m : Mod) (c : Nat) : Mod :=
  let x := coreAt m c
  let m := { m with lmem := sclear m.lmem (c * lsTop) lsTop, imem := sclear m.imem (c * 0x4000) 0x4000 }
  let m := eccClear (eccClear m 0 (c * lsTop) lsTop) 1 (c * 0x4000) 0x4000
  setCore m c { CoreSt.reset with cycle := x.cycle, cancel := x.cancel, depStall := x.depStall, idle := x.idle, haloIn := x.haloIn
                                  haloPos := x.haloPos }

/-- A core starts a program of context `x` at a word index (R79), with the tensor set-up state at reset (R139). -/
def startCore (m : Mod) (x w c : Nat) : Mod :=
  let p := (ctxAt m x).part.val
  setCore m c { coreAt m c with
    state := .running, pc := BitVec.ofNat 16 w, s := [], p := 0, v := [], t := [], loops := [], agBase := [], agStride := []
    txM := 16, txN := 32, txK := 32, txH := 16
    wait := none, halting := none, reported := false, wakeDone := false, scrubbing := false
    ctxReg := BitVec.ofNat 32 (x * 2 ^ 16 + p), lastCtx := if h : x < 4096 then some ⟨x, h⟩ else none }

/-- A core stops fetching and halts with a code once its issued instructions have completed (R382, R395, R399). -/
def stopCore (code : W16) (m : Mod) (c : Nat) : Mod :=
  let x := coreAt m c
  if x.state = .running ∨ x.state = .waiting then
    setCore m c { x with state := .running, wait := none, wakeDone := false
                         halting := match x.halting with | some k => some k | none => some code }
  else m

/-- A halting core's outstanding work has completed (R134): Halted, with the completion that bit 14 of the halt code asks
for (R399). -/
def coreHalted (c : Nat) (m : Mod) : Mod :=
  let x := coreAt m c
  match x.halting with
  | none => m
  | some code =>
    if !x.tq.isEmpty || !x.vq.isEmpty || !x.mq.isEmpty || !x.loads.isEmpty
      || m.cores.any (fun e => e.2.haloIn.any (fun u => u.sender == c)) then m
    else
      let m := setCore m c { x with state := .halted, haltCode := code, halting := none, wait := none }
      let m := if bit code 14 then
          cplSend m (bits x.ctxReg 27 16) (cplEntry 0x81 0 0 (code.toNat * 2 ^ 32) c m.hclk) else m
      coreStopped m c none code

/-! ## Partitions (R380 to R383) -/

/-- Changes PART_STAT.state. -/
def setPartState (m : Mod) (p st : Nat) : Mod := setFld m (rPartStat p) 31 28 st

/-- PART_ERR.cmd_ignored. -/
def partIgnored (m : Mod) (p : Nat) : Mod := setBit m (rPartErr p) 0

/-- The clapper and event state of every scope of a partition is cleared (R125). -/
def clearSync (m : Mod) (p : Nat) : Mod :=
  let ks := clustersOfPart m p
  let mine (key : Nat) : Bool :=
    if key < 40000 then ks.contains (key / 8)
    else if key < 40320 then partHasBay m p ((key - 40000) / 8) else (key - 40320) / 16 == p
  { m with claps := m.claps.filter (fun e => !mine e.1), arrivals := m.arrivals.filter (fun a => !mine a.key)
           evFlags := m.evFlags.filter (fun e => !(ks.contains e.1 || e.1 == 5000 + p)) }

/-- The set-up command (R380, R381); a bay that the repair map made unavailable refuses it (R431). -/
def partSetup (m : Mod) (p : Nat) : Mod :=
  if partState m p ≠ 0 then partIgnored m p else
  let bays := (rd m (rPartBays p)).toNat
  if bays = 0 ∨ (List.range 40).any (fun b => bays.testBit b && (!bit (rd m rRepBayOk) b || (List.range 12).any (fun q => partHasBay m q b)))
  then setBit m (rPartErr p) 1
  else
    let m := setPartState m p 1
    (clustersOfPart m p).foldl wake m

/-- One cluster of a partition that is set up: its cores scrubbed, its store zero, no carve-out, channels Off with registers
at reset (R381). -/
def setupCluster (m : Mod) (k : Nat) : Mod :=
  let m := (coresOf k).foldl scrubCore m
  let m := setFld { m with mem := sclear m.mem (nearAddr k) 0x100000 } (rClCarve k) 3 0 0
  let m := eccClear m 2 (nearAddr k) 0x100000
  setCl { m with regs := sclear m.regs (clBase k) 0x300, chans := sclear m.chans (16 * k) 16
                 ingest := m.ingest.filter (fun e => e / 16 != k) } k { clAt m k with lent := none, reload := false }

/-- Set-up completes (R381). -/
def partSetupDone (p : Nat) (m : Mod) : Mod :=
  let ks := clustersOfPart m p
  if partState m p ≠ 1 ∨ !ks.all (clRolling m) then m else
  let m := clearSync (ks.foldl setupCluster m) p
  setPartState ((List.range 12).foldl (fun m i => wrN m (rPstall p i) 0) m) p 2

/-- The reels and streams of a partition are aborted (R382). -/
def abortPart (m : Mod) (p : Nat) : Mod :=
  let m := (List.range 16).foldl (fun m r => if fld m (rRlCtl r) 7 4 = p then reelAbort m r else m) m
  (List.range 64).foldl (fun m i => if csPart m i = p then csAbort m i else m) m

/-- Steps 1 to 3 of R382: cores stopped, channels disabled, reels, streams, storyboard, Dailies stream and group let go. The
halt code of such a stop is not stated: 0 (log 29). -/
def partHalt (m : Mod) (p : Nat) : Mod :=
  let ks := clustersOfPart m p
  let m := (ks.flatMap coresOf).foldl (stopCore 0) m
  let m := ks.foldl (fun m k => (List.range 16).foldl (fun m ch => chDisable m k ch) m) m
  let m := abortPart m p
  let m := if sbState m p = 1 then sbStop m p else m
  let m := if fld m (rStrCtl p) 0 0 = 1 then strDisable (setFld m (rStrCtl p) 0 0 0) p else m
  if grpState m p = 0 then m else grpLeave m p

/-- The release command (R382). -/
def partRelease (m : Mod) (p : Nat) : Mod :=
  if partState m p ≠ 2 then partIgnored m p
  else if fld m (rPartStat p) 12 0 ≠ 0 then setBit m (rPartErr p) 2
  else partHalt (setPartState m p 3) p

/-- Release finishes: the cores are Halted and the channels Off; granules are unpinned with write-back, the bays are given
up, and the free clusters go to their free rung (R382, R418). -/
def partReleaseDone (p : Nat) (m : Mod) : Mod :=
  let ks := clustersOfPart m p
  let done := ks.all (fun k => (coresOf k).all (fun c => decide ((coreAt m c).state = .halted ∨ (coreAt m c).state = .faulted))
    && (List.range 16).all (fun ch => chState m k ch == 0))
  if partState m p ≠ 3 ∨ !done then m else
  let m := unpinClusters m ks
  let m := setPartState (wrN m (rPartBays p) 0) p 0
  ks.foldl (fun m k => clRequest m k (freeRung m (k / 625))) m

/-- A write of PART_CMD (Table 14.11). -/
def partCommand (m : Mod) (p cmd : Nat) : Mod :=
  match cmd with
  | 0 => m
  | 1 => partSetup m p
  | 2 => partRelease m p
  | _ => partIgnored m p

/-- A write of PART_OWNER (R383). -/
def partOwner (m : Mod) (p x : Nat) : Mod :=
  if fld m (rPartOwner p) 11 0 = x then m
  else if (coresOfPart m p).any (fun c => decide ((coreAt m c).state = .running ∨ (coreAt m c).state = .waiting)) then partIgnored m p
  else setFld (clearSync m p) (rPartOwner p) 11 0 x

/-! ## Granules (R384) -/

/-- The ownership entry of a granule. -/
def rGranule (far : Bool) (g : Nat) : Nat := if far then rFarOwn g else rHbmOwn g

/-- An owner code: 12 to 15 are none (R406). -/
def ownerOf (o : Nat) : Option Nat := if o < 12 then some o else none

/-- A write of an ownership entry: a busy one is ignored, and the cmd_ignored bit is that of the granule's owner, or of the
owner written (log 29); a change of owner sets busy. The granules of a C-die that was not released stay unowned (R483). -/
def granuleWrite (m : Mod) (far : Bool) (g o : Nat) : Mod :=
  let r := rGranule far g
  let old := fld m r 3 0
  if !far && m.boot.dead.contains (g / 96) then m
  else if fld m r 7 7 = 1 then
    match ownerOf old, ownerOf o with
    | some p, _ => partIgnored m p
    | none, some p => partIgnored m p
    | none, none => m
  else
    let m' := setFld m r 3 0 o
    if ownerOf old = ownerOf o then m' else setFld m' r 7 7 1

/-- The first module address of a granule. -/
def granuleBase (far : Bool) (g : Nat) : Nat := (if far then farBase else 0) + 2 ^ 30 * g

/-- A range of module memory is zero, and no word of it holds an error. -/
def zeroRange (m : Mod) (lo n : Nat) : Mod := eccClear { m with mem := sclear m.mem lo n } 2 lo n

/-- Zeroing ends: every byte of the granule is zero, wherever its pinned parts and the pages of its far offsets are held, and busy
clears. Far offsets beyond the range that the configuration gives have no memory (R237, R238). -/
def granuleZeroed (far : Bool) (g : Nat) (m : Mod) : Mod :=
  let r := rGranule far g
  if fld m r 7 7 = 0 then m else
  let m :=
    if far then
      let mine (key : Nat) : Bool := (farOff m key).any (fun f => f / 2 ^ 30 == g)
      { m with mem := m.mem.filter (fun e => !mine e.1), ecc := m.ecc.filter (fun e => !(e.1 % 4 == 2 && mine (e.1 / 4))) }
    else zeroRange m (2 ^ 30 * g) (2 ^ 30)
  let pinned := m.pins.filter (fun e => !far && e.1 * 2048 / 2 ^ 30 == g)
  let m := pinned.foldl (fun m e => match e.2 with
    | some p => zeroRange (markWritten m (2048 * e.1)) (slotKey m p.cluster p.slot) 2048
    | none => m) m
  setFld m r 7 7 0

/-! ## Contexts (R387 to R389, R392) -/

/-- The partition a function's context commands act for: CTX_NEW_PART is the PF's. -/
def fnPart (m : Mod) : Fn → Nat
  | .pf => fld m rCtxNewPart 3 0
  | .vf p => p.val

/-- CTX_RES: done, with a status and a busy source. -/
def ctxResult (m : Mod) (f status src : Nat) : Mod :=
  setFn m f { fnAt m f with ctxRes := BitVec.ofNat 32 (2 ^ 31 + src * 2 ^ 16 + status) }

/-- Create (R387). -/
def ctxCreate (m : Mod) (fn : Fn) : Mod :=
  let f := fnKey fn
  let p := fnPart m fn
  let held := fld m (rPartStat p) 12 0
  let most := fld m (rPartCtl p) 27 16
  if 12 ≤ p ∨ partState m p ≠ 2 then ctxResult m f 5 0
  else if (if most = 0 then 4096 else most) ≤ held then ctxResult m f 2 0
  else match (List.range 4096).find? (fun x => !(ctxAt m x).active) with
    | none => ctxResult m f 1 0
    | some x =>
      if h : p < 12 then
        let m := setCtx m x { CtxSt.reset with active := true, part := ⟨p, h⟩ }
        let m := setFld m (rPartStat p) 12 0 (held + 1)
        ctxResult (setFn m f { fnAt m f with ctxSel := BitVec.ofNat 32 x }) f 0 0
      else m

/-- The channels that are not Off, of every cluster of the module. -/
def chansOn (m : Mod) : List (Nat × Nat) :=
  m.regs.filterMap (fun e =>
    let o := e.1 % 0x400
    let k := 625 * ((e.1 - 0x01000000) / 0x100000) + e.1 % 0x100000 / 0x400
    if 0x01000000 ≤ e.1 ∧ e.1 < 0x01800000 ∧ e.1 % 0x100000 < 625 * 0x400 ∧ o < 0x300 ∧ o % 0x30 = 8 ∧ chState m k (o / 0x30) ≠ 0
    then some (k, o / 0x30) else none)

/-- The first user of a context in the order of Table 14.2, 0 for none. -/
def ctxUser (m : Mod) (x : Nat) : Nat :=
  let p := (ctxAt m x).part.val
  let core (e : Nat × CoreSt) : Bool := decide (e.2.state ≠ .halted) && e.2.lastCtx.any (fun y => y.val == x)
  let parts := List.range 12
  if m.cores.any core then 1
  else if (chansOn m).any (fun e => chCtx m e.1 e.2 == x) then 2
  else if (List.range 16).any (fun r => fld m (rRlCtl r) 0 0 == 1 && reelCtx m r == x) then 3
  else if (List.range 64).any (fun i => fld m (rCsCtl i) 0 0 == 1 && csCtx m i == x) then 4
  else if parts.any (fun e => fld m (rSbCtl e) 0 0 == 1 && sbCtx m e == x) then 5
  else if parts.any (fun e => fld m (rStrCtl e) 0 0 == 1 && strCtx m e == x) then 6
  else if parts.any (fun e => (prPhase m e != 0 && prCtx m e == x)
      || (List.range 4).any (fun k => fld m (rPrFill e k) 12 12 == 1 && fld m (rPrFill e k) 11 0 == x)) then 7
  else if fld m (rPartOwner p) 11 0 = x then 8 else 0

/-- The eight words of the command in a place of a context's queue. -/
def sqWords (m : Mod) (x i : Nat) : List W64 :=
  words8 (memRead m (hostBase + bits (ctxAt m x).sq.reg 63 12 * 4096 + 64 * i) 64)

/-- Commands from head to tail. -/
def sqWaiting (m : Mod) (x : Nat) : List (List W64) :=
  let q := (ctxAt m x).sq
  let n := ringSize q
  (List.range ((q.tail + n - q.head) % n)).map (fun i => sqWords m x ((q.head + i) % n))

/-- A command completes as ABORTED if the ring can take it; nothing is written later (R389). -/
def abortCmd (x : Nat) (m : Mod) (ws : List W64) : Mod :=
  let w := ws.headD 0
  if ringSpace (ctxAt m x).cq then cplPut m x (cplEntry (bits w 7 0) 6 (bits w 63 32) 0 0 m.hclk) else m

/-- A context is destroyed: its commands complete as ABORTED, and its number is Free. -/
def ctxFree (m : Mod) (x : Nat) : Mod :=
  let c := ctxAt m x
  if !c.active then m else
  let p := c.part.val
  let m := (c.cmds.map (·.words) ++ sqWaiting m x).foldl (abortCmd x) m
  let m := (List.range 8).foldl (fun m i => match moverAt m i with
    | some ⟨.command y _, _, _, _, _, _, _⟩ => if y = x then setMover m i none else m
    | _ => m) m
  let m := setFld m (rPartStat p) 12 0 (fld m (rPartStat p) 12 0 - 1)
  setCtx { m with evWait := m.evWait.filter (fun w => w.ctx != some x) } x CtxSt.reset

/-- The context CTX_SEL selects. -/
def ctxSel (m : Mod) (f : Nat) : Nat := bits (fnAt m f).ctxSel 11 0

/-- A VF names a context of another partition. -/
def ctxForeign (m : Mod) (fn : Fn) (x : Nat) : Bool :=
  match fn with
  | .pf => false
  | .vf p => (ctxAt m x).active && (ctxAt m x).part != p

/-- Destroy (R389). -/
def ctxDestroy (m : Mod) (fn : Fn) : Mod :=
  let f := fnKey fn
  let x := ctxSel m f
  if ctxForeign m fn x then ctxResult m f 5 0
  else if !(ctxAt m x).active then ctxResult m f 4 0
  else match ctxUser m x with
    | 0 => ctxResult (ctxFree m x) f 0 0
    | u => ctxResult m f 3 u

/-- Invalidate (R392): done follows when every request translated by an old entry has completed. -/
def ctxInvalidate (m : Mod) (fn : Fn) : Mod :=
  let f := fnKey fn
  let x := ctxSel m f
  if ctxForeign m fn x then ctxResult m f 5 0
  else if !(ctxAt m x).active then ctxResult m f 4 0
  else setFn m f { fnAt m f with ctxRes := 0, invalidating := some x }

/-- The invalidation completes. -/
def ctxInvalidated (fn : Fn) (m : Mod) : Mod :=
  let f := fnKey fn
  match (fnAt m f).invalidating with
  | none => m
  | some _ => ctxResult (setFn m f { fnAt m f with invalidating := none }) f 0 0

/-- A write of CTX_CMD. -/
def ctxCommand (m : Mod) (fn : Fn) (cmd : Nat) : Mod :=
  match cmd with
  | 1 => ctxCreate m fn
  | 2 => ctxDestroy m fn
  | 3 => ctxInvalidate m fn
  | _ => m

/-! ## Rings and doorbells (R395, R396, R400 to R402) -/

/-- The rsvd bits of a ring register are 0; log2 of its size is from 4 to 16. -/
def ringReg (v : W64) : W64 := put v 11 5 0
def ringLogOk (v : W64) : Bool := decide (4 ≤ bits v 4 0) && decide (bits v 4 0 ≤ 16)

/-- A write of CTX_SQ, CTX_CQ or CTX_EQ (R395, Table 14.12). -/
def ctxRingWrite (m : Mod) (x : Nat) (which : RingReg) (v : W64) : Mod :=
  let c := ctxAt m x
  if !c.active then m
  else if c.sq.head ≠ c.sq.tail then setCtx m x { c with err := put c.err 2 2 1 }
  else if !ringLogOk v then setCtx m x { c with err := put c.err 0 0 1 }
  else
    let r : Ring := ⟨ringReg v, 0, 0, true⟩
    match which with
    | .sq => setCtx m x { c with sq := r }
    | .cq => flushCpl x c.waitingCpl.length (setCtx m x { c with cq := r })
    | .eq => flushWait (some x) m.evWait.length (setCtx m x { c with eq := r })
    | .modEq => m


/-- A write of MOD_EQ (R395); one whose log2 is out of range is refused. -/
def modEqWrite (m : Mod) (v : W64) : Mod :=
  if !ringLogOk v then m
  else alarmCopy m.alarmWait.length (flushWait none m.evWait.length { m with modEq := ⟨ringReg v, 0, 0, true⟩ })

/-- A write of MOD_EQ_HEAD frees ring space; a head that leaves unread entries sends the vector again (R402), which the spec
does not state for the PF's ring (log 14). The register takes every value (R10). -/
def modEqHead (m : Mod) (h : Nat) : Mod :=
  let m := { m with modEq := { m.modEq with head := h } }
  let m := if h ≠ m.modEq.tail then let (v, m) := drawFree m; sendMsix m 0 (bits v 7 0) else m
  alarmCopy m.alarmWait.length (flushWait none m.evWait.length m)

/-- In standby, or on the way in or out, the access is a wake of the module (R421) and waits: it is presented again when
standby has ended (log 29). -/
def awake (f : Mod → Mod) (m : Mod) : Mod := if modState m = 0 then f m else modWake m

/-- A function answers: the module is Ready (R479), and the function is the PF or a VF that is enabled. -/
def fnThere (m : Mod) (fn : Fn) : Bool :=
  fld m rBootStat 31 28 == 2 && (match fn with | .pf => true | .vf _ => (fnAt m (fnKey fn)).enabled)

/-- The page of a context is a function's to write. -/
def dbReach (m : Mod) (fn : Fn) (x : Nat) : Bool :=
  (ctxAt m x).active && (match fn with | .pf => true | .vf p => (ctxAt m x).part == p)

/-- A bad doorbell write (R396). -/
def dbBad (m : Mod) (fn : Fn) (x off val : Nat) : Mod := audit (setBit m rModErr 4) (fnKey fn) (4096 * x + off) val 2 1

/-- A doorbell write: refused for a page that is not the writer's and for an index at or beyond the ring's size. -/
def doorbell (fn : Fn) (x off val : Nat) (ring : CtxSt → Ring) (act : Mod → Mod) (m : Mod) : Mod :=
  if !fnThere m fn then m else
  awake (fun m =>
    if !dbReach m fn x then dbBad m fn x off val
    else if ringSize (ring (ctxAt m x)) ≤ val then
      let c := ctxAt m x
      dbBad (setCtx m x { c with err := put c.err 1 1 1 }) fn x off val
    else act m) m

/-- DB_SQ_TAIL. -/
def dbSqTail (fn : Fn) (x val : Nat) : Mod → Mod :=
  doorbell fn x 0 val (·.sq) (fun m => let c := ctxAt m x; setCtx m x { c with sq := { c.sq with tail := val } })

/-- DB_CQ_HEAD: frees space, sends the vector again if entries stay unread, and lets waiting completions be written. -/
def dbCqHead (fn : Fn) (x val : Nat) : Mod → Mod :=
  doorbell fn x 8 val (·.cq) (fun m =>
    let c := ctxAt m x
    let m := setCtx m x { c with cq := { c.cq with head := val } }
    let m := if val ≠ c.cq.tail then sendMsix m (fnOfPart m c.part.val) (bits c.vec 7 0) else m
    flushCpl x c.waitingCpl.length m)

/-- DB_EQ_HEAD: as DB_CQ_HEAD for the event ring. -/
def dbEqHead (fn : Fn) (x val : Nat) : Mod → Mod :=
  doorbell fn x 16 val (·.eq) (fun m =>
    let c := ctxAt m x
    let m := setCtx m x { c with eq := { c.eq with head := val } }
    let m := if val ≠ c.eq.tail then sendMsix m (fnOfPart m c.part.val) (bits c.vec 15 8) else m
    flushWait (some x) m.evWait.length m)

/-! ## Commands (R397 to R399) -/

/-- The command at the head of a queue, if one may begin: its completion can be written (R400), and a fence finds no earlier
command (R397). -/
def sqHead (m : Mod) (x : Nat) : Option (List W64) :=
  let c := ctxAt m x
  if c.active && decide (ringSize c.sq ≠ 0) && c.sq.head != c.sq.tail && c.waitingCpl.isEmpty && ringSpace c.cq then
    let ws := sqWords m x c.sq.head
    if bit (ws.headD 0) 8 && !c.cmds.isEmpty then none else some ws
  else none

/-- The head moves past a command that has begun. -/
def sqNext (m : Mod) (x : Nat) : Mod :=
  let c := ctxAt m x
  setCtx m x { c with sq := { c.sq with head := (c.sq.head + 1) % ringSize c.sq } }

/-- A command as the queue holds it while it is in progress. -/
def ctxCmd (ws : List W64) (cores : List Nat) : CtxCmd := ⟨ws, cores, 0, 0, 0, 0, none⟩

/-- Fields of a command. -/
def cfld (ws : List W64) (i hi lo : Nat) : Nat := bits (ws.getD i 0) hi lo

/-- A command completes. -/
def ctxDone (m : Mod) (x : Nat) (ws : List W64) (status w1 w2 : Nat) : Mod := cmdDone m x (ctxCmd ws []) status w1 w2

/-- A command is in progress. -/
def ctxBegin (m : Mod) (x : Nat) (ws : List W64) (cores : List Nat) : Mod :=
  let c := ctxAt m x
  setCtx m x { c with cmds := c.cmds ++ [ctxCmd ws cores] }

/-- The words from `i` on are zero. -/
def restZero (ws : List W64) (i : Nat) : Bool := (ws.drop i).all (· == 0)

/-- A non-zero rsvd field, by opcode (Tables 14.6, 14.7), or an opcode of no command. -/
def cmdBad (ws : List W64) : Bool :=
  let op := cfld ws 0 7 0
  cfld ws 0 31 10 != 0 || (match op with
    | 0 => !restZero ws 1
    | 1 => cfld ws 1 63 51 != 0 || !restZero ws 2
    | 2 => cfld ws 1 63 40 != 0 || !restZero ws 2
    | 3 => cfld ws 1 63 32 != 0 || !restZero ws 2
    | 4 => cfld ws 3 63 32 != 0 || cfld ws 4 63 28 != 0 || !restZero ws 5
    | 5 => cfld ws 1 63 4 != 0 || !restZero ws 2
    | _ => true)

/-- The head command of a context's queue is one of a row: `run` answers whether it has begun. Unknown opcodes belong to the
NOP row. -/
def cmdRow (x op : Nat) (run : List W64 → Mod → Mod × Bool) (m : Mod) : Mod :=
  match sqHead m x with
  | none => m
  | some ws =>
    let o := cfld ws 0 7 0
    if (if 5 < o then 0 else o) ≠ op then m
    else if cmdBad ws then ctxDone (sqNext m x) x ws 3 0 0
    else match run ws m with
      | (m', true) => m'
      | (m', false) => m'

/-- NOP. -/
def cmdNop (x : Nat) : Mod → Mod := cmdRow x 0 (fun ws m => (ctxDone (sqNext m x) x ws 0 0 0, true))

/-- The clusters and cores START and STOP name (R399). -/
def cmdClusters (ws : List W64) : List Nat := natsFrom (625 * cfld ws 1 3 0 + cfld ws 1 13 4) (cfld ws 1 23 14)
def cmdCores (ws : List W64) : List Nat :=
  (cmdClusters ws).flatMap (fun k => (coresOf k).filter (fun c => (cfld ws 1 39 24).testBit (c % 16)))

/-- R399's checks of START and STOP: BAD, DENIED, or neither. -/
def cmdRange (m : Mod) (x : Nat) (ws : List W64) : Option Nat :=
  let n := cfld ws 1 23 14
  if 7 < cfld ws 1 3 0 ∨ n = 0 ∨ 625 < n ∨ 624 < cfld ws 1 13 4 + n - 1 then some 3
  else if !(cmdClusters ws).all (fun k => partHasBay m (ctxAt m x).part.val (bayOf k)) then some 2
  else none

/-- The enabled fillers of a partition, in order (R308). -/
def fillers (m : Mod) (p : Nat) : List Nat :=
  (List.range 4).filterMap (fun k => if fld m (rPrFill p k) 12 12 = 1 then some (fld m (rPrFill p k) 11 0) else none)

/-- A context's queue holds a START that names one of the clusters (R308). -/
def holdsStart (m : Mod) (y : Nat) (ks : List Nat) : Bool :=
  (ctxAt m y).active && (sqWaiting m y).any (fun ws =>
    cfld ws 0 7 0 == 1 && !cmdBad ws && (cmdRange m y ws).isNone && (cmdClusters ws).any ks.contains)

/-- A cluster is lent: all cores Halted, each last with a halt code whose bit 15 is 1 (R308). -/
def lendable (m : Mod) (k : Nat) : Bool :=
  (coresOf k).all (fun c => decide ((coreAt m c).state = .halted) && bit (coreAt m c).haltCode 15 && !(coreAt m c).scrubbing)

/-- The clusters of a START that are lent to another context, when the START is the take's (R310). -/
def toReclaim (m : Mod) (x : Nat) (ws : List W64) : List Nat :=
  if prCtx m (ctxAt m x).part.val = x then (cmdClusters ws).filter (fun k => (clAt m k).lent.any (fun y => y.val != x)) else []

/-- The filler commands that name a cluster complete as RECLAIMED, with the counts so far (R310, R400). -/
def reclaimCmds (m : Mod) (y k : Nat) : Mod :=
  let c := ctxAt m y
  let mine (q : CtxCmd) : Bool := cfld q.words 0 7 0 == 1 && (cmdClusters q.words).contains k
  let m := setCtx m y { c with cmds := c.cmds.filter (fun q => !mine q) }
  (c.cmds.filter mine).foldl (fun m q => cmdDone m y q 4
    (q.halted % 2 ^ 16 + q.faulted % 2 ^ 16 * 2 ^ 16 + q.haltOr.toNat * 2 ^ 32 + q.haltAnd.toNat * 2 ^ 48) 0) m

/-- A channel is Idle and holds no descriptor. -/
def chEmpty (m : Mod) (k ch : Nat) : Bool :=
  chState m k ch == 1 && (chanAt m k ch).active.isNone && (chanAt m k ch).queue.isEmpty

/-- Steps 1 and 2 of R310 for a cluster: its cores stop, keeping the halt code they last halted with (log 29), and channels 14
and 15 stop. -/
def reclaimStart (m : Mod) (k : Nat) : Mod :=
  let m := match (clAt m k).lent with | some y => reclaimCmds m y.val k | none => m
  let m := (coresOf k).foldl (fun m c => stopCore (coreAt m c).haltCode m c) (wake m k)
  [14, 15].foldl (fun m ch => if [0, 5, 6].contains (chState m k ch) || chEmpty m k ch then m else chStop m k ch) m

/-- A reclaimed cluster's cores have stopped, and so have its channels 14 and 15. -/
def reclaimed (m : Mod) (k : Nat) : Bool :=
  (coresOf k).all (fun c => decide ((coreAt m c).state = .halted ∨ (coreAt m c).state = .faulted) && !(coreAt m c).scrubbing)
    && [14, 15].all (fun ch => chState m k ch == 0 || chEmpty m k ch)

/-- A core that START names: scrubbed first if it last ran another context (R80, R399); the scrub's end starts it. -/
def startOne (x w : Nat) (m : Mod) (c : Nat) : Mod :=
  let y := coreAt m c
  if y.scrubbing || y.lastCtx.any (fun z => z.val != x) then
    setCore m c { y with state := .halted, scrubbing := true, wait := none, reported := false }
  else startCore m x w c

/-- A reclaimed cluster is the take's again, and the cores that ran the filler are scrubbed (R310). Their non-finite flags, which the
scrub clears, are no longer seen (R311). -/
def reclaimEnd (m : Mod) (k : Nat) : Mod :=
  let m := setCl m k { clAt m k with lent := none }
  (coresOf k).foldl (fun m c => setCore m c { coreAt m c with
    scrubbing := (coreAt m c).lastCtx.isSome, nonfinite := (coreAt m c).nonfinite && (coreAt m c).lastCtx.isNone }) m

/-- The start of every named core, in one cycle (R399). -/
def startAll (m : Mod) (x : Nat) (ws : List W64) : Mod :=
  let cs := cmdCores ws
  let m := (cmdClusters ws).foldl wake (ctxBegin (sqNext m x) x ws cs)
  let m := cs.foldl (startOne x (cfld ws 1 50 40)) m
  if cs.isEmpty then
    let c := ctxAt m x
    coresDone (setCtx m x { c with cmds := c.cmds.dropLast }) x (ctxCmd ws [])
  else m

/-- A START wakes its clusters, and its cores in a cluster at Dark wait for its return (R411, R412, R419). -/
def startWake (m : Mod) (ks cs : List Nat) : Mod :=
  let m := (cs.filter (fun c => inDark m (clusterOf c))).foldl (fun m c => setCore m c { coreAt m c with waking := true }) m
  ks.foldl wake m

/-- START (R399, R308, R310). It waits, without beginning, for a fault that is not reported yet (R79), for a cluster at Dark to reach
Rolling, for a scrub, for the clusters of a filler to be lent, and for a reclaim, each presentation of the row counting one cycle of
the reclaim (log 29). A cluster that is lent goes to the enabled filler of lowest number that holds a START for it. -/
def startCmd (x : Nat) (ws : List W64) (m : Mod) : Mod × Bool :=
  let p := (ctxAt m x).part.val
  match cmdRange m x ws with
  | some st => (ctxDone (sqNext m x) x ws st 0 0, true)
  | none =>
    let ks := cmdClusters ws
    let cs := cmdCores ws
    let re := toReclaim m x ws
    let busy (c : Nat) : Bool :=
      !re.contains (clusterOf c) &&
        (decide ((coreAt m c).state = .running ∨ (coreAt m c).state = .waiting)
          || ((coreAt m c).scrubbing && (ctxAt m x).cmds.any (fun q => q.cores.contains c)))
    if cs.any busy then (ctxDone (sqNext m x) x ws 1 0 0, true)
    else if !re.isEmpty then
      let fresh := re.filter (fun k => !reclaimed m k)
      let m := fresh.foldl reclaimStart m
      let m := satReg m (rPrFillReclaim p) 48 1
      if fresh.isEmpty then (re.foldl (fun m k => reclaimEnd (match (clAt m k).lent with
          | some y => reclaimCmds m y.val k | none => m) k) m, false)
      else (m, false)
    else if cs.any (fun c => decide ((coreAt m c).state = .faulted) && !(coreAt m c).reported && !(coreAt m c).scrubbing)
        || ks.any (inDark m) then (startWake m ks cs, false)
    else if (fillers m p).contains x && prCtx m p != x then
      let free := ks.all (fun k => lendable m k || (clAt m k).lent.any (fun y => y.val == x))
      let first := ((fillers m p).takeWhile (· != x)).all (fun y => !holdsStart m y ks)
      if free && first then
        let m := ks.foldl (fun m k => setCl m k { clAt m k with lent := if h : x < 4096 then some ⟨x, h⟩ else none }) m
        (startAll m x ws, true)
      else (m, false)
    else (startAll m x ws, true)

/-- The CMD_START row. -/
def cmdStart (x : Nat) : Mod → Mod := cmdRow x 1 (startCmd x)

/-- A core scrub of 1,024 cycles ends (R80): the START that waits for it starts the core. -/
def scrubDone (c : Nat) (m : Mod) : Mod :=
  let y := coreAt m c
  if !y.scrubbing || !clRolling m (clusterOf c) then m else
  let m := scrubCore m c
  match m.ctxs.findSome? (fun e => (e.2.cmds.find? (fun q => cfld q.words 0 7 0 == 1 && q.cores.contains c)).map (fun q => (e.1, q))) with
  | some (x, q) => startCore m x (cfld q.words 1 50 40) c
  | none => m

/-- STOP (R399). -/
def stopCmd (x : Nat) (ws : List W64) (m : Mod) : Mod × Bool :=
  match cmdRange m x ws with
  | some st => (ctxDone (sqNext m x) x ws st 0 0, true)
  | none =>
    let cs := cmdCores ws
    if cs.any (fun c => (coreAt m c).scrubbing) then (m, false) else
    let run := cs.filter (fun c => decide ((coreAt m c).state = .running ∨ (coreAt m c).state = .waiting))
    let m := run.foldl (stopCore 0x3FFF) (sqNext m x)
    if run.isEmpty then (ctxDone m x ws 0 0 0, true) else (ctxBegin m x ws run, true)

/-- The CMD_STOP row. -/
def cmdStop (x : Nat) : Mod → Mod := cmdRow x 2 (stopCmd x)

/-- HEVENT: partition events 48 to 63 under a mask (R127, R399). -/
def heventCmd (x : Nat) (ws : List W64) (m : Mod) : Mod × Bool :=
  let key := 5000 + (ctxAt m x).part.val
  let m := (List.range 16).foldl (fun m i =>
    if (cfld ws 1 15 0).testBit i then
      (if (cfld ws 1 31 16).testBit i then setFlag m key (48 + i) else putFlag m key (48 + i) false) else m) (sqNext m x)
  (ctxDone m x ws 0 0 0, true)

/-- The CMD_HEVENT row. -/
def cmdHevent (x : Nat) : Mod → Mod := cmdRow x 3 (heventCmd x)

/-- A COPY is remote. -/
def copyRemote (ws : List W64) : Bool := cfld ws 4 0 0 == 1

/-- COPY: BAD by R399, or a job for the free mover of lowest number; it waits while none is free. -/
def copyCmd (x : Nat) (ws : List W64) (m : Mod) : Mod × Bool :=
  let a := cfld ws 1 63 0
  let b := cfld ws 2 63 0
  let n := cfld ws 3 31 0
  if a % 64 ≠ 0 ∨ b % 64 ≠ 0 ∨ n % 64 ≠ 0 ∨ n = 0 ∨ 2 ^ 32 - 64 < n ∨ (!copyRemote ws ∧ a < b + n ∧ b < a + n) then
    (ctxDone (sqNext m x) x ws 3 0 0, true)
  else match moverStart m ⟨.command x ws, x, a, b, n, none, false⟩ with
    | none => (m, false)
    | some m => (ctxBegin (sqNext m x) x ws [], true)

/-- The CMD_COPY row. -/
def cmdCopy (x : Nat) : Mod → Mod := cmdRow x 4 (copyCmd x)

/-- PRINT: OK if the engine accepts the command, FAILED if it sets open_refused or cmd_ignored (R399). -/
def printCmd (x : Nat) (ws : List W64) (m : Mod) : Mod × Bool :=
  let p := (ctxAt m x).part.val
  let err := rd m (rPrErr p)
  let m := prCommand (wr (sqNext m x) (rPrErr p) (put err 1 0 0)) p (cfld ws 1 3 0)
  let bad := decide (fld m (rPrErr p) 1 0 ≠ 0)
  let m := wr m (rPrErr p) (rd m (rPrErr p) ||| err)
  (ctxDone m x ws (if bad then 7 else 0) 0 0, true)

/-- The CMD_PRINT row. -/
def cmdPrint (x : Nat) : Mod → Mod := cmdRow x 5 (printCmd x)

/-! ## Movers that complete (R255, R399) -/

/-- A COPY in progress leaves its queue and completes. -/
def copyEnd (m : Mod) (x : Nat) (ws : List W64) (status w2 : Nat) : Mod :=
  let c := ctxAt m x
  match c.cmds.find? (fun q => q.words == ws) with
  | some q => cmdDone (setCtx m x { c with cmds := c.cmds.erase q }) x q status 0 w2
  | none => m

/-- The messages of a remote COPY: type 0x30 on VC3, at most 64 KiB each; word 2 holds the destination address and word 3 the
context and whether the message is the last (log 20). -/
def copySend (x dst ctx module p : Nat) : Nat → Nat → List Byte → Mod → Mod
  | 0, _, _, m => m
  | fuel + 1, off, bs, m =>
    let part := bs.take 65536
    let rest := bs.drop 65536
    let m := sendTo m module 3 0x30 p (grpId m p) 0 (off / 64)
      [BitVec.ofNat 64 (dst + off), BitVec.ofNat 64 (ctx + x * 2 ^ 16 + b2n rest.isEmpty * 2 ^ 32)] part
    if rest.isEmpty then m else copySend x dst ctx module p fuel (off + 65536) rest m

/-- The page fault of a mover's job; a remote COPY translates its source only. -/
def moverFault (m : Mod) (j : MoverJob) : Option (Nat × Nat) :=
  match j.owner with
  | .command _ ws => if copyRemote ws then rangeFault m j.ctx j.src j.len false else jobFault m j
  | _ => jobFault m j

/-- A mover's job for a storyboard entry or a COPY copies its lines and reads back (R255): requests refused with retry status wait
to be issued again while the others go on. A remote COPY reads all its lines before they leave. The print engines' copies have
rows of their own. -/
def moverComplete (i : Nat) (m : Mod) : Mod :=
  match moverAt m i with
  | none => m
  | some j =>
    if j.refused || (moverFault m j).isSome then m
    else match j.owner with
      | .entry e run index => let (m, fin) := moverStep m i j; if fin then sbMoved m e run index else m
      | .command x ws =>
        if copyRemote ws then
          if rangeBusy m j.ctx j.src j.len false then
            rangeWake (setMover m i (some { j with refused := true })) j.ctx j.src j.len false
          else
            let bs := vaBytes m j.ctx j.src j.len
            let m := eccRead m j.ctx j.src j.len none
            satReg (copySend x j.dst (cfld ws 4 27 16) (cfld ws 4 15 1) (ctxAt m x).part.val (j.len / 65536 + 1) 0 bs (setMover m i none))
              rMoveBytes 48 j.len
        else let (m, fin) := moverStep m i j; if fin then copyEnd m x ws 0 0 else m
      | _ => m

/-- A mover's translation reports a page fault (R258, R399): lines below the faulting one may have been copied, how many is a free
value; those copied count. -/
def moverPageFault (i : Nat) (m : Mod) : Mod :=
  match moverAt m i with
  | none => m
  | some j => match moverFault m j with
    | none => m
    | some (va, kind) =>
      let (v, m) := drawFree (setMover m i none)
      let below := (if j.src ≤ va ∧ va < j.src + j.len then va - j.src else va - j.dst) / 64
      let ls := ((moverTodo j).filter (fun l => decide (l < below))).take (v.toNat % (below + 1))
      match j.owner with
      | .entry e run index => sbMoveFault (moverLines m j ls) e run index va
      | .command x ws => copyEnd (if copyRemote ws then m else moverLines m j ls) x ws 7 (va % 2 ^ 57 + kind * 2 ^ 57)
      | _ => setMover m i (some j)

/-- The oldest remote COPY of a context whose data have left. -/
def remoteCopy (m : Mod) (x : Nat) : Option CtxCmd :=
  (ctxAt m x).cmds.find? (fun q => cfld q.words 0 7 0 == 4 && copyRemote q.words
    && (List.range 8).all (fun i => match moverAt m i with | some j => j.owner != .command x q.words | none => true))

/-- The destination's acknowledgement of a remote COPY (R399). -/
def copyAck (x : Nat) (fault : Option VaKind) (m : Mod) : Mod :=
  match remoteCopy m x with
  | none => m
  | some q => match fault with
    | none => copyEnd m x q.words 0 0
    | some f => copyEnd m x q.words 7 (f.va.toNat + f.kind.toNat * 2 ^ 57)

/-- A remote COPY is not acknowledged within ZW_GRP_TMO. -/
def copyTimeout (x : Nat) (m : Mod) : Mod :=
  match remoteCopy m x with
  | none => m
  | some q => copyEnd m x q.words 7 0

/-- Remote COPY data arrives (R399): the context must belong to a partition of the same group id, or the message is dropped with
cause 4; the destination is translated in it, and the acknowledgement (type 0x23, log 20) reports a page fault. A write that is
refused with retry status or waits is made when the message is presented again (R384, log 29). -/
def copyArrive (q src gid dst ctx : Nat) (data : List Byte) (m : Mod) : Mod :=
  let c := ctxAt m ctx
  if !c.active ∨ grpId m c.part.val ≠ gid then dropMsg m 4 q (headWord0 m (myCoord m) 3 0x30 ((data.length + 63) / 64) c.part.val)
  else
    if rangeBusy m ctx dst data.length true then rangeWake m ctx dst data.length true else
    let ack (w : Nat) (m : Mod) : Mod := sendTo m src 0 0x23 c.part.val gid 0 0 [BitVec.ofNat 64 w] []
    match vaWrite m ctx dst data with
    | .ok m => ack 0 m
    | .error (va, kind) => ack (va % 2 ^ 57 + kind * 2 ^ 57) m

/-! ## BAR4 (R394) -/

/-- log2 of the size of a function's BAR4 (Table 14.4). -/
def bar4Log (m : Mod) (fn : Fn) : Nat := (fnAt m (fnKey fn)).bar4.getD (match fn with | .pf => 40 | .vf _ => 36)

/-- An access lies in a function's BAR4; no other reaches the module (R393). -/
def inBar4 (m : Mod) (fn : Fn) (off len : Nat) : Bool := decide (off + len ≤ 2 ^ bar4Log m fn)

/-- The HBM address of a BAR4 access, or none where it is denied. -/
def bar4Addr (m : Mod) (fn : Fn) (off len : Nat) : Option Nat :=
  let a := match fn with | .pf => off | .vf p => (rd m (rPartBar4 p.val)).toNat + off
  if hbmTop < a + len ∨ m.boot.dead.contains (a / 0x1800000000) ∨ m.boot.dead.contains ((a + len - 1) / 0x1800000000) then none
  else match fn with
    | .pf => some a
    | .vf p =>
      if (natsFrom (a / 2 ^ 30) ((a + len - 1) / 2 ^ 30 - a / 2 ^ 30 + 1)).all
          (fun g => hbmOwner m g == some p.val && fld m (rHbmOwn g) 7 7 == 0) then some a else none

/-- A denied BAR4 access: counted for a VF in PART_DENY and for the PF in MOD_ERR.deny, and audited (R394). -/
def bar4Deny (m : Mod) (fn : Fn) (off value : Nat) : Mod :=
  let m := match fn with
    | .pf => setBit m rModErr 3
    | .vf p => satReg (setBit m (rPartErr p.val) 3) (rPartDeny p.val) 32 1
  audit m (fnKey fn) off value 1 2

/-- An HBM access of BAR4 is refused with retry status or waits for a pinned line's cluster, whose wake it is (R384, R412): it is
presented again (log 29). -/
def bar4Held (m : Mod) (a len : Nat) : Bool := (rangeLines a len).any (fun l => meetHeld (memMeet m 5000 l))
def bar4Wake (m : Mod) (a len : Nat) : Mod :=
  (rangeLines a len).foldl (fun m l =>
    if memMeet m 5000 l = .wait then (match clusterOfNear (memKey m l) with | some k => wake m k | none => m) else m) m

/-- A BAR4 read; uncorrectable data make it a poisoned completion, and the error is contained (Table 16.3, R437). -/
def bar4Read (fn : Fn) (off len : Nat) (m : Mod) : Mod :=
  if !fnThere m fn || !inBar4 m fn off len then m else
  awake (fun m =>
    let f := fnKey fn
    match bar4Addr m fn off len with
    | none => let m := bar4Deny m fn off 0; setFn m f { fnAt m f with readData := List.replicate len 0xFF, poisoned := false }
    | some a =>
      if bar4Held m a len then bar4Wake m a len
      else
        let bad := memBad m a len
        let m := setFn m f { fnAt m f with readData := memRead m a len, poisoned := bad }
        if !bad then m
        else match hbmOwner m (a / 2 ^ 30) with
          | some p => contained m p (a / 0x1800000000) none 0 0 a false
          | none => m) m

/-- A BAR4 write. -/
def bar4Write (fn : Fn) (off : Nat) (data : List Byte) (m : Mod) : Mod :=
  if !fnThere m fn || !inBar4 m fn off data.length then m else
  awake (fun m =>
    match bar4Addr m fn off data.length with
    | none => bar4Deny m fn off (leNat (data.take 8))
    | some a => if bar4Held m a data.length then bar4Wake m a data.length else memWrite m a data) m

/-! ## Function Level Reset of a VF (R395) -/

/-- Steps of R395; a change of owner clears the clapper and event state (R383). -/
def vfFlr (p : Nat) (m : Mod) : Mod :=
  if !(fnAt m (p + 1)).enabled then m else
  let m := partHalt m p
  let m := (m.ctxs.filter (fun e => e.2.active && e.2.part.val == p)).foldl (fun m e => ctxFree m e.1) m
  let m := if fld m (rPartOwner p) 11 0 = 0 then m else setFld (clearSync m p) (rPartOwner p) 11 0 0
  setFn m (p + 1) { FnSt.reset with enabled := (fnAt m (p + 1)).enabled }

/-! ## The rows -/

/-- A halting core enters Halted (R134). -/
def execCoreHalted (c : Core) (s : State) : Host.Outcome State Fault Refusal := .next (s.onMod (coreHalted c.val))

/-- A core scrub completes (R80). -/
def execCoreScrubDone (c : Core) (s : State) : Host.Outcome State Fault Refusal := .next (s.onMod (scrubDone c.val))

/-- Set-up completes (R381). -/
def execPartSetupDone (p : Part) (s : State) : Host.Outcome State Fault Refusal := .next (s.onMod (partSetupDone p.val))

/-- Release finishes (R382). -/
def execPartReleaseDone (p : Part) (s : State) : Host.Outcome State Fault Refusal := .next (s.onMod (partReleaseDone p.val))

/-- Zeroing of a granule ends (R384). -/
def execGranuleZeroDone (far : Bool) (g : Fin 4096) (s : State) : Host.Outcome State Fault Refusal :=
  .next (s.onMod (granuleZeroed far g.val))

/-- An invalidation completes (R392). -/
def execCtxInvalidateDone (fn : Fn) (s : State) : Host.Outcome State Fault Refusal := .next (s.onMod (ctxInvalidated fn))

/-- The submission doorbell (R396). -/
def execDbSqTail (fn : Fn) (x : Ctx) (val : W32) (s : State) : Host.Outcome State Fault Refusal :=
  .next (s.onMod (dbSqTail fn x.val val.toNat))

/-- The completion doorbell (R400). -/
def execDbCqHead (fn : Fn) (x : Ctx) (val : W32) (s : State) : Host.Outcome State Fault Refusal :=
  .next (s.onMod (dbCqHead fn x.val val.toNat))

/-- The event doorbell (R401). -/
def execDbEqHead (fn : Fn) (x : Ctx) (val : W32) (s : State) : Host.Outcome State Fault Refusal :=
  .next (s.onMod (dbEqHead fn x.val val.toNat))

/-- NOP (R398), and every unknown opcode, which is BAD. -/
def execCmdNop (x : Ctx) (s : State) : Host.Outcome State Fault Refusal := .next (s.onMod (cmdNop x.val))

/-- START (R399). -/
def execCmdStart (x : Ctx) (s : State) : Host.Outcome State Fault Refusal := .next (s.onMod (cmdStart x.val))

/-- STOP (R399). -/
def execCmdStop (x : Ctx) (s : State) : Host.Outcome State Fault Refusal := .next (s.onMod (cmdStop x.val))

/-- HEVENT (R399). -/
def execCmdHevent (x : Ctx) (s : State) : Host.Outcome State Fault Refusal := .next (s.onMod (cmdHevent x.val))

/-- COPY (R399). -/
def execCmdCopy (x : Ctx) (s : State) : Host.Outcome State Fault Refusal := .next (s.onMod (cmdCopy x.val))

/-- PRINT (R399). -/
def execCmdPrint (x : Ctx) (s : State) : Host.Outcome State Fault Refusal := .next (s.onMod (cmdPrint x.val))

/-- A mover's read-backs return (R255). -/
def execMoverComplete (m : Fin 8) (s : State) : Host.Outcome State Fault Refusal := .next (s.onMod (moverComplete m.val))

/-- A mover meets a page fault (R258, R399). -/
def execMoverPageFault (m : Fin 8) (s : State) : Host.Outcome State Fault Refusal := .next (s.onMod (moverPageFault m.val))

/-- A remote COPY is acknowledged (R399). -/
def execRemoteCopyAck (x : Ctx) (fault : Option VaKind) (s : State) : Host.Outcome State Fault Refusal :=
  .next (s.onMod (copyAck x.val fault))

/-- A remote COPY is not acknowledged in time (R399). -/
def execCopyAckTimeout (x : Ctx) (s : State) : Host.Outcome State Fault Refusal := .next (s.onMod (copyTimeout x.val))

/-- Remote COPY data arrives (R399). -/
def execBulkCopyData (q : Port) (src : BitVec 15) (gid : W16) (dst : W64) (ctx : Ctx) (data : List Byte) (s : State) :
    Host.Outcome State Fault Refusal :=
  .next (s.onMod (copyArrive q.val src.toNat gid.toNat dst.toNat ctx.val data))

/-- A BAR4 read (R394). -/
def execBar4Read (fn : Fn) (off len : Nat) (s : State) : Host.Outcome State Fault Refusal := .next (s.onMod (bar4Read fn off len))

/-- A BAR4 write (R394). -/
def execBar4Write (fn : Fn) (off : Nat) (data : List Byte) (s : State) : Host.Outcome State Fault Refusal :=
  .next (s.onMod (bar4Write fn off data))

/-- A VF's Function Level Reset (R395). -/
def execVfFlr (p : Part) (s : State) : Host.Outcome State Fault Refusal := .next (s.onMod (vfFlr p.val))

end Sys2Proof.Machine
end

