-- ==== Sys2Proof/Machine/Meter.lean ====
section
/-!
DEFINITION. The metrology unit and the meter window (17_decest_meter.md R457 to R475): records, log and SMBus of the MDM-1; frames,
link supervision and apportioning of the module.
-/
namespace Sys2Proof.Machine

/-! ## The MDM-1 (R457 to R466) -/

/-- The kinds of a log entry are not stated: 1 the case opened, 2 re-sealed, 3 firmware changed (log 31). -/
inductive MdmLog where
  | opened | resealed | firmware
  deriving DecidableEq, Repr

/-- The code of a log entry's kind. -/
def mdmLogKind : MdmLog → Nat
  | .opened => 1 | .resealed => 2 | .firmware => 3

/-- Writes a log entry: 32 bytes of time, kind and op_sec (Table 17.4; log 31). -/
def mdmLogAdd (d : Mdm) (k : MdmLog) : Mdm :=
  { d with log := d.log ++ [leBytes 8 (Config.mdmTime d.log.length).toNat ++ leBytes 8 (mdmLogKind k) ++ leBytes 16 d.opSec] }

/-- The flags of a record (Table 17.3), as bits of word 0 from bit 32. -/
def mdmFlags (d : Mdm) (x : Measure) : Nat :=
  b2n d.lost + 2 * b2n d.opened + 4 * b2n d.unsealed + 8 * b2n x.vRange + 16 * b2n x.iRange + 32 * b2n x.selftest

/-- The body of the next record (Table 17.2). -/
def mdmBody (d : Mdm) (kind energy : Nat) (x : Measure) : List Byte :=
  leBytes 2 0x4D31 ++ leBytes 1 1 ++ leBytes 1 kind ++ leBytes 4 (mdmFlags d x)
    ++ leBytes 8 d.serial.toNat ++ leBytes 8 d.seq ++ leBytes 8 d.opSec ++ leBytes 8 d.energy ++ leBytes 8 energy
    ++ leBytes 4 x.ms.toNat ++ leBytes 4 d.log.length ++ leBytes 4 x.vmin.toNat ++ leBytes 4 x.vmax.toNat
    ++ leBytes 4 x.imax.toNat ++ leBytes 4 x.pmax.toNat ++ leBytes 4 d.fwCrc.toNat ++ leBytes 2 d.fwVer.toNat ++ leBytes 50 0

/-- A record closes over a measured interval (R459): numbered, signed, and held among the last 65,536. -/
def mdmRecord (d : Mdm) (kind energy : Nat) (x : Measure) : Mdm :=
  let d := { d with energy := (d.energy + energy) % 2 ^ 64, opSec := d.opSec + x.opSec, seq := d.seq + 1 }
  let body := mdmBody d kind energy x
  let r := body ++ leBytes 32 (Config.mdmSignR d.serial body).toNat ++ leBytes 32 (Config.mdmSignS d.serial body).toNat
  { d with records := (r :: d.records).take 65536, opened := false, lost := false }

/-- A periodic record (R459). -/
def mdmPeriodic (x : Measure) (d : Mdm) : Mdm := if d.supplied then mdmRecord d 1 x.energy x else d

/-- A power-up record (R459, R460): power_lost, interval energy 0; a case that opened while the unit was not supplied is
logged and reported (R465). -/
def mdmPowerUp (x : Measure) (d : Mdm) : Mdm :=
  if d.supplied then d else
  let d := if d.opened then mdmLogAdd d .opened else d
  mdmRecord { d with supplied := true, lost := true } 2 0 x

/-- The input falls below 40 V (R460). -/
def mdmPowerDown (x : Measure) (d : Mdm) : Mdm :=
  if d.supplied then { mdmRecord d 4 x.energy x with supplied := false, lost := true } else d

/-- The case opens (R465). -/
def mdmOpen (x : Measure) (d : Mdm) : Mdm :=
  let d := { d with caseOpen := true, opened := true, unsealed := true }
  if d.supplied then mdmRecord (mdmLogAdd d .opened) 3 x.energy x else d

/-- A verifier's re-seal, with the case closed (R465). -/
def mdmReseal (x : Measure) (d : Mdm) : Mdm :=
  if d.supplied then mdmRecord (mdmLogAdd { d with caseOpen := false, unsealed := false } .resealed) 3 x.energy x else d

/-- Firmware changed through the service port inside the case, which is open (R464). -/
def mdmFirmware (x : Measure) (ver : W16) (crc : W32) (d : Mdm) : Mdm :=
  if d.supplied && d.caseOpen then
    mdmRecord (mdmLogAdd { d with fwVer := ver, fwCrc := crc, unsealed := true } .firmware) 3 x.energy x
  else d

/-- The latest record, zeros before the first. -/
def mdmLatest (d : Mdm) : List Byte := d.records.headD (List.replicate 192 0)

/-- The latest record leaves in a frame with its CRC-32 (R467). -/
def mdmSend (d : Mdm) : Mdm :=
  if d.supplied && !d.records.isEmpty then { d with frame := mdmLatest d ++ leBytes 4 (crc32 (mdmLatest d)) } else d

/-- A read over the SMBus: with a bad PEC, or without supply, it is not acknowledged and changes nothing (R466). -/
def mdmRead (pecOk : Bool) (f : Mdm → List Byte) (d : Mdm) : Mdm := if d.supplied && pecOk then { d with resp := f d } else d

/-- The record of a sequence number, zeros if it is not held. -/
def mdmRecordOf (n : Nat) (d : Mdm) : List Byte :=
  if 1 ≤ n ∧ n ≤ d.seq then d.records.getD (d.seq - n) (List.replicate 192 0) else List.replicate 192 0

/-- Log entry `n`, counted from 0 (log 31). -/
def mdmLogOf (n : Nat) (d : Mdm) : List Byte := d.log.getD n (List.replicate 32 0)

/-- Block `n` of the certificate; block 0 holds its length, and the bytes follow from block 1 (log 31). -/
def mdmCertOf (n : Nat) (d : Mdm) : List Byte :=
  let c := Config.mdmCertificate d.serial
  if n = 0 then leBytes 32 c.length else ((c.drop (32 * (n - 1))).take 32 ++ List.replicate 32 0).take 32

/-- Serial, fw_ver, fw_crc, log_n and ratings code, in that order (log 31). -/
def mdmIdent (d : Mdm) : List Byte :=
  leBytes 8 d.serial.toNat ++ leBytes 2 d.fwVer.toNat ++ leBytes 4 d.fwCrc.toNat ++ leBytes 4 d.log.length ++ leBytes 4 Config.mdmRatings.toNat

/-! ## The module's meter interface (R467 to R473) -/

/-- MOD_ID.variant: 0x00 none, 0x01 MDM-1, 0xFF not yet decided. -/
def variant (m : Mod) : Nat := fld m rModId 7 0

/-- A field of the record a frame carries. -/
def recNat (bs : List Byte) (i n : Nat) : Nat := leNat ((bs.drop i).take n)

/-- d(b): a bay's energy counted toward a partition, or none (12), in mWh rounded down (R472). -/
def bayShare (m : Mod) (p b : Nat) : Nat := sget (fun _ => 0) m.meterAcc (64 * p + b) / 3600

/-- D(p), and F for 12. -/
def partShare (m : Mod) (p : Nat) : Nat := (List.range 40).foldl (fun a b => a + bayShare m p b) 0

/-- The procedure of R472: each partition's share of E. -/
def apportion (e : Nat) (ds : List Nat) (f : Nat) : List Nat :=
  let sum := ds.foldl (· + ·) 0
  let t := f + sum
  if e < t then ds.map (fun d => d * e / t)
  else if sum = 0 then ds.map (fun _ => 0)
  else ds.map (fun d => d + (e - t) * d / sum)

/-- Writes the shares of an interval. -/
def apportionWrite (m : Mod) (seq e : Nat) (shares : List Nat) : Mod :=
  let m := (List.range 12).foldl (fun m p =>
    let a := shares.getD p 0
    satReg (wrN m (rMtApp p) a) (rMtAppTot p) 64 a) m
  let sys := e - shares.foldl (· + ·) 0
  satReg (wrN (wrN m rMtAppSys sys) rMtAppSeq seq) rMtAppSysTot 64 sys

/-- An accepted record closes an apportioning interval, but not the first one after a reset, which begins one (R472, R473). -/
def meterClose (m : Mod) (seq e : Nat) : Mod :=
  let m := if m.meterOpen then apportionWrite m seq e (apportion e ((List.range 12).map (partShare m)) (partShare m 12)) else m
  { m with meterAcc := [], meterOpen := true }

/-- The registers of an accepted record (Table 17.5). -/
def meterShow (m : Mod) (bs : List Byte) : Mod :=
  let flags := recNat bs 4 4
  let m := setFld m rMtStat 3 1 (nbits flags 1 1 + 2 * nbits flags 2 2 + 4 * nbits flags 5 5)
  let m := wrN (wrN (wrN m rMtSerial (recNat bs 8 8)) rMtFw (recNat bs 76 2)) rMtFwCrc (recNat bs 72 4)
  let m := wrN (wrN (wrN m rMtSeq (recNat bs 16 8)) rMtEnergy (recNat bs 32 8)) rMtRxTime m.hclk
  (List.range 24).foldl (fun m w => wrN m (rMtRec w) (recNat bs (8 * w) 8)) m

/-- A record is accepted (R467, R468). -/
def meterAccept (m : Mod) (bs : List Byte) : Mod :=
  let seq := recNat bs 16 8
  let last := (rd m rMtSeq).toNat
  let gap := if last = 0 then 0 else seq - last - 1
  let m := if gap = 0 then m else
    raise (satReg m rMtGap 32 gap) (telemEv 8 14 4 .warning (leBytes 8 seq ++ leBytes 4 (min gap (2 ^ 32 - 1))))
  let flags := recNat bs 4 4
  let m := if nbits flags 1 1 = 1 ∨ nbits flags 2 2 = 1 ∨ nbits flags 5 5 = 1 then
      raise m (telemEv 8 14 1 .alarm (leBytes 8 seq ++ leBytes 4 flags)) else m
  meterClose (meterShow m bs) seq (recNat bs 40 8)

/-- A frame arrives (R467 to R469): one with a bad CRC is counted; a valid one decides the variant and keeps the link up, and its
record is accepted if its number is new. The link's return is an event once a record has been accepted (log 31). -/
def meterFrame (bs : List Byte) (crc : Nat) (m : Mod) : Mod :=
  if !m.boot.house ∨ variant m = 0 then m
  else if bs.length ≠ 192 ∨ crc32 bs ≠ crc then satReg m rMtBad 32 1
  else
    let m := if variant m = 0xFF then setBit (setFld m rModId 7 0 1) rMtStat 0 else m
    let m := if fld m rMtStat 7 7 = 1 then m
      else
        let m := setBit m rMtStat 7
        if rd m rMtSeq = 0 then m else raise m (telemEv 8 14 3 .warning [])
    if (rd m rMtSeq).toNat < recNat bs 16 8 then meterAccept m bs else m

/-- No valid frame for 5 s (R468). -/
def meterLinkLost (m : Mod) : Mod :=
  if fld m rMtStat 7 7 = 1 then raise (setFld m rMtStat 7 7 0) (telemEv 8 14 2 .error []) else m

/-- No valid frame 2 s after the end of the reset trigger: no metrology unit (R469). -/
def meterNone (m : Mod) : Mod := if variant m = 0xFF ∧ m.boot.house then setFld m rModId 7 0 0 else m

/-! ## The rows -/

/-- A periodic record (R459). -/
def execMeterPeriodicRecord (m : Measure) (s : State) : Host.Outcome State Fault Refusal := .next (s.onMdm (mdmPeriodic m))

/-- A power-up record (R459). -/
def execMeterPowerUpRecord (m : Measure) (s : State) : Host.Outcome State Fault Refusal := .next (s.onMdm (mdmPowerUp m))

/-- A power-down record (R460). -/
def execMeterPowerDownRecord (m : Measure) (s : State) : Host.Outcome State Fault Refusal := .next (s.onMdm (mdmPowerDown m))

/-- The case opens (R465). -/
def execMdmCaseOpen (m : Measure) (s : State) : Host.Outcome State Fault Refusal := .next (s.onMdm (mdmOpen m))

/-- A re-seal (R465). -/
def execMdmReseal (m : Measure) (s : State) : Host.Outcome State Fault Refusal := .next (s.onMdm (mdmReseal m))

/-- A firmware change (R464). -/
def execMdmFirmwareChange (m : Measure) (ver : W16) (crc : W32) (s : State) : Host.Outcome State Fault Refusal :=
  .next (s.onMdm (mdmFirmware m ver crc))

/-- The latest record is sent (R467). -/
def execMeterFrameSend (s : State) : Host.Outcome State Fault Refusal := .next (s.onMdm mdmSend)

/-- A frame arrives at the module (R467). -/
def execMeterFrame (bytes : List Byte) (crc : W32) (s : State) : Host.Outcome State Fault Refusal :=
  .next (s.onMod (meterFrame bytes crc.toNat))

/-- The link has been silent for 5 s (R468). -/
def execMeterLinkTimeout (s : State) : Host.Outcome State Fault Refusal := .next (s.onMod meterLinkLost)

/-- The variant is decided as none (R469). -/
def execMeterVariantTimeout (s : State) : Host.Outcome State Fault Refusal := .next (s.onMod meterNone)

/-- SMBus 0x10 (R466). -/
def execMdmReadRecord (seq : W64) (pecOk : Bool) (s : State) : Host.Outcome State Fault Refusal :=
  .next (s.onMdm (mdmRead pecOk (mdmRecordOf seq.toNat)))

/-- SMBus 0x11 (R466). -/
def execMdmReadLatest (pecOk : Bool) (s : State) : Host.Outcome State Fault Refusal := .next (s.onMdm (mdmRead pecOk mdmLatest))

/-- SMBus 0x20 (R466). -/
def execMdmReadLog (n : Nat) (pecOk : Bool) (s : State) : Host.Outcome State Fault Refusal := .next (s.onMdm (mdmRead pecOk (mdmLogOf n)))

/-- SMBus 0x30 (R466). -/
def execMdmReadCertificate (n : Nat) (pecOk : Bool) (s : State) : Host.Outcome State Fault Refusal :=
  .next (s.onMdm (mdmRead pecOk (mdmCertOf n)))

/-- SMBus 0x40 (R466). -/
def execMdmIdentify (pecOk : Bool) (s : State) : Host.Outcome State Fault Refusal := .next (s.onMdm (mdmRead pecOk mdmIdent))

end Sys2Proof.Machine
end

