-- ==== Sys2Proof/Machine/Boot.lean ====
section
/-!
DEFINITION. Reset, boot and the management interfaces (18_bringup.md R476 to R491, 19_physical.md R496, R507 to R509).
-/
namespace Sys2Proof.Machine

/-! ## Module resets (R476, R477) -/

/-- MOD_BOOT_STAT.state: 0 Off, 1 Booting, 2 Ready, 3 Failed. -/
def bootState (m : Mod) : Nat := fld m rBootStat 31 28

/-- Changes the boot record. -/
def onBoot (m : Mod) (f : BootSt → BootSt) : Mod := { m with boot := f m.boot }

/-- A register that a reset of a type (0 POR, 1 cold, 2 warm) keeps (Table 18.2). The wear registers show gauges that the MMC keeps;
MEM_CAP keeps what HBM training found, which a warm reset does not repeat (R483). -/
def regKept (typ off : Nat) : Bool :=
  match typ with
  | 0 => false
  | 1 => off == rRstCtl || off == rModFw || (decide (0x52100 ≤ off) && decide (off < 0x60000))
  | _ =>
    off == rRstCtl || off == rModFw || off == rModId || off == rMemCap
      || (decide (0x52100 ≤ off) && decide (off < 0x60000))
      || (decide (0x20000 ≤ off) && decide (off < 0x23000))
      || off == rTopo || off == rZwLock || (decide (0x102000 ≤ off) && decide (off < 0x103000))

/-- A key of host memory. -/
def hostKey (a : Nat) : Bool := decide (hostBase ≤ a) && decide (a < addrTop)

/-- Memory after a reset: host memory is the host's; a warm reset keeps HBM and the devices of the far range; everything else has
been without power and reads as at power-on (log 3). -/
def memKept (typ a : Nat) : Bool :=
  hostKey a || (typ == 2 && (decide (a < hbmTop) || (decide (farBase ≤ a) && decide (a < farTop)) || decide (addrTop ≤ a)))

/-- The first step of Table 18.3 that a reset performs. -/
def firstStep (typ : Nat) : Nat := match typ with | 0 => 1 | 1 => 4 | _ => 6

/-- A group after a warm reset: kept, with its epoch to be compared if it is Formed (R485). -/
def groupKept (m : Mod) (e : Nat × GroupSt) : Nat × GroupSt :=
  (e.1, { e.2 with awaiting := [], reached := [], censusOpen := false, forced := false, warm := decide (grpState m e.1 = 2) })

/-- A partition after a warm reset: one that is Active is set up again, and every context is Free. -/
def partKept (m : Mod) (p : Nat) : Mod :=
  let st := partState m p
  wrN m (rPartStat p) ((if st = 2 then 1 else st) * 2 ^ 28)

/-- A module reset begins: every piece of state is kept or initialised as Table 18.2 states. -/
def modReset (m : Mod) (typ src : Nat) : Mod :=
  let warm := decide (typ = 2)
  let n : Mod :=
    { free := m.free
      hclk := if typ = 0 then 0 else m.hclk
      regs := m.regs.filter (fun e => regKept typ e.1)
      mem := m.mem.filter (fun e => memKept typ e.1)
      lmem := [], imem := [], ecc := m.ecc.filter (fun e => e.1 % 4 == 2 && memKept typ (e.1 / 4))
      cores := [], claps := [], arrivals := [], evFlags := [], chans := [], pins := []
      clusters := [], ctxs := [], fns := []
      prints := if warm then (List.range 12).map (fun p => (p, { PrintSt.reset with warm := true })) else []
      reels := [], streams := []
      groups := if warm then m.groups.map (groupKept m) else []
      ports := [], tx := m.tx, migQ := [], movers := [], sbs := [], gafs := [], standbyWake := false, pwrSamples := 0
      production := m.production, infield := m.infield, corrected := [], patrolled := []
      gauges := if typ = 0 then m.savedGauges else m.gauges
      savedGauges := m.savedGauges, uncontained := false, ingest := [], modEq := Ring.reset, msix := m.msix, evWait := [], telemQ := []
      alarmWait := [], arbs := [], strs := [], nvs := [], reads := [], readId := m.readId, unacked := [], ctlKey := m.ctlKey
      boot := { m.boot with
        inReset := some (typ, src), trigEnd := if typ = 0 then 0 else m.hclk, house := true, dies := true, latched := false, rom := false
        dead := if warm then m.boot.dead else []
        readyAt := 0, eid := if typ = 0 then 0 else m.boot.eid, cfgResp := none }
      lateWrites := [], meterAcc := [], meterOpen := false }
  let n := wrN (wrN n rRstCause (src * 16 + typ)) rBootStat (2 ^ 28 + firstStep typ * 2 ^ 24)
  if warm then
    let n := (List.range 12).foldl partKept n
    repReset (if variant n = 1 then setBit n rMtStat 0 else n)
  else n

/-- A reset trigger (R476): one of the same or a shallower type than the reset in progress is absorbed. Dies that a latched
power-down holds off come back only with a cold reset (R480), and with neither image verified none comes up (R481). -/
def trigger (typ src : Nat) (m : Mod) : Mod :=
  if !m.boot.house || !m.boot.input || m.boot.rom then m
  else match m.boot.inReset with
    | some (t, _) => if typ < t then modReset m typ src else m
    | none => if typ = 2 ∧ !m.boot.dies then m else modReset m typ src

/-- The end of a trigger that a land gave (R509). -/
def triggerEnd (src : Nat) (m : Mod) : Mod :=
  match m.boot.inReset with
  | some (_, s) => if s = src then onBoot m (fun b => { b with trigEnd := m.hclk }) else m
  | none => m

/-! ## Power (R478, R480, R496) -/

/-- The image that boots (R481): of two that verify the one with the higher version, and of equal versions image 0
(log 30). -/
def bootImage (b : BootSt) : Option Nat :=
  match Config.fwVerifies b.fw0, Config.fwVerifies b.fw1 with
  | true, true => some (if (Config.fwVersion b.fw0).toNat < (Config.fwVersion b.fw1).toNat then 1 else 0)
  | true, false => some 0
  | false, true => some 1
  | false, false => none

/-- The bytes of an image. -/
def imageOf (b : BootSt) (i : Nat) : Sparse Byte := if i = 0 then b.fw0 else b.fw1

/-- The input rises through 44 V (R476, R478). -/
def powerOn (m : Mod) : Mod :=
  if m.boot.input then m else
  let m := modReset (onBoot m (fun b => { b with input := true })) 0 0
  match bootImage m.boot with
  | some i => wrN m rModFw ((Config.fwVersion (imageOf m.boot i)).toNat * 2 ^ 16 + i * 2 ^ 8)
  | none => m

/-- Neither image verifies (R481). -/
def bootFailed (m : Mod) : Mod :=
  if m.boot.inReset.any (fun e => e.1 == 0) && (bootImage m.boot).isNone then
    wrN (onBoot m (fun b => { b with rom := true, dies := false, inReset := none })) rBootStat (3 * 2 ^ 28 + 2 ^ 16)
  else m

/-- Registers that stay while the dies are off: those of the house domain, the alarm and telemetry block, the meter window, and
the gaffer blocks with the cause of a shut (log 30). -/
def regHouse (off : Nat) : Bool :=
  decide (off < 0x10000) || (decide (0x40000 ≤ off) && decide (off < 0x50000)) || (decide (0x52100 ≤ off) && decide (off < 0x80000))

/-- The dies power down (R480): ports go Down, engines stop, and memories, stores and volatile registers are lost. -/
def powerDown (m : Mod) (latched : Bool) (fail : Nat) : Mod :=
  { onBoot (wrN { m with regs := m.regs.filter (fun e => regHouse e.1) } rBootStat (fail * 2 ^ 16))
      (fun b => { b with dies := false, latched := latched, inReset := none, cfgResp := none }) with
    mem := m.mem.filter (fun e => hostKey e.1), lmem := [], imem := [], ecc := [], lateWrites := [], cores := [], claps := [], arrivals := []
    evFlags := [], chans := [], pins := [], clusters := [], ctxs := [], fns := [], prints := [], reels := [], streams := []
    groups := [], ports := [], migQ := [], movers := [], sbs := [], gafs := [], ingest := [], modEq := Ring.reset, evWait := []
    arbs := [], strs := [], nvs := [], reads := [], unacked := [] }

/-- The dies power down for a cause, with its alarm (R480, Table 16.5a unit 15). -/
def powerOff (latched : Bool) (fail code : Nat) (detail : List Byte) (m : Mod) : Mod :=
  if m.boot.dies then raise (powerDown m latched fail) (telemEv 8 15 code .alarm detail) else m

/-- The input falls below 42 V. -/
def inputLow (m : Mod) : Mod :=
  if m.boot.input then onBoot (powerOff false 0 1 [] m) (fun b => { b with input := false }) else m

/-- The input falls below 36 V: the house domain stops, and everything volatile with it (R496); the non-volatile store and the
metrology unit's records stay. -/
def houseStop (m : Mod) : Mod :=
  if m.boot.input || !m.boot.house then m else
  let n := powerDown m false 0
  { onBoot n (fun b => { BootSt.reset with rstN := b.rstN, perst := b.perst, fw0 := b.fw0, fw1 := b.fw1 }) with
    regs := [], hclk := 0, telemQ := [], alarmWait := [], gauges := m.savedGauges, corrected := [], patrolled := [], uncontained := false
    pwrSamples := 0, standbyWake := false, meterAcc := [], meterOpen := false }

/-- A rail fault after step 6; die 8 is the hub. -/
def railFault (d : Nat) (m : Mod) : Mod := powerOff true 2 4 [BitVec.ofNat 8 d] m

/-- A junction reading (R422, R423): one at or above shut powers the dies down. -/
def thermalSample (d sensor : Nat) (temp : Int) (m : Mod) : Mod :=
  if !m.boot.dies then m
  else if shutAt m d ≤ temp then
    let m := thermalRead d sensor temp m
    powerOff true 0 2 ([BitVec.ofNat 8 d, 0] ++ leBytes 2 (BitVec.ofInt 16 temp).toNat) (setBit m (rGafErr d) 4)
  else thermalRead d sensor temp m

/-! ## Lands (R509) -/

/-- RESET_N low: a cold reset once it has been low for 1 µs; shorter pulses do nothing. -/
def resetLow (ns : Nat) (m : Mod) : Mod :=
  if ns < 1000 then m else trigger 1 1 (onBoot m (fun b => { b with rstN := true }))

/-- RESET_N rises: the trigger ends, and the TAP lets go of the lands (R490). -/
def resetHigh (m : Mod) : Mod :=
  if m.boot.rstN then triggerEnd 1 (onBoot m (fun b => { b with rstN := false, drive := .none })) else m

/-- PERST_N low: a warm reset while perst_warm is 1, else a cold one. -/
def perstLow (m : Mod) : Mod :=
  if m.boot.perst then m
  else trigger (if fld m rRstCtl 0 0 = 1 then 2 else 1) 2 (onBoot m (fun b => { b with perst := true }))

/-- PERST_N rises: the trigger ends and host link training begins (R479); the width and rate that it reaches are free values. -/
def perstHigh (m : Mod) : Mod :=
  if !m.boot.perst then m else
  let m := triggerEnd 2 (onBoot m (fun b => { b with perst := false }))
  let (v, m) := drawFree m
  wrN m rModLink ((1 + bits v 7 0 % 5) * 16 + 5 + bits v 8 8)

/-- ALARM_N is low (R453); its output is high impedance while the house domain is down. -/
def alarmLow (m : Mod) : Bool := m.boot.house && !(alarmUnread m).isEmpty

/-- MMC_READY (Table 19.7). -/
def mmcReady (m : Mod) : Bool := m.boot.house && bootState m == 2

/-- NV_PERST0_N and NV_PERST1_N are high: 100 ms after Ready (Table 19.7). -/
def nvPerst (m : Mod) : Bool := mmcReady m && decide (m.boot.readyAt + 5000000 ≤ m.hclk)

/-! ## Ready (R477, R482 to R485) -/

/-- The trigger of the reset in progress has ended. -/
def triggerOver (b : BootSt) (src : Nat) : Bool := match src with | 1 => !b.rstN | 2 => !b.perst | _ => true

/-- A bay mask without the bays of a die. -/
def dropDie (m : Mod) (d : Nat) : Mod := (List.range 5).foldl (fun m i => setFld m rRepBayOk (5 * d + i) (5 * d + i) 0) m

/-- The lowest stack that failed training. -/
def failedStack (m : Mod) : Option Nat := (List.range 16).find? (fun i => fld m rMemCap i i == 0)

/-- HBM training of a stack fails (R483). -/
def stackFails (m : Mod) (i : Nat) : Mod :=
  raise (setFld m rMemCap i i 0) (telemEv (i / 2) 4 3 .error [BitVec.ofNat 8 i])

/-- The reset sequence completes: self-test defects join the map at a power-on or cold reset and the whole map takes effect
(R482); stacks and dies that failed clear their bays (R483); MOD_BOOT_STAT reads Ready; the switch is released, and partitions to
be set up again wake their clusters (Table 18.2). A die that was not released stays so through warm resets. Of two failures the one of HBM training is shown (log 30). -/
def bootReady (ms : Nat) (stackFail dieFail : Option Nat) (defects : List W64) (m : Mod) : Mod :=
  match m.boot.inReset with
  | none => m
  | some (typ, src) =>
    if !triggerOver m.boot src || (typ == 0 && (bootImage m.boot).isNone) then m else
    let m := if typ = 2 then m else repReset (defects.foldl repAdd m)
    let m := match typ, stackFail with
      | 2, _ => m
      | _, some i => stackFails m i
      | _, none => m
    let m := (List.range 16).foldl (fun m i => if fld m rMemCap i i = 0 then dropDie m (i / 2) else m) m
    let dead := match dieFail with | some d => d :: m.boot.dead.erase d | none => m.boot.dead
    let m := dead.foldl dropDie (onBoot m (fun b => { b with dead := dead }))
    let released := 255 - (dead.map (2 ^ ·)).foldl (· + ·) 0
    let (step, fail) := match failedStack m, dead with
      | some i, _ => (i, 4)
      | none, _ :: _ => (9, 3)
      | none, [] => (9, 0)
    let m := wrN m rBootStat (2 * 2 ^ 28 + step * 2 ^ 24 + fail * 2 ^ 16 + released * 2 ^ 8)
    let m := onBoot (wrN m rBootTime ms) (fun b => { b with inReset := none, readyAt := m.hclk })
    let m := (List.range 6).foldl portEnable m
    (List.range 12).foldl (fun m p => if partState m p = 1 then (clustersOfPart m p).foldl wake m else m) m

/-! ## PCIe configuration (R378, R379, R479) -/

/-- Enabling VFs 1 to n through SR-IOV; the others lose what they hold. -/
def enableVfs (n : Nat) (m : Mod) : Mod :=
  (List.range 12).foldl (fun m i =>
    if i < n then setFn m (i + 1) { fnAt m (i + 1) with enabled := true } else setFn m (i + 1) FnSt.reset) m

/-- A completion of a configuration request: status 0 successful, 1 unsupported request, 2 Configuration Request Retry Status. -/
def cfgComplete (m : Mod) (status : Nat) (v : W32) : Mod := onBoot m (fun b => { b with cfgResp := some (status, v) })

/-- What an item of a function's configuration space reads (Tables 14.1, 14.4). -/
def cfgItem (m : Mod) (fn : Fn) : CfgItem → Nat
  | .totalVfs | .initialVfs => 12
  | .numVfs => ((List.range 12).filter (fun p => (fnAt m (p + 1)).enabled)).length
  | .vfStride => 1
  | .maxPayload => 2
  | .payload => (fnAt m (fnKey fn)).payload
  | .readRequest => (fnAt m (fnKey fn)).readRequest
  | .msixVectors => match fn with | .pf => 256 | .vf _ => 64
  | .bar0 => 26
  | .bar2 => 24
  | .bar4 => bar4Log m fn
  | .ari | .sriov | .aer | .flr => 1
  | .msi | .intx | .ats | .pri | .pasid | .tph | .ide => 0

/-- A write of an item: the payload size up to 512 bytes, the read request size up to 4,096, and the size of BAR4 within its range of
Table 14.4; any other write changes nothing (log 33). -/
def cfgItemWrite (m : Mod) (fn : Fn) (item : CfgItem) (v : Nat) : Mod :=
  let f := fnKey fn
  let x := fnAt m f
  match item with
  | .payload => if v ≤ 2 then setFn m f { x with payload := v } else m
  | .readRequest => if v ≤ 5 then setFn m f { x with readRequest := v } else m
  | .bar4 => if 30 ≤ v ∧ v ≤ (match fn with | .pf => 40 | .vf _ => 37) then setFn m f { x with bar4 := some v } else m
  | _ => m

/-- A configuration request: Retry Status before Ready; afterwards a read of the identifiers, an item that the spec gives a value, or a
field it does not lay out, whose value is free. No request arrives while PERST_N is asserted or the endpoint is not up. -/
def cfgRequest (r : CfgReq) (m : Mod) : Mod :=
  if m.boot.perst then m
  else if bootState m = 1 then cfgComplete m 2 0
  else if bootState m ≠ 2 then m
  else match r with
    | .enableVfs n => cfgComplete (enableVfs n.val m) 0 0
    | .read fn off =>
      if (match fn with | .pf => false | .vf _ => !(fnAt m (fnKey fn)).enabled) then cfgComplete m 1 0xFFFFFFFF
      else if off = 0 then cfgComplete m 0 (BitVec.ofNat 32 (0x0B78 * 2 ^ 16 + Config.pciVendor.toNat))
      else let (v, m) := drawFree m; cfgComplete m 0 (BitVec.ofNat 32 v.toNat)
    | .readItem fn item =>
      if (match fn with | .pf => false | .vf _ => !(fnAt m (fnKey fn)).enabled) then cfgComplete m 1 0xFFFFFFFF
      else cfgComplete m 0 (BitVec.ofNat 32 (cfgItem m fn item))
    | .writeItem fn item v =>
      if (match fn with | .pf => false | .vf _ => !(fnAt m (fnKey fn)).enabled) then cfgComplete m 1 0
      else cfgComplete (cfgItemWrite m fn item v.toNat) 0 0
    | .write fn _ _ =>
      if (match fn with | .pf => false | .vf _ => !(fnAt m (fnKey fn)).enabled) then cfgComplete m 1 0 else cfgComplete m 0 0

/-! ## CXL (R484) -/

/-- Two seconds after MMC_READY: the ports whose device reports Memory_Active, and no other, read type3 = 1. -/
def cxlActive (active : List CxlDev) (m : Mod) : Mod :=
  if bootState m ≠ 2 then m else
  (List.range 4).foldl (fun m q => match active.find? (fun x => x.port.val == q) with
    | some x => wrN m (rCxlStat q) (x.gib.toNat * 2 ^ 16 + 2 ^ 8 + x.width.toNat * 2 ^ 4 + x.rate.toNat)
    | none => setFld m (rCxlStat q) 8 8 0) m

/-- A device event is read and cleared; a device that is not healthy is reported. -/
def cxlEvent (q : Nat) (health : Nat) (m : Mod) : Mod :=
  if health = 0 ∨ fld m (rCxlStat q) 8 8 = 0 then m
  else raise m (telemEv 8 4 4 .warning ([BitVec.ofNat 8 q] ++ leBytes 3 0 ++ leBytes 4 health))

/-! ## MCTP (R488, R489) -/

/-- The response of an MCTP message. -/
def mctpReply (m : Mod) (bs : List Byte) : Mod := onBoot m (fun b => { b with resp := bs })

/-- The MMC answers, but not control messages in ROM recovery (R481). -/
def mctpControl (f : Mod → Mod) (m : Mod) : Mod := if m.boot.house && !m.boot.rom then f m else m

/-- Set Endpoint ID; 0x00 and 0xFF are no endpoint IDs (log 32). -/
def mctpSetEid (eid : Byte) : Mod → Mod :=
  mctpControl (fun m => if eid = 0 ∨ eid = 0xFF then mctpReply m [2]
    else mctpReply (onBoot m (fun b => { b with eid := eid })) [0, 0, eid, 0])

/-- Get Endpoint ID. -/
def mctpGetEid : Mod → Mod := mctpControl (fun m => mctpReply m [0, m.boot.eid, 0, 0])

/-- Get Endpoint UUID. -/
def mctpGetUuid : Mod → Mod := mctpControl (fun m => mctpReply m (0 :: leBytes 16 Config.mctpUuid.toNat))

/-- Get MCTP Version Support: for the supported message types, and 0xFF for the base specification (log 32). -/
def mctpGetVersion (typ : Byte) : Mod → Mod :=
  mctpControl (fun m => if typ = 0xFF ∨ typ = 0 ∨ typ = 0x7E then mctpReply m ([0, 1] ++ leBytes 4 (Config.mctpVersion typ).toNat)
    else mctpReply m [0x80])

/-- Get Message Type Support: 0x00 and 0x7E. -/
def mctpGetTypes : Mod → Mod := mctpControl (fun m => mctpReply m [0, 2, 0x00, 0x7E])

/-- Get Vendor Defined Message Support: PCI vendor ID 0x1E6C, the only one. -/
def mctpGetVendor (sel : Byte) : Mod → Mod :=
  mctpControl (fun m => if sel = 0 then mctpReply m ([0, 0xFF, 0x00, 0x1E, 0x6C] ++ leBytes 2 Config.mctpVendorSet.toNat)
    else mctpReply m [2])

/-- A vendor-defined command (R489): status 0x05 and no effect where the table excludes the state. -/
def mctpVendor (rom : Bool) (f : Mod → Mod) (m : Mod) : Mod :=
  if !m.boot.house then m else if m.boot.rom && !rom then mctpReply m [5] else f m

/-- Get State. -/
def mctpState : Mod → Mod :=
  mctpVendor true (fun m => mctpReply m (0 :: ([rBootStat, rRstCause, rModFw, rGafModPower] ++ (List.range 8).map rGafTemp).flatMap
    (fun off => leBytes 4 (rd m off).toNat)))

/-- Set Topology: refused once the lock is set; the ports follow (R318). -/
def mctpTopology (val : W32) : Mod → Mod :=
  mctpVendor false (fun m =>
    if fld m rZwLock 0 0 = 1 then mctpReply m [5]
    else
      let m := setBit (wrN m rTopo (bits val 29 0)) rZwLock 0
      mctpReply ((List.range 6).foldl portEnable m) [0])

/-- Reset, by type; the response goes out before the reset. -/
def mctpReset (typ : Nat) : Mod → Mod :=
  mctpVendor false (fun m =>
    let m := mctpReply m [0]
    match typ with
    | 0 => trigger 1 4 m
    | 1 => trigger 2 4 m
    | _ => powerOff true 0 3 [] m)

/-- Read Alarm: the entry as it stands in the alarm ring. -/
def mctpAlarm (n : Nat) : Mod → Mod := mctpVendor false (fun m => mctpReply m (0 :: alarmBytes m n))

/-- Firmware Update: a block of the image that is not booted, at the block number times the block's length; in ROM recovery,
where none is booted, image 1 (log 30). -/
def mctpUpdate (block : Nat) (data : List Byte) : Mod → Mod :=
  mctpVendor true (fun m =>
    let i := if m.boot.rom then 0 else fld m rModFw 15 8
    let a := block * data.length
    mctpReply (onBoot m (fun b =>
      if i = 0 then { b with fw1 := writeList b.fw1 a data } else { b with fw0 := writeList b.fw0 a data })) [0])

/-! ## The TAP (R490) -/

/-- One shift through the bypass register. -/
def tapShift (tdi : Bool) (b : BootSt) : BootSt := { b with tdo := [b.tapBit], tapBit := tdi }

/-- BYPASS. -/
def tapBypass (tdi : Bool) (m : Mod) : Mod := onBoot m (fun b => { tapShift tdi b with drive := .none })

/-- IDCODE, least significant bit first. -/
def tapId (m : Mod) : Mod :=
  onBoot m (fun b => { b with tdo := (List.range 32).map (Nat.testBit 0x00B7874B), drive := .none })

/-- The levels of the single-ended lands by column of Table 19.6 (R507); those that the module does not determine are free. -/
def landLevels (m : Mod) : List Bool :=
  (natsFrom 1 22).map (fun c => match c with
    | 2 => !m.boot.perst
    | 3 => !m.boot.rstN
    | 4 => if m.boot.house then !alarmLow m else Config.landLevel c m.free
    | 5 => mmcReady m
    | 16 | 17 => nvPerst m
    | 22 => false
    | _ => Config.landLevel c m.free)

/-- SAMPLE/PRELOAD: the lands are captured, and the boundary register takes what is scanned in; the order of its cells is that
of the columns (log 32). -/
def tapSample (scan : List Bool) (m : Mod) : Mod :=
  let s := landLevels m
  { onBoot m (fun b => { b with tdo := s, boundary := scan, drive := .none }) with free := m.free + 1 }

/-- EXTEST while RESET_N is asserted: the boundary register drives the lands and shifts; otherwise BYPASS. -/
def tapExtest (tdi : Bool) (m : Mod) : Mod :=
  if m.boot.rstN then onBoot m (fun b => { b with drive := .boundary, tdo := [b.boundary.getLastD false], boundary := tdi :: b.boundary.dropLast })
  else tapBypass tdi m

/-- CLAMP while RESET_N is asserted: the boundary register drives the lands, and the bypass register shifts; otherwise BYPASS. -/
def tapClamp (tdi : Bool) (m : Mod) : Mod :=
  if m.boot.rstN then onBoot m (fun b => { tapShift tdi b with drive := .boundary }) else tapBypass tdi m

/-- HIGHZ while RESET_N is asserted; otherwise BYPASS. -/
def tapHighz (tdi : Bool) (m : Mod) : Mod :=
  if m.boot.rstN then onBoot m (fun b => { tapShift tdi b with drive := .highz }) else tapBypass tdi m

/-! ## The rows -/

/-- A junction reading (R422). -/
def execThermalSample (d : Die) (sensor : Nat) (temp : Int) (s : State) : Host.Outcome State Fault Refusal :=
  .next (s.onMod (thermalSample d.val sensor temp))

/-- The input rises through 44 V (R478). -/
def execPowerOnReset (s : State) : Host.Outcome State Fault Refusal := .next (s.onMod powerOn)

/-- RESET_N low (R476). -/
def execResetNAssert (ns : Nat) (s : State) : Host.Outcome State Fault Refusal := .next (s.onMod (resetLow ns))

/-- RESET_N rises (R509). -/
def execResetNDeassert (s : State) : Host.Outcome State Fault Refusal := .next (s.onMod resetHigh)

/-- PERST_N low (R476). -/
def execPerstNAssert (s : State) : Host.Outcome State Fault Refusal := .next (s.onMod perstLow)

/-- PERST_N rises (R479). -/
def execPerstNDeassert (s : State) : Host.Outcome State Fault Refusal := .next (s.onMod perstHigh)

/-- A Function Level Reset of the PF (R476). -/
def execPfFlr (s : State) : Host.Outcome State Fault Refusal := .next (s.onMod (trigger 2 3))

/-- The reset sequence completes (R477). -/
def execBootReady (ms : W32) (stackFail : Option Stack) (dieFail : Option Die) (defects : List W64) (s : State) :
    Host.Outcome State Fault Refusal :=
  .next (s.onMod (bootReady ms.toNat (stackFail.map (·.val)) (dieFail.map (·.val)) defects))

/-- The input falls below 42 V (R480). -/
def execInputBelow42v (s : State) : Host.Outcome State Fault Refusal := .next (s.onMod inputLow)

/-- The input falls below 36 V (R496). -/
def execInputBelow36v (s : State) : Host.Outcome State Fault Refusal := .next (s.onMod houseStop)

/-- A rail fault (R480). -/
def execRailFault (d : Fin 9) (s : State) : Host.Outcome State Fault Refusal := .next (s.onMod (railFault d.val))

/-- Neither firmware image verifies (R481). -/
def execMmcBootFailed (s : State) : Host.Outcome State Fault Refusal := .next (s.onMod bootFailed)

/-- A PCIe configuration request (R479). -/
def execPcieConfigRequest (r : CfgReq) (s : State) : Host.Outcome State Fault Refusal := .next (s.onMod (cfgRequest r))

/-- CXL ports two seconds after MMC_READY (R484). -/
def execCxlActiveTimeout (active : List CxlDev) (s : State) : Host.Outcome State Fault Refusal := .next (s.onMod (cxlActive active))

/-- A CXL device event (R484). -/
def execCxlDeviceEvent (q : Fin 4) (health : W32) (s : State) : Host.Outcome State Fault Refusal :=
  .next (s.onMod (cxlEvent q.val health.toNat))

/-- MCTP Set Endpoint ID (R488). -/
def execSetEndpointId (eid : Byte) (s : State) : Host.Outcome State Fault Refusal := .next (s.onMod (mctpSetEid eid))

/-- MCTP Get Endpoint ID (R488). -/
def execGetEndpointId (s : State) : Host.Outcome State Fault Refusal := .next (s.onMod mctpGetEid)

/-- MCTP Get Endpoint UUID (R488). -/
def execGetEndpointUuid (s : State) : Host.Outcome State Fault Refusal := .next (s.onMod mctpGetUuid)

/-- MCTP Get MCTP Version Support (R488). -/
def execGetMctpVersionSupport (typ : Byte) (s : State) : Host.Outcome State Fault Refusal := .next (s.onMod (mctpGetVersion typ))

/-- MCTP Get Message Type Support (R488). -/
def execGetMessageTypeSupport (s : State) : Host.Outcome State Fault Refusal := .next (s.onMod mctpGetTypes)

/-- MCTP Get Vendor Defined Message Support (R488). -/
def execGetVendorDefinedMsgSupport (sel : Byte) (s : State) : Host.Outcome State Fault Refusal := .next (s.onMod (mctpGetVendor sel))

/-- Vendor command Get State (R489). -/
def execMctpGetState (s : State) : Host.Outcome State Fault Refusal := .next (s.onMod mctpState)

/-- Vendor command Set Topology (R489). -/
def execMctpSetTopology (val : W32) (s : State) : Host.Outcome State Fault Refusal := .next (s.onMod (mctpTopology val))

/-- Vendor Reset type 0 (R489). -/
def execMctpResetCold (s : State) : Host.Outcome State Fault Refusal := .next (s.onMod (mctpReset 0))

/-- Vendor Reset type 1 (R489). -/
def execMctpResetWarm (s : State) : Host.Outcome State Fault Refusal := .next (s.onMod (mctpReset 1))

/-- Vendor Reset type 2 (R480). -/
def execMctpPowerOff (s : State) : Host.Outcome State Fault Refusal := .next (s.onMod (mctpReset 2))

/-- Vendor command Read Alarm (R489). -/
def execMctpReadAlarm (n : Fin 32) (s : State) : Host.Outcome State Fault Refusal := .next (s.onMod (mctpAlarm n.val))

/-- Vendor command Firmware Update (R481). -/
def execMctpFirmwareUpdate (block : Nat) (data : List Byte) (s : State) : Host.Outcome State Fault Refusal :=
  .next (s.onMod (mctpUpdate block data))

/-- JTAG BYPASS (R490). -/
def execTapBypass (tdi : Bool) (s : State) : Host.Outcome State Fault Refusal := .next (s.onMod (tapBypass tdi))

/-- JTAG IDCODE (R490). -/
def execTapIdcode (s : State) : Host.Outcome State Fault Refusal := .next (s.onMod tapId)

/-- JTAG SAMPLE/PRELOAD (R490). -/
def execTapSamplePreload (scan : List Bool) (s : State) : Host.Outcome State Fault Refusal := .next (s.onMod (tapSample scan))

/-- JTAG EXTEST (R490). -/
def execTapExtest (tdi : Bool) (s : State) : Host.Outcome State Fault Refusal := .next (s.onMod (tapExtest tdi))

/-- JTAG CLAMP (R490). -/
def execTapClamp (tdi : Bool) (s : State) : Host.Outcome State Fault Refusal := .next (s.onMod (tapClamp tdi))

/-- JTAG HIGHZ (R490). -/
def execTapHighz (tdi : Bool) (s : State) : Host.Outcome State Fault Refusal := .next (s.onMod (tapHighz tdi))

end Sys2Proof.Machine
end

