-- ==== Sys2Proof/Machine/Control.lean ====
section
/-!
DEFINITION. Control-space reads and writes (00_scope.md R10, R11, R13; 14_partitions_host.md R403 to R406) and the commands that
registers carry. A command that has a row of its own is the act of its register under the reach of the function.
-/
namespace Sys2Proof.Machine

/-! ## Writes by access type (Table 0.4) -/

/-- Bits of a masked update: `v` where the mask is 1, `old` elsewhere. -/
def mixBits (old v mask : Nat) : Nat := Nat.xor old (Nat.land (Nat.xor old v) mask)

/-- A write of a register whose fields follow Table 0.4 alone: RW, W1C, LK and WO1 bits each by its type, and a lock violation
where an ignored LK or WO1 field would have changed (R11). -/
def plainWrite (fn : Fn) (off v : Nat) (m : Mod) : Mod :=
  match regInfo off with
  | none => m
  | some r =>
    let cur := (rd m off).toNat
    let locked := r.lk != 0 && bit (rd m r.lock.1) r.lock.2
    let taken := Nat.land (Nat.xor cur r.reset) r.wo1 != 0
    let mask := Nat.lor r.rw (Nat.lor (if locked then 0 else r.lk) (if taken then 0 else r.wo1))
    let kept := Nat.lor (if locked then r.lk else 0) (if taken then r.wo1 else 0)
    let new := mixBits (mixBits cur v mask) 0 (Nat.land v r.w1c)
    let m := wrN m off new
    if Nat.land (Nat.xor cur v) kept ≠ 0 then audit (setBit m rModErr 0) (fnKey fn) off v 0 0 else m

/-! ## Module registers -/

/-- A write of MOD_RST_CMD (R476). -/
def rstCommand (m : Mod) (cmd : Nat) : Mod := match cmd with | 1 => trigger 1 5 m | 2 => trigger 2 5 m | _ => m

/-- A write of MOD_BOOT_CMD (R487). -/
def bootCommand (m : Mod) (v : Nat) : Mod := if v.testBit 0 then arbService m else m

/-- A write of a MOD_ register. -/
def modWrite (fn : Fn) (off v : Nat) (m : Mod) : Mod :=
  if off = rModEq then modEqWrite m (BitVec.ofNat 64 v)
  else if off = rModEqHead then modEqHead m v
  else if off = rRstCmd then rstCommand m (v % 4)
  else if off = rBootCmd then bootCommand m v
  else plainWrite fn off v m

/-! ## Print engines (R283, R302, R486) -/

/-- A write of PRINT_CTL: one of 1 to enable reads the journal after a warm reset. While that read is refused with retry status or
waits, the write is presented again (R384, log 29). -/
def printCtlWrite (fn : Fn) (p v : Nat) (m : Mod) : Mod :=
  if v.testBit 0 && (prAt m p).warm && rangeBusy m (prCtx m p) (jBase m p) 256 false then
    rangeWake m (prCtx m p) (jBase m p) 256 false
  else
  let m := plainWrite fn (rPrCtl p) v m
  if v.testBit 0 then prEnable m p else m

/-- A write that only Idle takes. -/
def whenIdle (p : Nat) (f : Mod → Mod) (m : Mod) : Mod := if prPhase m p = 0 then f m else prIgnored m p

/-- A write of PRINT_SLATE: the attempt number is that of the slate, and the averages start anew (R306, log 25). -/
def slateWrite (p v : Nat) (m : Mod) : Mod :=
  let m := setFld (wrN m (rPrSlate p) v) (rPrStat p) 15 8 (sget (fun _ => 0) (prAt m p).opened v)
  onPr m p (fun s => { s with emaSet := [] })

/-- A write of PRINT_LSCALE_P (R283). -/
def lscalePWrite (p v : Nat) (m : Mod) : Mod := whenIdle p (fun m => setFld (setFld m (rPrLscaleP p) 7 0 v) (rPrLscale p) 7 0 v) m

/-- A write of PRINT_LSCALE: e_max at any time, e in Idle or Scrapped (R283). -/
def lscaleWrite (p v : Nat) (m : Mod) : Mod :=
  let m := setFld m (rPrLscale p) 15 8 (nbits v 15 8)
  if prPhase m p = 0 ∨ prPhase m p = 6 then setFld m (rPrLscale p) 7 0 (nbits v 7 0)
  else if fld m (rPrLscale p) 7 0 = nbits v 7 0 then m else prIgnored m p

/-- A write of PRINT_MODE_CTL (R302); without a command n takes the write as entries do. -/
def modeWrite (p v : Nat) (m : Mod) : Mod :=
  match nbits v 9 8 with
  | 1 => modeStage m p (nbits v 4 0)
  | 2 => modeWithdraw m p (nbits v 4 0)
  | _ => if modeState m p = 1 ∨ modeState m p = 2 then (if fld m (rPrModeCtl p) 4 0 = nbits v 4 0 then m else prIgnored m p)
         else setFld m (rPrModeCtl p) 4 0 (nbits v 4 0)

/-- A write of PRINT_MODE_SLATE or of an entry: ignored while a change is Staged or Holding. -/
def modeEntryWrite (fn : Fn) (p off v : Nat) (m : Mod) : Mod :=
  if modeState m p = 1 ∨ modeState m p = 2 then prIgnored m p else plainWrite fn off v m

/-- A write of a print-engine register. -/
def printWrite (fn : Fn) (p o v : Nat) (m : Mod) : Mod :=
  let off := printBase p + o
  match o with
  | 0x000 => printCtlWrite fn p v m
  | 0x004 => prCommand m p (v % 16)
  | 0x010 => whenIdle p (slateWrite p v) m
  | 0x018 | 0x038 | 0x098 => whenIdle p (plainWrite fn off v) m
  | 0x030 => whenIdle p (fun m => strCursor (wrN m off v) p) m
  | 0x020 => lscaleWrite p v m
  | 0x02C => lscalePWrite p v m
  | 0x080 => modeEntryWrite fn p off v m
  | 0x088 => modeWrite p v m
  | 0x200 => plainWrite fn off v (onPr m p (fun s => { s with baysSet := true }))
  | _ => if 0x100 ≤ o ∧ o < 0x200 then modeEntryWrite fn p off v m else plainWrite fn off v m

/-! ## Partitions, contexts, ownership -/

/-- A write of PART_BAYS: in Free only (R380). -/
def baysWrite (p v : Nat) (m : Mod) : Mod := if partState m p = 0 then wrN m (rPartBays p) (v % 2 ^ 40) else partIgnored m p

/-- The value the context window shows a function at an offset (Table 14.12): CTX_SEL and CTX_RES are banked, CTX_NEW_PART is one
register (R406). -/
def ctxWinRead (m : Mod) (f o : Nat) : Nat :=
  let s := fnAt m f
  let c := ctxAt m (ctxSel m f)
  match o with
  | 0x00 => s.ctxSel.toNat
  | 0x08 => s.ctxRes.toNat
  | 0x0C => fld m rCtxNewPart 3 0
  | 0x10 => if c.active then 2 ^ 28 + c.part.val * 2 ^ 24 else 0
  | 0x18 => c.root.toNat
  | 0x20 => c.sq.reg.toNat
  | 0x28 => c.cq.reg.toNat
  | 0x30 => c.eq.reg.toNat
  | 0x38 => c.vec.toNat
  | 0x40 => c.invVa.toNat
  | 0x48 => c.invN.toNat
  | 0x4C => c.err.toNat
  | 0x50 => c.eqLost.toNat
  | _ => 0

/-- A write of the context window. Registers of a context that is Free take none (log 29). -/
def ctxWinWrite (fn : Fn) (o v : Nat) (m : Mod) : Mod :=
  let f := fnKey fn
  let s := fnAt m f
  let x := ctxSel m f
  let c := ctxAt m x
  match o with
  | 0x00 => setFn m f { s with ctxSel := BitVec.ofNat 32 (v % 4096) }
  | 0x04 => ctxCommand m fn (v % 8)
  | 0x0C => wrN m rCtxNewPart (v % 16)
  | 0x20 => ctxRingWrite m x .sq (BitVec.ofNat 64 v)
  | 0x28 => ctxRingWrite m x .cq (BitVec.ofNat 64 v)
  | 0x30 => ctxRingWrite m x .eq (BitVec.ofNat 64 v)
  | _ =>
    if !c.active then m else
    match o with
    | 0x18 => setCtx m x { c with root := BitVec.ofNat 64 (nbits v 51 12 * 4096) }
    | 0x38 => setCtx m x { c with vec := BitVec.ofNat 32 (v % 2 ^ 16) }
    | 0x40 => setCtx m x { c with invVa := BitVec.ofNat 64 (nbits v 56 12 * 4096) }
    | 0x48 => setCtx m x { c with invN := BitVec.ofNat 32 v }
    | 0x4C => setCtx m x { c with err := BitVec.ofNat 32 (mixBits c.err.toNat 0 v) }
    | _ => m

/-- A write of PART_CTL: a change of the rollout bit takes effect only where R194 lets it, and is otherwise left out of the write
(log 44). -/
def partCtlWrite (fn : Fn) (p v : Nat) (m : Mod) : Mod :=
  let was := fld m (rPartCtl p) 0 0
  let b := if rolloutFree m p then v % 2 else was
  rolloutSet (setFld (plainWrite fn (rPartCtl p) v m) (rPartCtl p) 0 0 was) p b

/-- A write of a PART_ or CTX_ register. -/
def partWrite (fn : Fn) (off v : Nat) (m : Mod) : Mod :=
  if off < 0x21000 then
    let p := (off - 0x20000) / 0x100
    match off % 0x100 with
    | 0x00 => partCtlWrite fn p v m
    | 0x04 => partCommand m p (v % 4)
    | 0x10 => baysWrite p v m
    | 0x18 => partOwner m p (v % 4096)
    | _ => plainWrite fn off v m
  else if off < 0x22000 then granuleWrite m false (off - 0x21000) (v % 16)
  else if off < 0x23000 then granuleWrite m true (off - 0x22000) (v % 16)
  else ctxWinWrite fn (off - ctxWin) v m

/-! ## Gaffers (R418, R420, R421, R426) -/

/-- A write of GAFFER_CTL: clusters in no partition go to a new free_rung (R418). -/
def gafCtlWrite (fn : Fn) (d v : Nat) (m : Mod) : Mod :=
  let was := freeRung m d
  let m := plainWrite fn (rGafCtl d) v m
  if freeRung m d = was then m else
  (natsFrom (625 * d) 625).foldl (fun m k =>
    if (partOfCluster m k).isNone && !(clAt m k).screenHeld then clRequest m k (freeRung m d) else m) m

/-- The command to enter standby: the conditions of R420, and every Up port is asked to sleep. -/
def standbyCmd (m : Mod) : Mod :=
  let m' := standbyEnter m
  if modState m = 0 ∧ modState m' = 1 then
    ((List.range 6).filter (fun q => portState m' q == 3)).foldl sleepAsk m'
  else m'

/-- A write of GAFFER_MOD_CMD. -/
def gafModCommand (m : Mod) (cmd : Nat) : Mod :=
  match cmd with
  | 1 => standbyCmd m
  | 2 => modWake m
  | 3 => setBit m rGafModErr 0
  | _ => m

/-- A write of a gaffer register. -/
def gafWrite (fn : Fn) (off v : Nat) (m : Mod) : Mod :=
  if off = rGafModCmd then gafModCommand m (v % 4)
  else if off < 0x42000 ∧ off % 0x400 = 0 then gafCtlWrite fn ((off - 0x40000) / 0x400) v m
  else plainWrite fn off v m

/-! ## Fabric, Dailies, memory, clusters, arbiters -/

/-- A write of ZW_REEL_GO (R181, R189). -/
def reelGo (r : Nat) (go : Bool) (m : Mod) : Mod := if go then reelStart m r else reelAbort m r

/-- A write of ZW_CS_GO (R334). -/
def csGo (i : Nat) (go : Bool) (m : Mod) : Mod := if go then csStart m i else csAbort m i

/-- A write of a fabric register: ports follow their enable and the topology. -/
def zwWrite (fn : Fn) (off v : Nat) (m : Mod) : Mod :=
  let o := off - 0x100000
  if o < 0x1000 then
    (let m := plainWrite fn off v m
     if off = rTopo ∨ off = rZwLock then (List.range 6).foldl portEnable m else m)
  else if o < 0x1600 then
    let q := (o - 0x1000) / 0x100
    match o % 0x100 with
    | 0x00 => portEnable (plainWrite fn off v m) q
    | 0x0C => portCommand m q (v % 4)
    | _ => plainWrite fn off v m
  else if 0x2000 ≤ o ∧ o < 0x2C00 ∧ o % 0x100 = 0x1C then grpCommand m ((o - 0x2000) / 0x100) (v % 8)
  else if 0x4000 ≤ o ∧ o < 0x6000 ∧ o % 0x80 = 0x28 then csGo ((o - 0x4000) / 0x80) (v.testBit 0) m
  else if 0x8000 ≤ o ∧ o % 0x80 = 0x20 then reelGo ((o - 0x8000) / 0x80) (v.testBit 0) m
  else plainWrite fn off v m

/-- Projector masks of two partitions overlap. -/
def projOverlap (m : Mod) (p v : Nat) : Bool :=
  (List.range 12).any (fun q => q != p && Nat.land (fld m (rStrProj q) 47 0) v != 0)

/-- A write of DLY_STR_PROJ (R366). -/
def projWrite (fn : Fn) (p v : Nat) (m : Mod) : Mod :=
  if projOverlap m p (v % 2 ^ 48) then setBit m (rStrErr p) 2
  else
    let m := plainWrite fn (rStrProj p) v m
    if fld m (rStrCtl p) 0 0 = 1 then strReconfig m p else m

/-- A write of DLY_STR_CTL: its enable starts or ends the stream; other fields of an enabled stream are configuration (R355,
R360). -/
def strCtlWrite (fn : Fn) (p v : Nat) (m : Mod) : Mod :=
  let was := (rd m (rStrCtl p)).toNat
  let m := plainWrite fn (rStrCtl p) v m
  if !was.testBit 0 then (if v.testBit 0 then strEnable m p else m)
  else if !v.testBit 0 then strDisable m p
  else strReconfig m p

/-- DLY_STR_STRIDE follows the configuration (R374). -/
def strideShown (m : Mod) (p : Nat) : Mod := wrN m (rStrStride p) (strStride m p % 2 ^ 32)

/-- A write of a stream or framing register (R360), from which the stride is computed (R374). -/
def strWrite (fn : Fn) (p o v : Nat) (m : Mod) : Mod :=
  let off := strBase p + o
  match o with
  | 0x00 => strideShown (strCtlWrite fn p v m) p
  | 0x48 => projWrite fn p v m
  | _ =>
    if 0x58 ≤ o ∧ o < 0x80 then plainWrite fn off v m else
    let m := strideShown (plainWrite fn off v m) p
    if fld m (rStrCtl p) 0 0 = 1 then strReconfig m p else m

/-- A write of DLY_NVME_CTL (R350): a write of 1 to enable initialises the controller, and one of 0 turns the port off. -/
def nvCtlWrite (fn : Fn) (q v : Nat) (m : Mod) : Mod :=
  let was := fld m (rNvCtl q) 0 0
  let m := plainWrite fn (rNvCtl q) v m
  if v.testBit 0 then nvEnable m q 1 else if was = 1 then nvEnable m q 0 else m

/-- A write of a Dailies register. -/
def dlyWrite (fn : Fn) (off v : Nat) (m : Mod) : Mod :=
  let o := off - 0x200000
  if 0x1000 ≤ o ∧ o < 0x1C00 then strWrite fn ((o - 0x1000) / 0x100) (o % 0x100) v m
  else if 0x100 ≤ o ∧ o < 0x200 ∧ o % 0x80 = 0 then nvCtlWrite fn ((o - 0x100) / 0x80) v m
  else plainWrite fn off v m

/-- A write of MEM_FAR_CFG: its fields are applied and checked when the lock bit is first written 1 (R239). -/
def farCfgWrite (fn : Fn) (v : Nat) (m : Mod) : Mod :=
  let was := bit (rd m rFarCfg) 31
  let m := plainWrite fn rFarCfg v m
  if !was && v.testBit 31 then farLock m else m

/-- A write of a memory-tier register. -/
def memRegWrite (fn : Fn) (off v : Nat) (m : Mod) : Mod :=
  let o := off - 0x300000
  if off = rFarCfg then farCfgWrite fn v m
  else if 0x1000 ≤ o ∧ o < 0x1C00 ∧ o % 0x100 = 0x10 then engineCommand m ((o - 0x1000) / 0x100) (v % 8)
  else plainWrite fn off v m

/-- A write of DOLLY_CH_CTL: ctx only while the channel is Off (Table 8.8). -/
def chCtlWrite (fn : Fn) (k ch v : Nat) (m : Mod) : Mod :=
  let was := fld m (rChCtl k ch) 27 16
  let off := decide (chState m k ch = 0)
  let m := plainWrite fn (rChCtl k ch) (if off then v else nput (v % 2 ^ 32) 27 16 was) m
  if off then m else cmdIgnored m k ch

/-- A write of a cluster-block register. -/
def clusterWrite (fn : Fn) (off v : Nat) (m : Mod) : Mod :=
  let k := 625 * ((off - 0x01000000) / 0x100000) + off % 0x100000 / 0x400
  let o := off % 0x400
  if o < 0x300 then
    match o % 0x30 with
    | 0x00 => chCtlWrite fn k (o / 0x30) v m
    | 0x04 => chCommand m k (o / 0x30) (v % 8)
    | _ => plainWrite fn off v m
  else match o with
  | 0x340 => carveWrite m k (v % 16)
  | 0x344 => writeClCtl m k v
  | _ => plainWrite fn off v m

/-- A write of ARB_CMD. -/
def arbCommand (b v : Nat) (m : Mod) : Mod := if v.testBit 0 then arbZero m b else m

/-! ## The whole map -/

/-- A write of a whole register, whose reach has been checked. -/
def writeReg (fn : Fn) (off v : Nat) (m : Mod) : Mod :=
  match arbOfOffset off with
  | some b => if off = rArbCmd b then arbCommand b v m else plainWrite fn off v m
  | none =>
    if off < 0x10000 then modWrite fn off v m
    else if off < 0x20000 then printWrite fn ((off - 0x10000) / 0x400) (off % 0x400) v m
    else if off < 0x40000 then partWrite fn off v m
    else if off < 0x50000 then gafWrite fn off v m
    else if off < 0x60000 then (if off = rRepCmd then repCommand m (v % 4) else plainWrite fn off v m)
    else if off < 0x100000 then plainWrite fn off v m
    else if off < 0x200000 then zwWrite fn off v m
    else if off < 0x300000 then dlyWrite fn off v m
    else if off < 0x1000000 then memRegWrite fn off v m
    else clusterWrite fn off v m

/-- Whole hours since the least recently screened cluster completed a pass, saturating. -/
def screenOldest (m : Mod) : Nat :=
  let last := (List.range 5000).foldl (fun a k => min a (clAt m k).lastPass) m.hclk
  min ((m.hclk - last) / (3600 * 50000000)) m32

/-- The value a register shows to a function: as stored, or as the module computes it. -/
def readReg (fn : Fn) (off : Nat) (m : Mod) : Nat :=
  match arbOfOffset off with
  | some b => if h : b < 64 then (if off = rArbMasked b then arbMaskedBits m ⟨b, h⟩ else (rd m off).toNat) else 0
  | none =>
    if off < 0x10000 then
      (if off = rModEq then m.modEq.reg.toNat else if off = rModEqHead then m.modEq.head
       else if off = rModEqTail then m.modEq.tail else (rd m off).toNat)
    else if off < 0x20000 then
      let p := (off - 0x10000) / 0x400
      if off = rPrBr p 0 0 then brBays m p 0 else if off = rPrEpoch p then grpEpoch m p else (rd m off).toNat
    else if ctxWin ≤ off ∧ off < 0x40000 then ctxWinRead m (fnKey fn) (off - ctxWin)
    else if off = rGafHclk then m.hclk % 2 ^ 64
    else if off = rRepRec then repSelected m
    else if off = rScrOldest then screenOldest m
    else if 0x70000 ≤ off ∧ off < 0x80000 then (if variant m = 1 then (rd m off).toNat else 0)
    else if 0x101000 ≤ off ∧ off < 0x101600 then
      let q := (off - 0x101000) / 0x100
      if off = rPortSlept q ∧ portState m q = 4 then satAdd 48 (rd m off).toNat (m.hclk - (portAt m q).sleepFrom) else (rd m off).toNat
    else if 0x201000 ≤ off ∧ off < 0x202000 then
      let p := (off - 0x201000) / 0x100
      if off = rStrEpoch p then (rd m (rPrCur p)).toNat / max 1 (strN m p) else (rd m off).toNat
    else if 0x1000000 ≤ off then
      let k := 625 * ((off - 0x01000000) / 0x100000) + off % 0x100000 / 0x400
      let v := (rd m off).toNat
      if off = rGafClCtl k then v + fld m (rGafClStat k) 5 3
      else if off = rGafClLow k then (if clRung m k = 0 then v else satAdd 48 v (m.hclk - (clAt m k).lowSince)) else v
    else (rd m off).toNat

/-- The bits of a register that a write by some function can act on. -/
def writable (off : Nat) : Nat :=
  match regInfo off with
  | some r => if r.cmd then m64 else Nat.lor (Nat.lor r.rw r.w1c) (Nat.lor r.lk r.wo1)
  | none => 0

/-- A write of a whole register under a function's reach (R405): fields withheld from a VF keep their value, and a value that
differs in one is a denied access. -/
def putReg (fn : Fn) (mask off v : Nat) (m : Mod) : Mod :=
  let w := writable off
  if w = 0 then m
  else if Nat.land w mask = 0 then denyAccess m fn off v
  else
    let held := Nat.xor w (Nat.land w mask)
    let cur := readReg fn off m
    let m := if Nat.land (Nat.xor v cur) held ≠ 0 then denyAccess m fn off v else m
    writeReg fn off (mixBits v cur held) m

/-- A held low half of a register, and the function's others. -/
def takeLow (s : FnSt) (o : Nat) : Option W32 × FnSt :=
  ((s.lowHeld.find? (fun e => e.1 == o)).map (·.2), { s with lowHeld := s.lowHeld.filter (fun e => e.1 != o) })

/-- The doorbell page of a context follows control space in the offsets of the rows REGISTER_READ and REGISTER_WRITE: BAR2 begins at
64 MiB (log 33). -/
def bar2Base : Nat := 0x04000000

/-- An offset of BAR2: its context and its place in the page. -/
def bar2At (off : Nat) : Option (Nat × Nat) :=
  if bar2Base ≤ off ∧ off < bar2Base + 0x1000000 then some ((off - bar2Base) / 4096, off % 4096) else none

/-- A write to a doorbell page (R396): refused for a page that is not the writer's; an index, or an offset that takes no write. -/
def pageWrite (fn : Fn) (x o size val : Nat) (m : Mod) : Mod :=
  let v := val % 2 ^ (8 * size)
  if size = 4 ∧ o = 0x000 then dbSqTail fn x v m
  else if size = 4 ∧ o = 0x008 then dbCqHead fn x v m
  else if size = 4 ∧ o = 0x010 then dbEqHead fn x v m
  else if !fnThere m fn then m
  else awake (fun m => if dbReach m fn x then m else dbBad m fn x o v) m

/-- A read of a doorbell page: the module's indices, and zero elsewhere; a page that is not the reader's reads zero (log 33). -/
def pageRead (m : Mod) (fn : Fn) (x o size : Nat) : Nat :=
  let c := ctxAt m x
  if size ≠ 4 ∨ !dbReach m fn x then 0
  else match o with
    | 0x100 => c.sq.head
    | 0x104 => c.cq.tail
    | 0x108 => c.eq.tail
    | _ => 0

/-- A control-space write (R404, R405), or a write to a doorbell page. -/
def controlWrite (fn : Fn) (off size val : Nat) (m : Mod) : Mod :=
  match bar2At off with
  | some (x, o) => pageWrite fn x o size val m
  | none =>
  if !fnThere m fn then m else
  let f := fnKey fn
  let a := accessAt off size
  let v := val % 2 ^ (8 * size)
  match a, reachMask m fn (a.base off) with
  | .bad, _ => setBit m rModErr 2
  | _, none => denyAccess m fn off v
  | .reserved, some _ => m
  | .whole o, some k => putReg fn k o v (if size = 8 then setFn m f (takeLow (fnAt m f) o).2 else m)
  | .low o, some k =>
    if writable o = 0 then m
    else if Nat.land (writable o) k = 0 then denyAccess m fn off v
    else let s := (takeLow (fnAt m f) o).2; setFn m f { s with lowHeld := (o, BitVec.ofNat 32 v) :: s.lowHeld }
  | .high o, some k =>
    let (low, s) := takeLow (fnAt m f) o
    let lo := match low with | some l => l.toNat | none => readReg fn o m % 2 ^ 32
    putReg fn k o (lo + v * 2 ^ 32) (setFn m f s)
  | .lanes o, some k =>
    if k = 0 then denyAccess m fn off v
    else (List.range 4).foldl (fun m i => if regSize (o + i) = 1 then putReg fn k (o + i) (nbits v (8 * i + 7) (8 * i)) m else m) m

/-- The act of a register that a row writes: it happens if the function reaches the register and may write it (R403, R405). -/
def regCommand (fn : Fn) (off val : Nat) (act : Mod → Mod) (m : Mod) : Mod :=
  if !fnThere m fn then m else
  match reachMask m fn off with
  | some k => if k = 0 then denyAccess m fn off val else act m
  | none => denyAccess m fn off val

/-! ## Reads (R404, R471) -/

/-- The block an offset is latched with: its first offset and the offsets of its words, first word first. -/
def blockOf (off : Nat) : Option (List Nat) :=
  let words (base n : Nat) : List Nat := (List.range n).map (fun i => base + 8 * i)
  if 0x10000 ≤ off ∧ off < 0x13000 ∧ 0x340 ≤ off % 0x400 ∧ off % 0x400 < 0x380 then some (words (off / 0x400 * 0x400 + 0x340) 8)
  else if rMtRec 0 ≤ off ∧ off < rMtRec 24 then some (words (rMtRec 0) 24)
  else if 0x61000 ≤ off ∧ off < 0x62000 then some (words (off / 128 * 128) 16)
  else if rMtAppSeq ≤ off ∧ off < rMtAppTot 0 then some (words rMtAppSeq 14)
  else none

/-- A read of a register of 8 bytes through the block latch: word 0 latches the block. -/
def blockRead (fn : Fn) (o : Nat) (m : Mod) : W64 × Mod :=
  let f := fnKey fn
  match blockOf o with
  | none => (BitVec.ofNat 64 (readReg fn o m), m)
  | some ws =>
    let s := fnAt m f
    if ws.headD 0 = o then
      let latched := ws.map (fun w => (w, BitVec.ofNat 64 (readReg fn w m)))
      ((latched.headD (0, 0)).2, setFn m f { s with block := latched ++ s.block.filter (fun e => !ws.contains e.1) })
    else match s.block.find? (fun e => e.1 == o) with
      | some e => (e.2, m)
      | none => (BitVec.ofNat 64 (readReg fn o m), m)

/-- The value a control-space read returns, and what it latches (R404). -/
def readValue (fn : Fn) (off size : Nat) (m : Mod) : Nat × Mod :=
  let f := fnKey fn
  let a := accessAt off size
  match a, reachMask m fn (a.base off) with
  | .bad, _ => (m32, setBit m rModErr 2)
  | _, none => (0, denyAccess m fn off 0)
  | .reserved, some _ => (0, m)
  | .whole o, some _ => if size = 8 then (let (v, m) := blockRead fn o m; (v.toNat, m)) else (readReg fn o m, m)
  | .low o, some _ =>
    let (v, m) := blockRead fn o m
    let s := fnAt m f
    (v.toNat % 2 ^ 32, setFn m f { s with highLatched := (o, BitVec.ofNat 32 (v.toNat / 2 ^ 32)) :: s.highLatched.filter (fun e => e.1 != o) })
  | .high o, some _ =>
    let s := fnAt m f
    match s.highLatched.find? (fun e => e.1 == o) with
    | some e => (e.2.toNat, setFn m f { s with highLatched := s.highLatched.filter (fun e => e.1 != o) })
    | none => let (v, m) := blockRead fn o m; (v.toNat / 2 ^ 32, m)
  | .lanes o, some _ =>
    (leNat ((List.range 4).map (fun i => if regSize (o + i) = 1 then BitVec.ofNat 8 (readReg fn (o + i) m) else 0)), m)

/-- A control-space read, or one of a doorbell page: what it returns stands in the function's read data. -/
def controlRead (fn : Fn) (off size : Nat) (m : Mod) : Mod :=
  if !fnThere m fn then m else
  let (v, m) := match bar2At off with
    | some (x, o) => (pageRead m fn x o size, m)
    | none => readValue fn off size m
  setFn m (fnKey fn) { fnAt m (fnKey fn) with readData := leBytes size v, poisoned := false }

/-- A read that includes byte 0 of a block. -/
def latchRead (fn : Fn) (off size : Nat) (m : Mod) : Mod :=
  if (blockOf off).any (fun ws => ws.headD 0 == off) then controlRead fn off size m else m

/-- MCTP Read Register (R489): four bytes as the PF reads them. -/
def mctpReadReg (off : Nat) : Mod → Mod :=
  mctpVendor false (fun m =>
    let (v, m) := readValue .pf off 4 m
    mctpReply m (0 :: leBytes 4 v))

/-! ## Slate-bound changes take effect (R304) -/

/-- A staged entry is written as (old & ~mask) | (value & mask) with the reach of the partition's VF (R386, log 25). The rollout bit
changes here although a take runs (R194, R304). -/
def modeEntry (p : Part) (off mask v : Nat) (m : Mod) : Mod :=
  let fn := Fn.vf p
  let reg (o : Nat) (place : Nat) (m : Mod) : Mod :=
    match vfMask m p.val o with
    | none => denyAccess m fn o v
    | some k =>
      let new := mixBits (readReg fn o m) (v * 2 ^ place) (mask * 2 ^ place)
      let m := putReg fn k o new m
      if o = rPartCtl p.val then rolloutSet m p.val (new % 2) else m
  match accessAt off 4 with
  | .whole o | .low o => reg o 0 m
  | .high o => reg o 32 m
  | .lanes o => (List.range 4).foldl (fun m i =>
      if regSize (o + i) = 1 then
        match vfMask m p.val o with
        | none => denyAccess m fn o v
        | some k => putReg fn k (o + i) (mixBits (readReg fn (o + i) m) (nbits v (8 * i + 7) (8 * i)) (nbits mask (8 * i + 7) (8 * i))) m
      else m) m
  | _ => m

/-- Every entry in ascending k. -/
def modeApply (p : Part) (m : Mod) : Mod :=
  (List.range (fld m (rPrModeCtl p.val) 4 0)).foldl (fun m k =>
    modeEntry p (rd m (rPrMeOff p.val k)).toNat (rd m (rPrMeMask p.val k)).toNat (rd m (rPrMeVal p.val k)).toNat m) m

/-! ## The rows -/

/-- A write of a ring's register, whole. -/
def ringRegWrite (fn : Fn) (ring : RingReg) (val : W64) (m : Mod) : Mod :=
  let off := match ring with | .sq => ctxWin + 0x20 | .cq => ctxWin + 0x28 | .eq => ctxWin + 0x30 | .modEq => rModEq
  regCommand fn off val.toNat (fun m => match ring with
    | .modEq => modEqWrite m val
    | r => ctxRingWrite m (ctxSel m (fnKey fn)) r val) m

/-- A control-space write (R11, R404, R405). -/
def execRegisterWrite (fn : Fn) (off size : Nat) (val : W64) (s : State) : Host.Outcome State Fault Refusal :=
  .next (s.onMod (controlWrite fn off size val.toNat))

/-- A control-space read (R404, R405). -/
def execRegisterRead (fn : Fn) (off size : Nat) (s : State) : Host.Outcome State Fault Refusal :=
  .next (s.onMod (controlRead fn off size))

/-- A read of byte 0 of a block (R404, R471). -/
def execBlockLatchRead (fn : Fn) (off size : Nat) (s : State) : Host.Outcome State Fault Refusal :=
  .next (s.onMod (latchRead fn off size))

/-- MCTP Read Register (R489). -/
def execMctpReadRegister (off : Nat) (s : State) : Host.Outcome State Fault Refusal := .next (s.onMod (mctpReadReg off))

/-- DOLLY_CH_CMD arm (R227). -/
def execDollyCmdArm (fn : Fn) (k : Cluster) (ch : Fin 16) (s : State) : Host.Outcome State Fault Refusal :=
  .next (s.onMod (regCommand fn (rChCmd k.val ch.val) 1 (fun m => chCommand m k.val ch.val 1)))

/-- DOLLY_CH_CMD stop (R224). -/
def execDollyCmdStop (fn : Fn) (k : Cluster) (ch : Fin 16) (s : State) : Host.Outcome State Fault Refusal :=
  .next (s.onMod (regCommand fn (rChCmd k.val ch.val) 2 (fun m => chCommand m k.val ch.val 2)))

/-- DOLLY_CH_CMD disable (R225). -/
def execDollyCmdDisable (fn : Fn) (k : Cluster) (ch : Fin 16) (s : State) : Host.Outcome State Fault Refusal :=
  .next (s.onMod (regCommand fn (rChCmd k.val ch.val) 3 (fun m => chCommand m k.val ch.val 3)))

/-- DOLLY_CH_CMD resume (R219). -/
def execDollyCmdResume (fn : Fn) (k : Cluster) (ch : Fin 16) (s : State) : Host.Outcome State Fault Refusal :=
  .next (s.onMod (regCommand fn (rChCmd k.val ch.val) 4 (fun m => chCommand m k.val ch.val 4)))

/-- A write of DOLLY_CH_CTL (Table 8.8). -/
def execDollyChCtlWrite (fn : Fn) (k : Cluster) (ch : Fin 16) (val : W32) (s : State) : Host.Outcome State Fault Refusal :=
  .next (s.onMod (regCommand fn (rChCtl k.val ch.val) val.toNat (chCtlWrite fn k.val ch.val val.toNat)))

/-- ARB_CMD zeroes the counters of a block (Table 10.6); the cluster-store arbiters have no such register. -/
def execArbCmdZero (fn : Fn) (a : ArbId) (s : State) : Host.Outcome State Fault Refusal :=
  .next (s.onMod (match arbBlock a with | some b => regCommand fn (rArbCmd b) 1 (arbCommand b 1) | none => id))

/-- ARB_LOCK locks the LK registers of a block (R280). -/
def execArbLockWrite (fn : Fn) (a : ArbId) (s : State) : Host.Outcome State Fault Refusal :=
  .next (s.onMod (match arbBlock a with | some b => regCommand fn (rArbLock b) 1 (plainWrite fn (rArbLock b) 1) | none => id))

/-- ZW_REEL_GO.go written 1 (R181). -/
def execReelGoStart (fn : Fn) (r : Fin 16) (s : State) : Host.Outcome State Fault Refusal :=
  .next (s.onMod (regCommand fn (rRlGo r.val) 1 (reelGo r.val true)))

/-- ZW_REEL_GO.go written 0 (R189). -/
def execReelGoAbort (fn : Fn) (r : Fin 16) (s : State) : Host.Outcome State Fault Refusal :=
  .next (s.onMod (regCommand fn (rRlGo r.val) 0 (reelGo r.val false)))

/-- ZW_CS_GO.go written 1 (R334). -/
def execCsGoStart (fn : Fn) (i : Stream) (s : State) : Host.Outcome State Fault Refusal :=
  .next (s.onMod (regCommand fn (rCsGo i.val) 1 (csGo i.val true)))

/-- ZW_CS_GO.go written 0 (R334). -/
def execCsGoAbort (fn : Fn) (i : Stream) (s : State) : Host.Outcome State Fault Refusal :=
  .next (s.onMod (regCommand fn (rCsGo i.val) 0 (csGo i.val false)))

/-- ZW_PORT_CMD written 1 (R346). -/
def execPortCmdRetrain (fn : Fn) (q : Port) (s : State) : Host.Outcome State Fault Refusal :=
  .next (s.onMod (regCommand fn (rPortCmd q.val) 1 (fun m => portCommand m q.val 1)))

/-- ZW_PORT_CMD written 2 (R346). -/
def execPortCmdWake (fn : Fn) (q : Port) (s : State) : Host.Outcome State Fault Refusal :=
  .next (s.onMod (regCommand fn (rPortCmd q.val) 2 (fun m => portCommand m q.val 2)))

/-- ZW_PORT_CMD written 3 (R346). -/
def execPortCmdSleepNow (fn : Fn) (q : Port) (s : State) : Host.Outcome State Fault Refusal :=
  .next (s.onMod (regCommand fn (rPortCmd q.val) 3 (fun m => portCommand m q.val 3)))

/-- ZW_GRP_CMD written 1 (R345). -/
def execGroupForm (fn : Fn) (p : Part) (s : State) : Host.Outcome State Fault Refusal :=
  .next (s.onMod (regCommand fn (rGrpCmd p.val) 1 (fun m => grpCommand m p.val 1)))

/-- ZW_GRP_CMD written 2 (R345). -/
def execGroupReform (fn : Fn) (p : Part) (s : State) : Host.Outcome State Fault Refusal :=
  .next (s.onMod (regCommand fn (rGrpCmd p.val) 2 (fun m => grpCommand m p.val 2)))

/-- ZW_GRP_CMD written 3 (R345). -/
def execGroupLeave (fn : Fn) (p : Part) (s : State) : Host.Outcome State Fault Refusal :=
  .next (s.onMod (regCommand fn (rGrpCmd p.val) 3 (fun m => grpCommand m p.val 3)))

/-- ZW_GRP_CMD written 4 (R345). -/
def execGroupForcedReform (fn : Fn) (p : Part) (s : State) : Host.Outcome State Fault Refusal :=
  .next (s.onMod (regCommand fn (rGrpCmd p.val) 4 (fun m => grpCommand m p.val 4)))

/-- A vote result arrives, and the engine prints (R295, R304). -/
def execVoteResult (p : Part) (x : VoteMsg) (s : State) : Host.Outcome State Fault Refusal :=
  .next (s.onMod (voteResultIn p.val x (modeApply p)))

/-- PRINT_CMD open (R285). -/
def execPrintOpen (fn : Fn) (p : Part) (s : State) : Host.Outcome State Fault Refusal :=
  .next (s.onMod (regCommand fn (rPrCmd p.val) 1 (fun m => prCommand m p.val 1)))

/-- PRINT_CMD close (R286). -/
def execPrintClose (fn : Fn) (p : Part) (s : State) : Host.Outcome State Fault Refusal :=
  .next (s.onMod (regCommand fn (rPrCmd p.val) 2 (fun m => prCommand m p.val 2)))

/-- PRINT_CMD skip (R291). -/
def execPrintSkip (fn : Fn) (p : Part) (s : State) : Host.Outcome State Fault Refusal :=
  .next (s.onMod (regCommand fn (rPrCmd p.val) 3 (fun m => prCommand m p.val 3)))

/-- PRINT_CMD release (R290). -/
def execPrintRelease (fn : Fn) (p : Part) (s : State) : Host.Outcome State Fault Refusal :=
  .next (s.onMod (regCommand fn (rPrCmd p.val) 4 (fun m => prCommand m p.val 4)))

/-- PRINT_CTL written with enable 1 (R486). -/
def execPrintEnableWrite (fn : Fn) (p : Part) (val : W32) (s : State) : Host.Outcome State Fault Refusal :=
  .next (s.onMod (regCommand fn (rPrCtl p.val) val.toNat (printCtlWrite fn p.val (nput val.toNat 0 0 1))))

/-- A write of PRINT_LSCALE_P (R283). -/
def execPrintLscalePWrite (fn : Fn) (p : Part) (val : W32) (s : State) : Host.Outcome State Fault Refusal :=
  .next (s.onMod (regCommand fn (rPrLscaleP p.val) val.toNat (lscalePWrite p.val val.toNat)))

/-- PRINT_MODE_CTL stage (R302). -/
def execModeStage (fn : Fn) (p : Part) (n : W32) (s : State) : Host.Outcome State Fault Refusal :=
  .next (s.onMod (regCommand fn (rPrModeCtl p.val) n.toNat (fun m => modeStage m p.val (n.toNat % 32))))

/-- PRINT_MODE_CTL withdraw (R302). -/
def execModeWithdraw (fn : Fn) (p : Part) (n : W32) (s : State) : Host.Outcome State Fault Refusal :=
  .next (s.onMod (regCommand fn (rPrModeCtl p.val) n.toNat (fun m => modeWithdraw m p.val (n.toNat % 32))))

/-- MEM_SB_CMD start (R257). -/
def execSbStart (fn : Fn) (p : Part) (s : State) : Host.Outcome State Fault Refusal :=
  .next (s.onMod (regCommand fn (rSbCmd p.val) 1 (fun m => engineCommand m p.val 1)))

/-- MEM_SB_CMD stop (R257). -/
def execSbStop (fn : Fn) (p : Part) (s : State) : Host.Outcome State Fault Refusal :=
  .next (s.onMod (regCommand fn (rSbCmd p.val) 2 (fun m => engineCommand m p.val 2)))

/-- MEM_SB_CMD resume (R257). -/
def execSbResume (fn : Fn) (p : Part) (s : State) : Host.Outcome State Fault Refusal :=
  .next (s.onMod (regCommand fn (rSbCmd p.val) 3 (fun m => engineCommand m p.val 3)))

/-- A write of MEM_CL_CARVE (R247). -/
def execMemClCarveWrite (fn : Fn) (k : Cluster) (val : W32) (s : State) : Host.Outcome State Fault Refusal :=
  .next (s.onMod (regCommand fn (rClCarve k.val) val.toNat (fun m => carveWrite m k.val (val.toNat % 16))))

/-- MEM_FAR_CFG written with the lock bit (R239). -/
def execMemFarCfgLock (fn : Fn) (val : W32) (s : State) : Host.Outcome State Fault Refusal :=
  .next (s.onMod (regCommand fn (rFarCfg) val.toNat (farCfgWrite fn (nput val.toNat 31 31 1))))

/-- PART_CMD written 1 (R381). -/
def execPartSetup (fn : Fn) (p : Part) (s : State) : Host.Outcome State Fault Refusal :=
  .next (s.onMod (regCommand fn (rPartCmd p.val) 1 (fun m => partCommand m p.val 1)))

/-- PART_CMD written 2 (R382). -/
def execPartRelease (fn : Fn) (p : Part) (s : State) : Host.Outcome State Fault Refusal :=
  .next (s.onMod (regCommand fn (rPartCmd p.val) 2 (fun m => partCommand m p.val 2)))

/-- A write of PART_OWNER (R383). -/
def execPartOwnerWrite (fn : Fn) (p : Part) (val : W32) (s : State) : Host.Outcome State Fault Refusal :=
  .next (s.onMod (regCommand fn (rPartOwner p.val) val.toNat (fun m => partOwner m p.val (val.toNat % 4096))))

/-- A write of an ownership entry (R384); HBM has 768 of them. -/
def execGranuleOwnerWrite (fn : Fn) (far : Bool) (g : Fin 4096) (val : Byte) (s : State) :
    Host.Outcome State Fault Refusal :=
  .next (s.onMod (regCommand fn (rGranule far g.val) val.toNat (fun m => if far || decide (g.val < 768) then granuleWrite m far g.val (val.toNat % 16) else m)))

/-- CTX_CMD create (R387). -/
def execCtxCreate (fn : Fn) (s : State) : Host.Outcome State Fault Refusal :=
  .next (s.onMod (regCommand fn (ctxWin + 4) 1 (fun m => ctxCommand m fn 1)))

/-- CTX_CMD destroy (R389). -/
def execCtxDestroy (fn : Fn) (s : State) : Host.Outcome State Fault Refusal :=
  .next (s.onMod (regCommand fn (ctxWin + 4) 2 (fun m => ctxCommand m fn 2)))

/-- CTX_CMD invalidate (R392). -/
def execCtxInvalidate (fn : Fn) (s : State) : Host.Outcome State Fault Refusal :=
  .next (s.onMod (regCommand fn (ctxWin + 4) 3 (fun m => ctxCommand m fn 3)))

/-- A write of CTX_SQ, CTX_CQ, CTX_EQ or MOD_EQ (R395). -/
def execRingRegisterWrite (fn : Fn) (ring : RingReg) (val : W64) (s : State) : Host.Outcome State Fault Refusal :=
  .next (s.onMod (ringRegWrite fn ring val))

/-- A write of GAFFER_CL_CTL (R413). -/
def execClRungRequest (fn : Fn) (k : Cluster) (req : W32) (s : State) : Host.Outcome State Fault Refusal :=
  .next (s.onMod (regCommand fn (rGafClCtl k.val) req.toNat (fun m => writeClCtl m k.val req.toNat)))

/-- GAFFER_CL_CTL.req written 0, its other fields as they are (R414). -/
def execClWake (fn : Fn) (k : Cluster) (s : State) : Host.Outcome State Fault Refusal :=
  .next (s.onMod (regCommand fn (rGafClCtl k.val) 0 (fun m => writeClCtl m k.val (nput (rd m (rGafClCtl k.val)).toNat 2 0 0))))

/-- GAFFER_MOD_CMD written 1 (R420). -/
def execStandbyEnter (fn : Fn) (s : State) : Host.Outcome State Fault Refusal :=
  .next (s.onMod (regCommand fn (rGafModCmd) 1 (fun m => gafModCommand m 1)))

/-- GAFFER_MOD_CMD written 2 (R421). -/
def execStandbyLeave (fn : Fn) (s : State) : Host.Outcome State Fault Refusal :=
  .next (s.onMod (regCommand fn (rGafModCmd) 2 (fun m => gafModCommand m 2)))

/-- GAFFER_MOD_LOCK written 1 (R426). -/
def execGafferModLockWrite (fn : Fn) (s : State) : Host.Outcome State Fault Refusal :=
  .next (s.onMod (regCommand fn (rGafModLock) 1 (plainWrite fn rGafModLock 1)))

/-- REPAIR_CMD add (R432). -/
def execRepairAdd (fn : Fn) (s : State) : Host.Outcome State Fault Refusal :=
  .next (s.onMod (regCommand fn (rRepCmd) 1 (fun m => repCommand m 1)))

/-- REPAIR_CMD apply (R435). -/
def execRepairApply (fn : Fn) (s : State) : Host.Outcome State Fault Refusal :=
  .next (s.onMod (regCommand fn (rRepCmd) 2 (fun m => repCommand m 2)))

/-- A write of TELEM_ALARM_HEAD (R453). -/
def execTelemAlarmHeadWrite (fn : Fn) (val : W32) (s : State) : Host.Outcome State Fault Refusal :=
  .next (s.onMod (regCommand fn (rAlHead) val.toNat (plainWrite fn rAlHead val.toNat)))

/-- MOD_RST_CMD cold (R476). -/
def execModRstCmdCold (fn : Fn) (s : State) : Host.Outcome State Fault Refusal :=
  .next (s.onMod (regCommand fn (rRstCmd) 1 (fun m => rstCommand m 1)))

/-- MOD_RST_CMD warm (R476). -/
def execModRstCmdWarm (fn : Fn) (s : State) : Host.Outcome State Fault Refusal :=
  .next (s.onMod (regCommand fn (rRstCmd) 2 (fun m => rstCommand m 2)))

/-- MOD_BOOT_CMD.service (R487). -/
def execModBootService (fn : Fn) (s : State) : Host.Outcome State Fault Refusal :=
  .next (s.onMod (regCommand fn (rBootCmd) 1 (fun m => bootCommand m 1)))

/-- A write of DLY_NVME_CTL (R350). -/
def execNvmeEnable (fn : Fn) (q : Fin 2) (val : W32) (s : State) : Host.Outcome State Fault Refusal :=
  .next (s.onMod (regCommand fn (rNvCtl q.val) val.toNat (nvCtlWrite fn q.val val.toNat)))

/-- DLY_STR_CTL written with enable 1 (R355). -/
def execDlyStrEnable (fn : Fn) (p : Part) (val : W32) (s : State) : Host.Outcome State Fault Refusal :=
  .next (s.onMod (regCommand fn (rStrCtl p.val) val.toNat (strCtlWrite fn p.val (nput val.toNat 0 0 1))))

/-- DLY_STR_CTL written with enable 0 (R360). -/
def execDlyStrDisable (fn : Fn) (p : Part) (val : W32) (s : State) : Host.Outcome State Fault Refusal :=
  .next (s.onMod (regCommand fn (rStrCtl p.val) val.toNat (strCtlWrite fn p.val (nput val.toNat 0 0 0))))

/-- A write within the block of stream p (R360). -/
def execDlyStrConfigWrite (fn : Fn) (p : Part) (off size : Nat) (val : W64) (s : State) : Host.Outcome State Fault Refusal :=
  .next (s.onMod (if off < 0x100 then controlWrite fn (strBase p.val + off) size val.toNat else id))

/-- A write of DLY_STR_PROJ (R366). -/
def execDlyProjWrite (fn : Fn) (p : Part) (val : W64) (s : State) : Host.Outcome State Fault Refusal :=
  .next (s.onMod (regCommand fn (rStrProj p.val) val.toNat (projWrite fn p.val val.toNat)))

end Sys2Proof.Machine
end

