-- ==== Sys2Proof/Machine/Moves.lean ====
section
/-!
DEFINITION. The move instructions and the neighbour links (04_octix_isa.md R115 to R120, 03_octix_core.md R75, R88 to R91).
-/
namespace Sys2Proof.Machine

/-- The first of these values that is not a multiple of 64. -/
def misaligned (vs : List Nat) : Option Nat := vs.find? (fun v => v % 64 != 0)

/-- Registers of a base. -/
def baseRegs : Base → List SReg
  | .reg r => [r]
  | .gen _ => []

/-- The core a selector names, its position at the receiver (R88, R91): 0 to 15 the cores of its cluster, 16 to 19 the
edges from the east, west, south and north. -/
def pushTarget (c sel : Nat) : Option (Nat × Nat) :=
  let k := clusterOf c
  let l := c % 16
  let die := k / 625
  let row := k % 625 / 25
  let col := k % 25
  let core (row col l : Nat) : Nat := 16 * (625 * die + 25 * row + col) + l
  if sel < 16 then some (16 * k + sel, l)
  else match sel with
    | 16 => if l % 4 = 3 ∧ col < 24 then some (core row (col + 1) (l - 3), 17) else none
    | 17 => if l % 4 = 0 ∧ 0 < col then some (core row (col - 1) (l + 3), 16) else none
    | 18 => if l / 4 = 3 ∧ row < 24 then some (core (row + 1) col (l - 12), 19) else none
    | 19 => if l / 4 = 0 ∧ 0 < row then some (core (row - 1) col (l + 12), 18) else none
    | _ => none

/-- The target belongs to the sender's partition (R89). -/
def samePart (m : Mod) (c t : Nat) : Bool :=
  match partOfCluster m (clusterOf t) with
  | some p => partOfCluster m (clusterOf c) == some p
  | none => false

/-- The oldest entry of the move queue waits for a slot (Table 3.8c): a push while a unit of another sender has yet to land at its receiver,
or an entry with a cluster-store side while the core has a request waiting at a bank of its cluster's store (R91, R92). -/
def slotWait (m : Mod) (c : Nat) (x : CoreSt) : Bool :=
  match x.mq with
  | [] => false
  | q :: _ =>
    let link := match q.kind with
      | .push sel _ => (match pushTarget c sel.val with
        | some (t, _) => (coreAt m t).haloIn.any (fun u => u.sender != c)
        | none => false)
      | _ => false
    link || ((moveReads q ++ moveWrites q).any (fun r => decide (coreCs ≤ r.1)) &&
      (List.range 16).any (fun b => arbWaits m (arbKeyStore (clusterOf c) b) (c % 16)))

/-- A move instruction waits for accesses issued before it; a push does not wait for a tcvt's output (R73, R85, R150, R151). -/
def moveBusy (c : Nat) (x : CoreSt) (q : MoveOp) : Bool :=
  match q.kind with
  | .push _ _ => moveHeld c x (moveReads q) (moveWrites q)
  | _ => memBusy c x (moveReads q) (moveWrites q)

/-- Puts an entry into the move queue, which holds four (R64). A local-store source that holds an uncorrectable error raises fault 0x09
(Table 4.14). -/
def enqueueMove (c : Nat) (q : MoveOp) (m : Mod) : Act :=
  let x := coreAt m c
  if moveBusy c x q then .stall .dep
  else if 4 ≤ x.mq.length then .stall (if slotWait m c x then .idle 10 else .unit)
  else match (badOf m c q.map ((moveReads q).filter (fun r => decide (r.1 < lsTop)))) with
    | some a => .fault 0x09 a
    | none => coreAct c (fun x => { x with mq := x.mq ++ [q] }) m

/-- cp at issue (R115): alignment of dst, src and length, then the source and destination ranges. -/
def cpAct (c : Nat) (dst src : Base) (n : SReg) (m : Mod) : Act :=
  let x := coreAt m c
  if regBusy x (n :: baseRegs dst ++ baseRegs src) [] then .stall (.regs (n :: baseRegs dst ++ baseRegs src)) else
  let d := (baseAddr x dst).toNat
  let s := (baseAddr x src).toNat
  let len := (rs32 x n).toNat
  match misaligned [d, s, len] with
  | some v => .fault 0x02 v
  | none =>
    if len = 0 then .next m
    else match firstOutside s len with
      | some a => .fault 0x03 a
      | none => match firstOutside d len with
        | some a => .fault 0x03 a
        | none => enqueueMove c ⟨x.nIssued, .copy, x.pc, x.stageMap, baseAddr x src, baseAddr x dst, rs32 x n⟩ m

/-- push at issue (R118). A push wakes its target's cluster (R412). -/
def pushAct (c : Nat) (sel o : SReg) (src : Base) (n : SReg) (m : Mod) : Act :=
  let x := coreAt m c
  if regBusy x (n :: o :: baseRegs src) [] then .stall (.regs (n :: o :: baseRegs src)) else
  let s := (baseAddr x src).toNat
  let len := (rs32 x n).toNat
  match misaligned [s, len, (rs32 x o).toNat] with
  | some v => .fault 0x02 v
  | none => match pushTarget c sel.val with
    | none => .fault 0x06 sel.val
    | some (t, _) =>
      if !samePart m c t then .fault 0x07 sel.val
      else if len = 0 then .next m
      else match firstOutside s len with
        | some a => .fault 0x03 a
        | none => enqueueMove c ⟨x.nIssued, .push sel (rs32 x o), x.pc, x.stageMap, baseAddr x src, 0, rs32 x n⟩
            (wake m (clusterOf t))

/-- The fault of a register move (R116): a 64-byte aligned range inside the local store, or the cluster store where that is
allowed. -/
def moveFault (cluster : Bool) (a n : Nat) : Option Act :=
  if a % 64 ≠ 0 then some (.fault 0x02 a)
  else match (if cluster then firstOutside a n else firstOutsideLocal a n) with
    | some b => some (.fault 0x03 b)
    | none => none

/-- vld at issue. -/
def vldAct (c : Nat) (d : VReg) (base : Base) (off : W32) (m : Mod) : Act :=
  let x := coreAt m c
  if regBusy x (baseRegs base) [d] then .stall (.regs (baseRegs base)) else
  let a := memAddr x base off
  match moveFault true a 128 with
  | some f => f
  | none => enqueueMove c ⟨x.nIssued, .vld d, x.pc, x.stageMap, BitVec.ofNat 32 a, 0, 128⟩ m

/-- vst at issue: the register is read then (R84). -/
def vstAct (c : Nat) (d : VReg) (base : Base) (off : W32) (m : Mod) : Act :=
  let x := coreAt m c
  if regBusy x (baseRegs base) [d] then .stall (.regs (baseRegs base)) else
  let a := memAddr x base off
  match moveFault true a 128 with
  | some f => f
  | none => enqueueMove c ⟨x.nIssued, .vst (rv x d), x.pc, x.stageMap, 0, BitVec.ofNat 32 a, 128⟩ m

/-- tld at issue: it counts as a tensor instruction that writes td (R117). -/
def tldAct (c : Nat) (d : TReg) (base : Base) (off : W32) (m : Mod) : Act :=
  let x := coreAt m c
  if regBusy x (baseRegs base) [] then .stall (.regs (baseRegs base)) else
  let a := memAddr x base off
  match moveFault false a 1024 with
  | some f => f
  | none =>
    if accWriteBusy x false [d.val] then .stall .dep
    else enqueueMove c ⟨x.nIssued, .tld d, x.pc, x.stageMap, BitVec.ofNat 32 a, 0, 1024⟩ m

/-- tst at issue: it counts as a move instruction that reads td (R117). -/
def tstAct (c : Nat) (d : TReg) (base : Base) (off : W32) (m : Mod) : Act :=
  let x := coreAt m c
  if regBusy x (baseRegs base) [] then .stall (.regs (baseRegs base)) else
  let a := memAddr x base off
  match moveFault false a 1024 with
  | some f => f
  | none =>
    if accReadBusy x [d.val] then .stall .dep
    else enqueueMove c ⟨x.nIssued, .tst d, x.pc, x.stageMap, 0, BitVec.ofNat 32 a, 1024⟩ m

/-- The lines of a copy moved in ascending order (R115). -/
def copyLines (m : Mod) (c : Nat) (map : Bool) (src dst : Nat) : Nat → Mod
  | 0 => m
  | n + 1 => copyLines (coreWrite m c map dst (coreRead m c map src 64)) c map (src + 64) (dst + 64) n

/-- The units of a push on their way to the receiver (R90, R118). -/
def sendUnits (m : Mod) (c t pos : Nat) (map : Bool) (src : Nat) (off : W32) : Nat → Mod
  | 0 => m
  | n + 1 =>
    let x := coreAt m t
    let u : HaloUnit := ⟨c, pos, off, coreRead m c map src 64⟩
    sendUnits (setCore m t { x with haloIn := x.haloIn ++ [u] }) c t pos map (src + 64) (off + 64) n

/-- An earlier instruction of the tensor or vector unit still uses an accumulator that this one is to change (R84, R158). -/
def earlierUse (x : CoreSt) (seq : Nat) (ts : List Nat) : Bool :=
  x.tq.any (fun q => decide (q.seq < seq) && meets ts (tAccWrites q.op ++ tAccReads q.op))
    || x.vq.any (fun q => decide (q.seq < seq) && meets ts (vAccWrites q.op q.x ++ vAccReads q.op q.x))

/-- The oldest entry of the move queue does its work and leaves (R115 to R119). -/
def moveComplete (c : Nat) (m : Mod) : Mod :=
  let x := coreAt m c
  match x.mq with
  | [] => m
  | q :: rest =>
    if !clRolling m (clusterOf c) then m
    else if (match q.kind with | .tld d => earlierUse x q.seq [d.val] | _ => false) then m
    else
      -- data of a cluster store is returned as read, and the error is contained (Table 16.3)
      let m := match (badOf m c q.map ((moveReads q).filter (fun r => decide (coreCs ≤ r.1)))) with
        | some a => eccContain m c 2 a
        | none => m
      let m := setCore (bumpFree m) c { x with mq := rest }
      match q.kind with
      | .copy => copyLines m c q.map q.src.toNat q.dst.toNat (q.len.toNat / 64)
      | .vld d => setCore m c (setLanes (coreAt m c) d 0 (words32 (coreRead m c q.map q.src.toNat 128)))
      | .vst data => coreWrite m c q.map q.dst.toNat (bytes32 data)
      | .tld d => setCore m c (setTs (coreAt m c) d.val 0 (words32 (coreRead m c q.map q.src.toNat 1024)))
      | .tst d =>
        let y := coreAt m c
        coreWrite m c q.map q.dst.toNat
          (bytes32 ((List.range 256).map (fun e => rt y d.val (e / 16) (e % 16))))
      | .push sel off =>
        match pushTarget c sel.val with
        | some (t, pos) => sendUnits m c t pos q.map q.src.toNat off (q.len.toNat / 64)
        | none => m

/-- The first ready position of `n`, counted round from `start` (R91). -/
def rrPick (n start : Nat) (ready : Nat → Bool) : Option Nat :=
  ((List.range n).map (fun i => (start + i) % n)).find? ready

/-- The edge cores of a cluster in a direction (0 east, 1 west, 2 south, 3 north), ascending (R91). -/
def edgeCores (k dir : Nat) : List Nat :=
  (List.range 4).map (fun i => 16 * k + (match dir with
    | 0 => 4 * i + 3 | 1 => 4 * i | 2 => 12 + i | _ => i))

/-- The direction in which a sender's edge is crossed, by the receiver's position of the unit. -/
def edgeDir (pos : Nat) : Nat := match pos with | 17 => 0 | 16 => 1 | 19 => 2 | _ => 3

/-- The edge's round-robin position whose unit goes next (R91). -/
def edgeNext (m : Mod) (k dir : Nat) : Option Nat :=
  rrPick 4 ((clAt m k).edgePos.getD dir 0) (fun i =>
    let s := (edgeCores k dir).getD i 0
    m.cores.any (fun e => e.2.haloIn.any (fun u => decide (16 ≤ u.pos) && decide (edgeDir u.pos = dir) && u.sender == s)))

/-- The unit at a position of a receiver may go now: over an edge, when the edge's turn is its sender's. -/
def unitReady (m : Mod) (x : CoreSt) (pos : Nat) : Bool :=
  match x.haloIn.find? (fun u => u.pos == pos) with
  | none => false
  | some u =>
    decide (pos < 16) ||
      (let k := clusterOf u.sender
       match edgeNext m k (edgeDir pos) with
       | some i => (edgeCores k (edgeDir pos)).getD i 0 == u.sender
       | none => false)

/-- The edge a unit crossed takes its turn (R91). -/
def edgeServed (m : Mod) (u : HaloUnit) : Mod :=
  if u.pos < 16 then m else
  let k := clusterOf u.sender
  let dir := edgeDir u.pos
  match edgeNext m k dir with
  | some i => setCl m k { clAt m k with edgePos := (clAt m k).edgePos.set dir ((i + 1) % 4) }
  | none => m

/-- A unit lands in the receive window, or is dropped (R90). -/
def landUnit (m : Mod) (c : Nat) (u : HaloUnit) : Mod :=
  let x := coreAt m c
  let a := x.haloBase.toNat / 64 * 64 + u.off.toNat
  if x.haloSize.toNat ≤ u.off.toNat ∨ lsTop < a + 64 then setCore m c { x with haloDrop := true }
  else
    let m := coreWrite m c x.stageMap a u.data
    creditWake (setCore m c (addCredit (coreAt m c) 16)) c

/-- The next pushed unit arrives at a core, by the round-robin of R91. -/
def haloLand (c : Nat) (m : Mod) : Mod :=
  let x := coreAt m c
  if !clRolling m (clusterOf c) then m else
  match rrPick 20 x.haloPos (unitReady m x) with
  | none => m
  | some pos =>
    match x.haloIn.find? (fun u => u.pos == pos) with
    | none => m
    | some u =>
      let m := edgeServed m u
      let x := coreAt m c
      landUnit (setCore m c { x with haloIn := x.haloIn.erase u, haloPos := (pos + 1) % 20 }) c u

/-- vext (R116). -/
def vextRow (c : Nat) : Mod → Mod :=
  issue c (fun o => match o with
    | .vext d a lane => some (regAct c [d] [a] (fun x => setS x d (BitVec.ofNat 64 (vLane x a lane.val).toNat)))
    | _ => none)

/-- vins. -/
def vinsRow (c : Nat) : Mod → Mod :=
  issue c (fun o => match o with
    | .vins d a lane => some (regAct c [a] [d] (fun x => setLane x d lane.val (rs32 x a)))
    | _ => none)

/-- vbcast. -/
def vbcastRow (c : Nat) : Mod → Mod :=
  issue c (fun o => match o with
    | .vbcast d a => some (regAct c [a] [d] (fun x => setLanes x d 0 (List.replicate 32 (rs32 x a))))
    | _ => none)

/-- Lines of a physical half: H0 or H1 of a core (R74). -/
def inHalf (c : Nat) (half : Nat) (line : Nat) : Bool := line / 1024 == 2 * c + half

/-- An issued instruction still has to access the half that is stage A (R75). -/
def stageABusy (c : Nat) (x : CoreSt) : Bool :=
  let lines := mqLines c x ++ x.tq.flatMap (fun q => lineKeys c q.map (tensorRanges q)) ++ vqReadLines c x
  lines.any (inHalf c (b2n x.stageMap))

/-- swap (R75). -/
def swapRow (c : Nat) : Mod → Mod :=
  issue c (fun o => match o with
    | .swap => some (fun m =>
        if stageABusy c (coreAt m c) then .stall .dep
        else coreAct c (fun x => { x with stageMap := !x.stageMap }) m)
    | _ => none)

/-- mfence (R120). -/
def mfenceRow (c : Nat) : Mod → Mod :=
  issue c (fun o => match o with
    | .mfence => some (fun m => if fenceMet m c (coreAt m c) then .next m else .stall .dep)
    | _ => none)

/-! ## The rows -/

/-- Copies n bytes line by line (R115). -/
def execCp (c : Core) (s : State) : Host.Outcome State Fault Refusal :=
  .next (s.onMod (issue c.val (fun o => match o with
    | .cp dst src n => some (cpAct c.val dst src n)
    | _ => none)))

/-- Sends a range to a neighbour (R118). -/
def execPush (c : Core) (s : State) : Host.Outcome State Fault Refusal :=
  .next (s.onMod (issue c.val (fun i => match i with
    | .push sel o src n => some (pushAct c.val sel o src n)
    | _ => none)))

/-- A pushed unit arrives at the core, lands or is dropped (R90). -/
def execHaloUnitLand (c : Core) (s : State) : Host.Outcome State Fault Refusal :=
  .next (s.onMod (haloLand c.val))

/-- Loads 128 bytes into a vector register (R116). -/
def execVld (c : Core) (s : State) : Host.Outcome State Fault Refusal :=
  .next (s.onMod (issue c.val (fun o => match o with
    | .vld d base off => some (vldAct c.val d base off)
    | _ => none)))

/-- Stores a vector register (R116). -/
def execVst (c : Core) (s : State) : Host.Outcome State Fault Refusal :=
  .next (s.onMod (issue c.val (fun o => match o with
    | .vst d base off => some (vstAct c.val d base off)
    | _ => none)))

/-- Loads 1 KiB into an accumulator (R116). -/
def execTld (c : Core) (s : State) : Host.Outcome State Fault Refusal :=
  .next (s.onMod (issue c.val (fun o => match o with
    | .tld d base off => some (tldAct c.val d base off)
    | _ => none)))

/-- Stores an accumulator (R116). -/
def execTst (c : Core) (s : State) : Host.Outcome State Fault Refusal :=
  .next (s.onMod (issue c.val (fun o => match o with
    | .tst d base off => some (tstAct c.val d base off)
    | _ => none)))

/-- Extracts a lane (R116). -/
def execVext (c : Core) (s : State) : Host.Outcome State Fault Refusal :=
  .next (s.onMod (vextRow c.val))

/-- Inserts a scalar into a lane (R116). -/
def execVins (c : Core) (s : State) : Host.Outcome State Fault Refusal :=
  .next (s.onMod (vinsRow c.val))

/-- Broadcasts a scalar (R116). -/
def execVbcast (c : Core) (s : State) : Host.Outcome State Fault Refusal :=
  .next (s.onMod (vbcastRow c.val))

/-- Exchanges stage A and stage B (R75). -/
def execSwap (c : Core) (s : State) : Host.Outcome State Fault Refusal :=
  .next (s.onMod (swapRow c.val))

/-- Memory fence (R120). -/
def execMfence (c : Core) (s : State) : Host.Outcome State Fault Refusal :=
  .next (s.onMod (mfenceRow c.val))

/-- The oldest entry of the move queue completes (R115, R119). -/
def execMoveComplete (c : Core) (s : State) : Host.Outcome State Fault Refusal :=
  .next (s.onMod (moveComplete c.val))

end Sys2Proof.Machine
end

