-- ==== Sys2Proof/Machine/Flags.lean ====
section
/-!
DEFINITION. The conditions an Octix core computes: the core has no condition-code register; compares write predicates
(04_octix_isa.md Table 4.6), and the only arithmetic flag is the sticky non-finite flag (02_number_formats.md R60), which
each operation of Float.lean reports beside its value.
-/
namespace Sys2Proof.Machine

/-- The relations of the scalar compares. -/
def cmpHolds (op : CmpOp) (a b : W64) : Bool :=
  match op with
  | .eq => decide (a = b)
  | .ne => decide (a ≠ b)
  | .lt => decide (a.toInt < b.toInt)
  | .ltu => decide (a.toNat < b.toNat)
  | .le => decide (a.toInt ≤ b.toInt)
  | .leu => decide (a.toNat ≤ b.toNat)

/-- Predicate logic. -/
def predOp (op : PredOp) (a b : Bool) : Bool :=
  match op with
  | .and => a && b
  | .or => a || b
  | .xor => a != b
  | .andn => a && !b

end Sys2Proof.Machine
end

