-- ==== Sys2Proof/Machine/Scalar.lean ====
section
/-!
DEFINITION. The scalar, special-register and control instructions (04_octix_isa.md), and the faults of fetch and decode.
-/
namespace Sys2Proof.Machine

/-! ## Arithmetic (R106 to R109) -/

/-- The two-operand operations of Tables 4.4 and 4.5. -/
def aluOp (op : AluOp) (a b : W64) : W64 :=
  match op with
  | .add => a + b
  | .sub => a - b
  | .mul => a * b
  | .mulh => BitVec.ofInt 64 ((a.toInt * b.toInt).fdiv (2 ^ 64))
  | .mulhu => BitVec.ofNat 64 (a.toNat * b.toNat / 2 ^ 64)
  | .div => if b = 0 then BitVec.ofInt 64 (-1) else BitVec.ofInt 64 (a.toInt.tdiv b.toInt)
  | .divu => if b = 0 then BitVec.ofNat 64 (2 ^ 64 - 1) else BitVec.ofNat 64 (a.toNat / b.toNat)
  | .rem => if b = 0 then a else BitVec.ofInt 64 (a.toInt - b.toInt * a.toInt.tdiv b.toInt)
  | .remu => if b = 0 then a else BitVec.ofNat 64 (a.toNat % b.toNat)
  | .min => if a.toInt ≤ b.toInt then a else b
  | .max => if a.toInt ≤ b.toInt then b else a
  | .minu => if a.toNat ≤ b.toNat then a else b
  | .maxu => if a.toNat ≤ b.toNat then b else a
  | .and => a &&& b
  | .or => a ||| b
  | .xor => a ^^^ b
  | .andn => a &&& ~~~b
  | .shl => a <<< (b.toNat % 64)
  | .shr => a >>> (b.toNat % 64)
  | .sar => a.sshiftRight (b.toNat % 64)
  | .rotl => a.rotateLeft (b.toNat % 64)

/-- Number of 1 bits among the low `n` bits. -/
def popCount (v : Nat) : Nat → Nat
  | 0 => 0
  | n + 1 => b2n (v.testBit n) + popCount v n

/-- Zero bits below the lowest 1 bit of the low `n` bits counted from bit `i`. -/
def trailZeros (v i : Nat) : Nat → Nat
  | 0 => i
  | n + 1 => if v.testBit i then i else trailZeros v (i + 1) n

/-- The bit counts of Table 4.5. -/
def countOp (op : CountOp) (a : W64) : W64 :=
  BitVec.ofNat 64 (match op with
    | .popc => popCount a.toNat 64
    | .clz => if a = 0 then 64 else 63 - Nat.log2 a.toNat
    | .ctz => trailZeros a.toNat 0 64)

/-- The constant loads of Table 4.4. -/
def movOp (op : MovOp) (d : W64) (imm : W32) : W64 :=
  match op with
  | .movi => sext32 imm.toNat
  | .movhi => BitVec.ofNat 64 (imm.toNat * 2 ^ 32 + d.toNat % 2 ^ 32)
  | .movz => BitVec.ofNat 64 imm.toNat

/-- Rows of major 0x00 and 0x02 with two registers. -/
def aluRow (c : Nat) (op : AluOp) : Mod → Mod :=
  issue c (fun o => match o with
    | .alu op' d a b => if op' = op then
        some (regAct c [d, a, b] [] (fun x => setS x d (aluOp op (rs x a) (rs x b)))) else none
    | _ => none)

/-- Rows of major 0x01 and 0x03 with an immediate. -/
def aluIRow (c : Nat) (op : AluOp) : Mod → Mod :=
  issue c (fun o => match o with
    | .aluI op' d a imm => if op' = op then
        some (regAct c [d, a] [] (fun x => setS x d (aluOp op (rs x a) (sext32 imm.toNat)))) else none
    | _ => none)

/-- The constant loads. -/
def movRow (c : Nat) (op : MovOp) : Mod → Mod :=
  issue c (fun o => match o with
    | .mov op' d imm => if op' = op then some (regAct c [d] [] (fun x => setS x d (movOp op (rs x d) imm))) else none
    | _ => none)

/-- The bit counts. -/
def countRow (c : Nat) (op : CountOp) : Mod → Mod :=
  issue c (fun o => match o with
    | .count op' d a => if op' = op then some (regAct c [d, a] [] (fun x => setS x d (countOp op (rs x a)))) else none
    | _ => none)

/-- sel. -/
def selRow (c : Nat) : Mod → Mod :=
  issue c (fun o => match o with
    | .sel d q a b => some (regAct c [d, a, b] [] (fun x => setS x d (if rp x q then rs x a else rs x b)))
    | _ => none)

/-! ## Compares and predicates (Table 4.6) -/

/-- Register compares. -/
def cmpRow (c : Nat) (op : CmpOp) : Mod → Mod :=
  issue c (fun o => match o with
    | .cmp op' pd a b => if op' = op then
        some (regAct c [a, b] [] (fun x => setP x pd (cmpHolds op (rs x a) (rs x b)))) else none
    | _ => none)

/-- Immediate compares: imm is sign-extended, then compared (Table 4.6). -/
def cmpIRow (c : Nat) (op : CmpOp) : Mod → Mod :=
  issue c (fun o => match o with
    | .cmpI op' pd a imm => if op' = op then
        some (regAct c [a] [] (fun x => setP x pd (cmpHolds op (rs x a) (sext32 imm.toNat)))) else none
    | _ => none)

/-- Predicate logic. -/
def predRow (c : Nat) (op : PredOp) : Mod → Mod :=
  issue c (fun o => match o with
    | .pred op' pd pa pb => if op' = op then
        some (coreAct c (fun x => setP x pd (predOp op (rp x pa) (rp x pb)))) else none
    | _ => none)

/-- pnot. -/
def pnotRow (c : Nat) : Mod → Mod :=
  issue c (fun o => match o with
    | .pnot pd pa => some (coreAct c (fun x => setP x pd (!rp x pa)))
    | _ => none)

/-! ## Loads and stores (R71 to R74, R111, R112) -/

/-- Bytes of an access. -/
def sizeBytes : MemSize → Nat
  | .b => 1 | .h => 2 | .w => 4 | .d => 8

/-- The fault of a scalar access: misaligned, else reserved (R71, R72; the order is that of R115, log 11). -/
def accessFault (a n : Nat) : Option Act :=
  if a % n ≠ 0 then some (.fault 0x02 a) else if !mapped a then some (.fault 0x03 a) else none

/-- The value a load extends to 64 bits. -/
def loadValue (sz : MemSize) (signed : Bool) (bs : List Byte) : W64 :=
  let v := leNat bs
  if signed then BitVec.ofInt 64 (toSigned (8 * sizeBytes sz) v) else BitVec.ofNat 64 v

/-- A scalar load at issue. A local-store value is written at once; a cluster-store load takes one of eight places and
returns at SCALAR_LOAD_RETURN with the value of its issue, which no later store of the core changes (R73, R112). -/
def ldAct (c : Nat) (sz : MemSize) (signed : Bool) (d : SReg) (base : Base) (off : W32) (m : Mod) : Act :=
  let x := coreAt m c
  let ss := match base with | .reg r => [d, r] | .gen _ => [d]
  if regBusy x ss [] then .stall (.regs ss) else
  let a := memAddr x base off
  let n := sizeBytes sz
  match accessFault a n with
  | some f => f
  | none =>
    if memBusy c x [(a, n)] [] then .stall .dep else
    let v := loadValue sz signed (coreRead m c x.stageMap a n)
    if a < lsTop then (if coreBad m c x.stageMap a then .fault 0x09 a else coreAct c (fun x => setS x d v) m)
    else if 8 ≤ x.loads.length then
      .stall (if (x.loads.head?.map (loadWaits m c)).getD false then .idle 10 else .unit)
    else
      coreAct c (fun x => { x with loads := x.loads ++ [⟨x.nIssued, d, v, (a - coreCs) / 64 % 16⟩] })
        (if coreBad m c x.stageMap a then eccContain m c 2 a else m)

/-- Rows of the scalar loads. -/
def ldRow (c : Nat) (sz : MemSize) (signed : Bool) : Mod → Mod :=
  issue c (fun o => match o with
    | .ld sz' sg d base off => if sz' = sz ∧ sg = signed then some (ldAct c sz signed d base off) else none
    | _ => none)

/-- A scalar store at issue. -/
def stAct (c : Nat) (sz : MemSize) (d : SReg) (base : Base) (off : W32) (m : Mod) : Act :=
  let x := coreAt m c
  let ss := match base with | .reg r => [d, r] | .gen _ => [d]
  if regBusy x ss [] then .stall (.regs ss) else
  let a := memAddr x base off
  let n := sizeBytes sz
  match accessFault a n with
  | some f => f
  | none =>
    if memBusy c x [] [(a, n)] then .stall .dep
    else if a < lsTop ∧ n < 8 ∧ coreBad m c x.stageMap a then .fault 0x09 a
    else .next (coreWrite m c x.stageMap a (leBytes n (rs x d).toNat))

/-- Rows of the scalar stores. -/
def stRow (c : Nat) (sz : MemSize) : Mod → Mod :=
  issue c (fun o => match o with
    | .st sz' d base off => if sz' = sz then some (stAct c sz d base off) else none
    | _ => none)

/-- The oldest outstanding cluster-store load of a core returns. -/
def loadReturn (c : Nat) (m : Mod) : Mod :=
  let x := coreAt m c
  match x.loads with
  | l :: rest => if clRolling m (clusterOf c) then setCore m c (setS { x with loads := rest } l.d l.v) else m
  | [] => m

/-! ## Special registers (Tables 3.3, 3.4; R67, R113, R114) -/

/-- CORE_ID (R22). -/
def coreId (c : Nat) : Nat := c % 16 + c % 10000 / 16 * 2 ^ 4 + c / 10000 * 2 ^ 14

/-- CORE_STATUS (Table 3.4). -/
def coreStatus (x : CoreSt) : Nat :=
  b2n x.haloDrop * 32 + b2n x.credOvf * 16
    + (match x.state with | .halted => 0 | .running => 1 | .waiting => 2 | .faulted => 3) * 4
    + b2n x.stageMap * 2 + b2n x.nonfinite

/-- Level `l` of the active loops, 0 the outermost. -/
def loopLevel (x : CoreSt) (l : Nat) : Option LoopLevel :=
  if l < x.loops.length then x.loops[x.loops.length - 1 - l]? else none

/-- The value of a special register; none for a number that Table 3.3 does not list. -/
def readSpecial (c : Nat) (x : CoreSt) (n : Nat) : Option Nat :=
  match n with
  | 0x000 => some (coreId c)
  | 0x001 => some (coreStatus x)
  | 0x002 => some x.pc.toNat
  | 0x003 => some x.cycle.toNat
  | 0x004 => some x.slate.toNat
  | 0x005 => some x.seed.toNat
  | 0x006 => some x.ctxReg.toNat
  | 0x008 => some x.fault.toNat
  | 0x009 => some x.faultAddr.toNat
  | 0x00A => some x.cancel.toNat
  | 0x00B => some x.depStall.toNat
  | 0x00C => some x.haloBase.toNat
  | 0x00D => some x.haloSize.toNat
  | 0x00E => some x.haloCredit.toNat
  | n =>
    if 0x010 ≤ n ∧ n < 0x020 then some (credit x (n - 0x010))
    else if 0x020 ≤ n ∧ n < 0x02C then some (sget (fun _ => (0 : BitVec 48)) x.idle (n - 0x020)).toNat
    else if 0x040 ≤ n ∧ n < 0x044 then some (match loopLevel x (n - 0x040) with | some l => l.cnt.toNat | none => 0)
    else if 0x044 ≤ n ∧ n < 0x048 then some (match loopLevel x (n - 0x044) with | some l => l.ext.toNat | none => 0)
    else if 0x080 ≤ n ∧ n < 0x088 then some (sget (fun _ => (0 : W32)) x.agBase (n - 0x080)).toNat
    else if 0x088 ≤ n ∧ n < 0x0A8 then some (sget (fun _ => (0 : W32)) x.agStride (n - 0x088)).toNat
    else none

/-- Writes a special register that Table 3.3 lists: RW registers take the low bits, CORE_STATUS its W1C bits, and a write
to an RO register is discarded (R113). -/
def writeSpecial (x : CoreSt) (n : Nat) (v : W64) : CoreSt :=
  let w : W32 := BitVec.ofNat 32 v.toNat
  match n with
  | 0x001 => { x with haloDrop := x.haloDrop && !bit v 5, credOvf := x.credOvf && !bit v 4 }
  | 0x00C => { x with haloBase := w }
  | 0x00D => { x with haloSize := w }
  | 0x00E => { x with haloCredit := w }
  | n =>
    if 0x010 ≤ n ∧ n < 0x020 then setCredit x (n - 0x010) (v.toNat % 65536)
    else if 0x080 ≤ n ∧ n < 0x088 then { x with agBase := sset (fun _ => 0) x.agBase (n - 0x080) w }
    else if 0x088 ≤ n ∧ n < 0x0A8 then { x with agStride := sset (fun _ => 0) x.agStride (n - 0x088) w }
    else x

/-- mfsr. -/
def mfsrRow (c : Nat) : Mod → Mod :=
  issue c (fun o => match o with
    | .mfsr r num => some (fun m =>
        match readSpecial c (coreAt m c) num.val with
        | some v => regAct c [r] [] (fun x => setS x r (BitVec.ofNat 64 v)) m
        | none => .fault 0x08 num.val)
    | _ => none)

/-- mtsr. -/
def mtsrRow (c : Nat) : Mod → Mod :=
  issue c (fun o => match o with
    | .mtsr num r => some (fun m =>
        match readSpecial c (coreAt m c) num.val with
        | some _ => regAct c [r] [] (fun x => writeSpecial x num.val (rs x r)) m
        | none => .fault 0x08 num.val)
    | _ => none)

/-! ## Control (Table 4.13) -/

/-- nop, and an illegal word whose guard reads 0. -/
def nopRow (c : Nat) (m : Mod) : Mod :=
  let x := coreAt m c
  let w := fetchWord m c x.pc.toNat
  if x.pc.toNat ≤ 2047 ∧ fetchBad m c x.pc.toNat = false ∧ (decodeOctix w).isNone ∧ guardFails x w ∧ mayIssue m c then
    applyAct c (tick m c) (.next (tick m c))
  else issue c (fun o => match o with
    | .nop => some (fun m => .next m)
    | _ => none) m

/-- br. -/
def brRow (c : Nat) : Mod → Mod :=
  issue c (fun o => match o with
    | .br tgt => some (fun m => .branch m tgt.val)
    | _ => none)

/-- brr: bits [10:0] of the register. -/
def brrRow (c : Nat) : Mod → Mod :=
  issue c (fun o => match o with
    | .brr r => some (fun m =>
        let x := coreAt m c
        if regBusy x [r] [] then .stall (.regs [r]) else .branch m ((rs x r).toNat % 2048))
    | _ => none)

/-- call. -/
def callRow (c : Nat) : Mod → Mod :=
  issue c (fun o => match o with
    | .call r tgt => some (fun m =>
        let x := coreAt m c
        if regBusy x [r] [] then .stall (.regs [r])
        else .branch (setCore m c (setS x r (BitVec.ofNat 64 (x.pc.toNat + 1)))) tgt.val)
    | _ => none)

/-- Loop entry (R86). Active levels nest, so a body end beyond any of them is beyond the innermost. -/
def loopAct (c : Nat) (e : SReg) (bodyEnd : Nat) (m : Mod) : Act :=
  let x := coreAt m c
  let pc := x.pc.toNat
  if regBusy x [e] [] then .stall (.regs [e])
  else if x.loops.length = 4 ∨ bodyEnd ≤ pc ∨ 2047 < bodyEnd
      ∨ x.loops.any (fun l => decide (l.last < bodyEnd)) then .fault 0x05 bodyEnd
  else
    let ext := rs32 x e
    if ext = 0 then .skip m (bodyEnd + 1)
    else .skip (setCore m c { x with loops := ⟨0, ext, pc + 1, bodyEnd⟩ :: x.loops }) (pc + 1)

/-- loop. -/
def loopRow (c : Nat) : Mod → Mod :=
  issue c (fun o => match o with
    | .loop e t => some (loopAct c e t.val)
    | _ => none)

/-- halt (R134). -/
def haltRow (c : Nat) : Mod → Mod :=
  issue c (fun o => match o with
    | .halt r => some (fun m =>
        let x := coreAt m c
        if regBusy x [r] [] then .stall (.regs [r]) else .halt (BitVec.ofNat 16 (rs x r).toNat))
    | _ => none)

/-- fclr (R135). -/
def fclrRow (c : Nat) : Mod → Mod :=
  issue c (fun o => match o with
    | .fclr => some (fun m =>
        if unitsIdle (coreAt m c) then coreAct c (fun x => { x with nonfinite := false }) m else .stall .dep)
    | _ => none)

/-- An illegal word at issue (R98, R99): CORE_FAULT_ADDR takes the word. -/
def illegalRow (c : Nat) (m : Mod) : Mod :=
  let x := coreAt m c
  let w := fetchWord m c x.pc.toNat
  if x.pc.toNat ≤ 2047 ∧ fetchBad m c x.pc.toNat = false ∧ (decodeOctix w).isNone ∧ ¬ guardFails x w ∧ mayIssue m c then
    applyAct c (tick m c) (.fault 0x01 w.toNat)
  else issue c (fun _ => none) m

/-- Fetch beyond the instruction store. -/
def overrunRow (c : Nat) (m : Mod) : Mod :=
  if 2047 < (coreAt m c).pc.toNat ∧ mayIssue m c then applyAct c (tick m c) (.fault 0x04 2048) else m

/-! ## The rows -/

/-- Addition modulo 2^64 (R106). -/
def execAdd (c : Core) (s : State) : Host.Outcome State Fault Refusal :=
  .next (s.onMod (aluRow c.val .add))

/-- Subtraction modulo 2^64 (R106). -/
def execSub (c : Core) (s : State) : Host.Outcome State Fault Refusal :=
  .next (s.onMod (aluRow c.val .sub))

/-- The low 64 bits of the product (R106). -/
def execMul (c : Core) (s : State) : Host.Outcome State Fault Refusal :=
  .next (s.onMod (aluRow c.val .mul))

/-- The high 64 bits of the signed product (R106). -/
def execMulh (c : Core) (s : State) : Host.Outcome State Fault Refusal :=
  .next (s.onMod (aluRow c.val .mulh))

/-- The high 64 bits of the unsigned product (R106). -/
def execMulhu (c : Core) (s : State) : Host.Outcome State Fault Refusal :=
  .next (s.onMod (aluRow c.val .mulhu))

/-- Signed division (R107). -/
def execDiv (c : Core) (s : State) : Host.Outcome State Fault Refusal :=
  .next (s.onMod (aluRow c.val .div))

/-- Unsigned division (R107). -/
def execDivu (c : Core) (s : State) : Host.Outcome State Fault Refusal :=
  .next (s.onMod (aluRow c.val .divu))

/-- Signed remainder (R107). -/
def execRem (c : Core) (s : State) : Host.Outcome State Fault Refusal :=
  .next (s.onMod (aluRow c.val .rem))

/-- Unsigned remainder (R107). -/
def execRemu (c : Core) (s : State) : Host.Outcome State Fault Refusal :=
  .next (s.onMod (aluRow c.val .remu))

/-- Signed minimum (R106). -/
def execMin (c : Core) (s : State) : Host.Outcome State Fault Refusal :=
  .next (s.onMod (aluRow c.val .min))

/-- Signed maximum (R106). -/
def execMax (c : Core) (s : State) : Host.Outcome State Fault Refusal :=
  .next (s.onMod (aluRow c.val .max))

/-- Unsigned minimum (R106). -/
def execMinu (c : Core) (s : State) : Host.Outcome State Fault Refusal :=
  .next (s.onMod (aluRow c.val .minu))

/-- Unsigned maximum (R106). -/
def execMaxu (c : Core) (s : State) : Host.Outcome State Fault Refusal :=
  .next (s.onMod (aluRow c.val .maxu))

/-- Bitwise and (R109). -/
def execAnd (c : Core) (s : State) : Host.Outcome State Fault Refusal :=
  .next (s.onMod (aluRow c.val .and))

/-- Bitwise or (R109). -/
def execOr (c : Core) (s : State) : Host.Outcome State Fault Refusal :=
  .next (s.onMod (aluRow c.val .or))

/-- Bitwise exclusive or (R109). -/
def execXor (c : Core) (s : State) : Host.Outcome State Fault Refusal :=
  .next (s.onMod (aluRow c.val .xor))

/-- a and not b (R109). -/
def execAndn (c : Core) (s : State) : Host.Outcome State Fault Refusal :=
  .next (s.onMod (aluRow c.val .andn))

/-- Shift left by b[5:0] (R109). -/
def execShl (c : Core) (s : State) : Host.Outcome State Fault Refusal :=
  .next (s.onMod (aluRow c.val .shl))

/-- Logical shift right (R109). -/
def execShr (c : Core) (s : State) : Host.Outcome State Fault Refusal :=
  .next (s.onMod (aluRow c.val .shr))

/-- Arithmetic shift right (R109). -/
def execSar (c : Core) (s : State) : Host.Outcome State Fault Refusal :=
  .next (s.onMod (aluRow c.val .sar))

/-- Rotate left (R109). -/
def execRotl (c : Core) (s : State) : Host.Outcome State Fault Refusal :=
  .next (s.onMod (aluRow c.val .rotl))

/-- With an immediate: Addition modulo 2^64 (R106). -/
def execAddi (c : Core) (s : State) : Host.Outcome State Fault Refusal :=
  .next (s.onMod (aluIRow c.val .add))

/-- With an immediate: The low 64 bits of the product (R106). -/
def execMuli (c : Core) (s : State) : Host.Outcome State Fault Refusal :=
  .next (s.onMod (aluIRow c.val .mul))

/-- With an immediate: Signed minimum (R106). -/
def execMini (c : Core) (s : State) : Host.Outcome State Fault Refusal :=
  .next (s.onMod (aluIRow c.val .min))

/-- With an immediate: Signed maximum (R106). -/
def execMaxi (c : Core) (s : State) : Host.Outcome State Fault Refusal :=
  .next (s.onMod (aluIRow c.val .max))

/-- With an immediate: Bitwise and (R109). -/
def execAndi (c : Core) (s : State) : Host.Outcome State Fault Refusal :=
  .next (s.onMod (aluIRow c.val .and))

/-- With an immediate: Bitwise or (R109). -/
def execOri (c : Core) (s : State) : Host.Outcome State Fault Refusal :=
  .next (s.onMod (aluIRow c.val .or))

/-- With an immediate: Bitwise exclusive or (R109). -/
def execXori (c : Core) (s : State) : Host.Outcome State Fault Refusal :=
  .next (s.onMod (aluIRow c.val .xor))

/-- With an immediate: Shift left by b[5:0] (R109). -/
def execShli (c : Core) (s : State) : Host.Outcome State Fault Refusal :=
  .next (s.onMod (aluIRow c.val .shl))

/-- With an immediate: Logical shift right (R109). -/
def execShri (c : Core) (s : State) : Host.Outcome State Fault Refusal :=
  .next (s.onMod (aluIRow c.val .shr))

/-- With an immediate: Arithmetic shift right (R109). -/
def execSari (c : Core) (s : State) : Host.Outcome State Fault Refusal :=
  .next (s.onMod (aluIRow c.val .sar))

/-- With an immediate: Rotate left (R109). -/
def execRotli (c : Core) (s : State) : Host.Outcome State Fault Refusal :=
  .next (s.onMod (aluIRow c.val .rotl))

/-- Loads a sign-extended immediate (R103). -/
def execMovi (c : Core) (s : State) : Host.Outcome State Fault Refusal :=
  .next (s.onMod (movRow c.val .movi))

/-- Replaces the upper 32 bits (Table 4.4). -/
def execMovhi (c : Core) (s : State) : Host.Outcome State Fault Refusal :=
  .next (s.onMod (movRow c.val .movhi))

/-- Loads a zero-extended immediate (Table 4.4). -/
def execMovz (c : Core) (s : State) : Host.Outcome State Fault Refusal :=
  .next (s.onMod (movRow c.val .movz))

/-- Number of 1 bits (Table 4.5). -/
def execPopc (c : Core) (s : State) : Host.Outcome State Fault Refusal :=
  .next (s.onMod (countRow c.val .popc))

/-- Leading zero bits (Table 4.5). -/
def execClz (c : Core) (s : State) : Host.Outcome State Fault Refusal :=
  .next (s.onMod (countRow c.val .clz))

/-- Trailing zero bits (Table 4.5). -/
def execCtz (c : Core) (s : State) : Host.Outcome State Fault Refusal :=
  .next (s.onMod (countRow c.val .ctz))

/-- Selects by a predicate (Table 4.5). -/
def execSel (c : Core) (s : State) : Host.Outcome State Fault Refusal :=
  .next (s.onMod (selRow c.val))

/-- Compare to a predicate, relation eq (Table 4.6). -/
def execCeq (c : Core) (s : State) : Host.Outcome State Fault Refusal :=
  .next (s.onMod (cmpRow c.val .eq))

/-- Compare with an immediate, relation eq (Table 4.6). -/
def execCeqi (c : Core) (s : State) : Host.Outcome State Fault Refusal :=
  .next (s.onMod (cmpIRow c.val .eq))

/-- Compare to a predicate, relation ne (Table 4.6). -/
def execCne (c : Core) (s : State) : Host.Outcome State Fault Refusal :=
  .next (s.onMod (cmpRow c.val .ne))

/-- Compare with an immediate, relation ne (Table 4.6). -/
def execCnei (c : Core) (s : State) : Host.Outcome State Fault Refusal :=
  .next (s.onMod (cmpIRow c.val .ne))

/-- Compare to a predicate, relation lt (Table 4.6). -/
def execClt (c : Core) (s : State) : Host.Outcome State Fault Refusal :=
  .next (s.onMod (cmpRow c.val .lt))

/-- Compare with an immediate, relation lt (Table 4.6). -/
def execClti (c : Core) (s : State) : Host.Outcome State Fault Refusal :=
  .next (s.onMod (cmpIRow c.val .lt))

/-- Compare to a predicate, relation ltu (Table 4.6). -/
def execCltu (c : Core) (s : State) : Host.Outcome State Fault Refusal :=
  .next (s.onMod (cmpRow c.val .ltu))

/-- Compare with an immediate, relation ltu (Table 4.6). -/
def execCltui (c : Core) (s : State) : Host.Outcome State Fault Refusal :=
  .next (s.onMod (cmpIRow c.val .ltu))

/-- Compare to a predicate, relation le (Table 4.6). -/
def execCle (c : Core) (s : State) : Host.Outcome State Fault Refusal :=
  .next (s.onMod (cmpRow c.val .le))

/-- Compare with an immediate, relation le (Table 4.6). -/
def execClei (c : Core) (s : State) : Host.Outcome State Fault Refusal :=
  .next (s.onMod (cmpIRow c.val .le))

/-- Compare to a predicate, relation leu (Table 4.6). -/
def execCleu (c : Core) (s : State) : Host.Outcome State Fault Refusal :=
  .next (s.onMod (cmpRow c.val .leu))

/-- Compare with an immediate, relation leu (Table 4.6). -/
def execCleui (c : Core) (s : State) : Host.Outcome State Fault Refusal :=
  .next (s.onMod (cmpIRow c.val .leu))

/-- Predicate logic, and (Table 4.6). -/
def execPand (c : Core) (s : State) : Host.Outcome State Fault Refusal :=
  .next (s.onMod (predRow c.val .and))

/-- Predicate logic, or (Table 4.6). -/
def execPor (c : Core) (s : State) : Host.Outcome State Fault Refusal :=
  .next (s.onMod (predRow c.val .or))

/-- Predicate logic, xor (Table 4.6). -/
def execPxor (c : Core) (s : State) : Host.Outcome State Fault Refusal :=
  .next (s.onMod (predRow c.val .xor))

/-- Predicate logic, andn (Table 4.6). -/
def execPandn (c : Core) (s : State) : Host.Outcome State Fault Refusal :=
  .next (s.onMod (predRow c.val .andn))

/-- Predicate not (Table 4.6). -/
def execPnot (c : Core) (s : State) : Host.Outcome State Fault Refusal :=
  .next (s.onMod (pnotRow c.val))

/-- Scalar load LdB (Table 4.7). -/
def execLdB (c : Core) (s : State) : Host.Outcome State Fault Refusal :=
  .next (s.onMod (ldRow c.val .b true))

/-- Scalar load LdBu (Table 4.7). -/
def execLdBu (c : Core) (s : State) : Host.Outcome State Fault Refusal :=
  .next (s.onMod (ldRow c.val .b false))

/-- Scalar load LdH (Table 4.7). -/
def execLdH (c : Core) (s : State) : Host.Outcome State Fault Refusal :=
  .next (s.onMod (ldRow c.val .h true))

/-- Scalar load LdHu (Table 4.7). -/
def execLdHu (c : Core) (s : State) : Host.Outcome State Fault Refusal :=
  .next (s.onMod (ldRow c.val .h false))

/-- Scalar load LdW (Table 4.7). -/
def execLdW (c : Core) (s : State) : Host.Outcome State Fault Refusal :=
  .next (s.onMod (ldRow c.val .w true))

/-- Scalar load LdWu (Table 4.7). -/
def execLdWu (c : Core) (s : State) : Host.Outcome State Fault Refusal :=
  .next (s.onMod (ldRow c.val .w false))

/-- Scalar load LdD (Table 4.7). -/
def execLdD (c : Core) (s : State) : Host.Outcome State Fault Refusal :=
  .next (s.onMod (ldRow c.val .d false))

/-- Scalar store StB (Table 4.7). -/
def execStB (c : Core) (s : State) : Host.Outcome State Fault Refusal :=
  .next (s.onMod (stRow c.val .b))

/-- Scalar store StH (Table 4.7). -/
def execStH (c : Core) (s : State) : Host.Outcome State Fault Refusal :=
  .next (s.onMod (stRow c.val .h))

/-- Scalar store StW (Table 4.7). -/
def execStW (c : Core) (s : State) : Host.Outcome State Fault Refusal :=
  .next (s.onMod (stRow c.val .w))

/-- Scalar store StD (Table 4.7). -/
def execStD (c : Core) (s : State) : Host.Outcome State Fault Refusal :=
  .next (s.onMod (stRow c.val .d))

/-- The oldest cluster-store load returns its value to its register and frees its place (R112). -/
def execScalarLoadReturn (c : Core) (s : State) : Host.Outcome State Fault Refusal :=
  .next (s.onMod (loadReturn c.val))

/-- Reads a special register (R113). -/
def execMfsr (c : Core) (s : State) : Host.Outcome State Fault Refusal :=
  .next (s.onMod (mfsrRow c.val))

/-- Writes a special register (R113). -/
def execMtsr (c : Core) (s : State) : Host.Outcome State Fault Refusal :=
  .next (s.onMod (mtsrRow c.val))

/-- No operation (Table 4.13); a word whose guard reads 0 has no other effect even if it is illegal (R66, R99). -/
def execNop (c : Core) (s : State) : Host.Outcome State Fault Refusal :=
  .next (s.onMod (nopRow c.val))

/-- Branch (R133). -/
def execBr (c : Core) (s : State) : Host.Outcome State Fault Refusal :=
  .next (s.onMod (brRow c.val))

/-- Branch to a register (R133). -/
def execBrr (c : Core) (s : State) : Host.Outcome State Fault Refusal :=
  .next (s.onMod (brrRow c.val))

/-- Call (Table 4.13). -/
def execCall (c : Core) (s : State) : Host.Outcome State Fault Refusal :=
  .next (s.onMod (callRow c.val))

/-- Loop entry (R86). -/
def execLoop (c : Core) (s : State) : Host.Outcome State Fault Refusal :=
  .next (s.onMod (loopRow c.val))

/-- Halt with the code in r: issue stops; the core enters Halted at CORE_HALTED (R134). -/
def execHalt (c : Core) (s : State) : Host.Outcome State Fault Refusal :=
  .next (s.onMod (haltRow c.val))

/-- Clears the non-finite flag (R135). -/
def execFclr (c : Core) (s : State) : Host.Outcome State Fault Refusal :=
  .next (s.onMod (fclrRow c.val))

/-- An illegal encoding at issue raises core fault 0x01 (R98). -/
def execIllegalWord (c : Core) (s : State) : Host.Outcome State Fault Refusal :=
  .next (s.onMod (illegalRow c.val))

/-- The fetch beyond word 2,047 raises core fault 0x04 (R81). -/
def execFetchOverrun (c : Core) (s : State) : Host.Outcome State Fault Refusal :=
  .next (s.onMod (overrunRow c.val))

end Sys2Proof.Machine
end

