-- ==== Sys2Proof/Machine/Tensor.lean ====
section
/-!
DEFINITION. The tensor instructions (05_tensor_unit.md): set-up, matrix multiply-accumulate, accumulator initialisation and
read-out. An instruction is checked and captures its operands at issue, and does its work when it completes (log 8).
-/
namespace Sys2Proof.Machine

/-- Puts a checked instruction into the tensor queue, which holds two (R64). -/
def enqueueTensor (c : Nat) (q : TensorOp) (m : Mod) : Act :=
  let x := coreAt m c
  if unitBusy c x (tensorReads q) (tensorWrites q) then .stall .dep
  else if accWriteBusy x true (tAccWrites q.op) then .stall .dep
  else if 2 ≤ x.tq.length then .stall .unit
  else coreAct c (fun x => { x with tq := x.tq ++ [q] }) m

/-- A queue entry with the state a tensor instruction captures at issue (R74, R140). -/
def tensorEntry (x : CoreSt) (op : Octix) (a w sa sw : W32) (base : W64) (stream : W16) : TensorOp :=
  ⟨x.nIssued, op, x.pc, x.stageMap, a, w, sa, sw, x.txM, x.txN, x.txK, x.txH, base, stream⟩

/-- The first of these ranges that leaves the local store, by its first byte outside. R115 states the first byte outside for copies; for the
operands of tensor and vector instructions the spec says "the address" (Table 3.9), taken in the same way (DEDUCED, log 35). -/
def outsideLocal (rs : List (Nat × Nat)) : Option Nat :=
  rs.findSome? (fun r => firstOutsideLocal r.1 r.2)

/-- The faults of addresses (R143, R145, R147, R176). Where several cases hold at once the spec does not say which is raised; the model takes
the order of the rules' lists: 0x01 (by the caller), then 0x02 in the order A, W, SA, SW, or D, S, or tile, sidecar, then 0x03 in the order of
the ranges (DEDUCED, log 35). -/
def unitFault (aligned : List Nat) (ranges : List (Nat × Nat)) : Option Act :=
  match misaligned aligned with
  | some v => some (.fault 0x02 v)
  | none => match outsideLocal ranges with
    | some a => some (.fault 0x03 a)
    | none => none

/-- tmma at issue (R142, R143). -/
def tmmaAct (c : Nat) (f : MmaFields) (m : Mod) : Act :=
  let x := coreAt m c
  if f.ro ≠ 0 ∧ x.txH = 16 then .fault 0x01 (fetchWord m c x.pc.toNat).toNat else
  let a := genAddr x f.aga
  let w := genAddr x f.agw
  let sa : W32 := if f.sa then genAddr x f.ags else 0
  let sw : W32 := if f.sw then genAddr x f.agv else 0
  let q := tensorEntry x (.tmma f) a w sa sw 0 0
  match unitFault [a.toNat, w.toNat, sa.toNat, sw.toNat] (tensorRanges q) with
  | some f => f
  | none => enqueueTensor c q m

/-- tzero at issue. -/
def tzeroAct (c : Nat) (t : TReg) (m : Mod) : Act :=
  enqueueTensor c (tensorEntry (coreAt m c) (.tzero t) 0 0 0 0 0 0) m

/-- tbias at issue (R145). -/
def tbiasAct (c : Nat) (t : TReg) (ag : Gen) (m : Mod) : Act :=
  let x := coreAt m c
  let a := genAddr x ag
  let q := tensorEntry x (.tbias t ag) a 0 0 0 0 0
  match unitFault [a.toNat] (tensorRanges q) with
  | some f => f
  | none => enqueueTensor c q m

/-- tcvt at issue (R146, R147): the base and the stream are read then. -/
def tcvtAct (c : Nat) (f : CvtFields) (m : Mod) : Act :=
  let x := coreAt m c
  if regBusy x [f.rb, f.rs] [] then .stall (.regs [f.rb, f.rs]) else
  let d := genAddr x f.agd
  let s : W32 := if f.s then genAddr x f.ags else 0
  let q := tensorEntry x (.tcvt f) d 0 s 0 (rs x f.rb) (BitVec.ofNat 16 (rs x f.rs).toNat)
  match unitFault [d.toNat, s.toNat] (tensorRanges q) with
  | some f => f
  | none => enqueueTensor c q m

/-- A set-up value limited to its range (R140). -/
def tsetVal (op : TSet) (v : W64) : Nat := min v.toNat (match op with | .m => 16 | _ => 32)

/-- tsetm, tsetn and tsetk. -/
def tsetRow (c : Nat) (op : TSet) : Mod → Mod :=
  issue c (fun o => match o with
    | .tset op' a => if op' = op then some (regAct c [a] [] (fun x =>
        let v := tsetVal op (rs x a)
        match op with
        | .m => { x with txM := v }
        | .n => { x with txN := v }
        | .k => { x with txK := v })) else none
    | _ => none)

/-- tseth. -/
def tsethRow (c : Nat) : Mod → Mod :=
  issue c (fun o => match o with
    | .tseth h => some (coreAct c (fun x => { x with txH := if h then 32 else 16 }))
    | _ => none)

/-! ## The array's work -/

/-- Elements of a row at a core address. -/
def rowElems (m : Mod) (c : Nat) (map : Bool) (f : Fmt) (a : Nat) : List Nat :=
  (unpackElems f (coreRead m c map a (rowBytes f))).take 32

/-- The elements of a row decoded; from element `k` on they count as +0 and are not decoded (R142, R144). -/
def decodeRow (f : Fmt) (k : Nat) (codes : List Nat) : List XV :=
  (codes.take k).map (decodeF f) ++ List.replicate (32 - k) (.fin false 0 0)

/-- The scale of stored A row `r` of block `k` (R138). -/
def aScaleAt (q : TensorOp) (k r : Nat) : Nat :=
  if r < 16 then q.sa.toNat + 16 * k + r else q.sa.toNat + 1024 + 16 * k + (r - 16)

/-- The contribution of block `k` to element (i, j) (R142). -/
def mmaBlock (m : Mod) (c : Nat) (q : TensorOp) (f : MmaFields) (i j k : Nat) : XV :=
  let cut := if f.m && k == f.nb.val then q.txK else 32
  let r := i + f.ro.val
  let arow := rowElems m c q.map f.fa (q.a.toNat + k * tileBytes f.fa * q.txH / 16 + r * rowBytes f.fa)
  let wrow := rowElems m c q.map f.fw (q.w.toNat + k * tileBytes f.fw + j * rowBytes f.fw)
  let byte (a : Nat) : Nat := leNat (coreRead m c q.map a 1)
  blockSum (decodeRow f.fa cut arow) (decodeRow f.fw cut wrow)
    (if f.sa then some (byte (aScaleAt q k r)) else none)
    (if f.sw then some (byte (q.sw.toNat + 16 * k + j)) else none)
    (fmtQmin f.fa) (fmtQmin f.fw)

/-- Element (i, j) after tmma, and whether its value was computed and not masked (R142). -/
def mmaElem (m : Mod) (c : Nat) (q : TensorOp) (f : MmaFields) (x : CoreSt) (i j : Nat) : W32 × Bool :=
  let old : W32 := if f.z then 0 else rt x f.t.val i j
  if f.m && (decide (q.txM ≤ i) || decide (q.txN ≤ 16 * (f.t.val % 2) + j)) then (old, false)
  else ((List.range (f.nb.val + 1)).foldl (fun acc k => addRoundOnce acc (mmaBlock m c q f i j k)) old, true)

/-- tmma at completion: the accumulator, and the flag if a computed value is NaN or infinite (R60). -/
def mmaDone (m : Mod) (c : Nat) (q : TensorOp) (f : MmaFields) : Mod :=
  let x := coreAt m c
  let es := (List.range 256).map (fun e => mmaElem m c q f x (e / 16) (e % 16))
  setCore m c (flagIf (setTs x f.t.val 0 (es.map (·.1))) (es.any (fun e => e.2 && fpNonFinite e.1)))

/-- One row of a tcvt: scale code, element codes, flag (R146). -/
def cvtRow (x : CoreSt) (q : TensorOp) (f : CvtFields) (i : Nat) : Nat × List Nat × Bool :=
  let ctl : ConvCtl := ⟨f.f, f.rnd, f.sat, x.seed, x.slate, q.stream.toNat, q.base⟩
  let lo := if f.p then 0 else 16 * (f.t.val % 2)
  let n := if f.p then 32 else 16
  let cols := natsFrom lo n
  let t0 := if f.p then f.t.val else f.t.val - f.t.val % 2
  let vals := cols.map (pairAt x t0 i)
  let idxs := cols.map (fun jn => 32 * i + jn)
  if f.s then convBlock ctl idxs vals
  else
    let es := (idxs.zip vals).map (fun p => convElem ctl p.1 p.2)
    (0, es.map (·.1), es.any (·.2))

/-- tcvt at completion: rows of the T-tile, the sidecar, and the flag. The sidecar and row 15 are written in one cycle, a + 21 (Table 5.5), and
the spec gives no order for a slot that overlaps row 15: the sidecar's bytes remain (DESIGN CHOICE, log 35). -/
def cvtDone (m : Mod) (c : Nat) (q : TensorOp) (f : CvtFields) : Mod :=
  let x := coreAt m c
  let rows := (List.range 16).map (cvtRow x q f)
  let col := if f.p then 0 else 16 * (f.t.val % 2)
  let m := ((List.range 16).zip rows).foldl (fun m r =>
    coreWrite m c q.map (q.a.toNat + r.1 * rowBytes f.f + col * fmtStoreBits f.f / 8) (packElems f.f r.2.2.1)) m
  let m := if f.s then
      coreWrite m c q.map (q.sa.toNat + 16 * f.slot.val) (rows.map (fun r => BitVec.ofNat 8 r.1)) else m
  setCore m c (flagIf (coreAt m c) (rows.any (·.2.2)))

/-- An earlier vector instruction, or tld, still has to use an accumulator that this one uses (R149, R158, R117). -/
def earlierVec (x : CoreSt) (seq : Nat) (ts : List Nat) : Bool :=
  x.vq.any (fun q => decide (q.seq < seq) && meets ts (vAccWrites q.op q.x ++ vAccReads q.op q.x))
    || x.mq.any (fun q => decide (q.seq < seq) && (match q.kind with | .tld d | .tst d => ts.contains d.val | _ => false))

/-! ### Uncorrectable errors (R95, R152, R176) -/

/-- An accumulator whose elements are unspecified: free values. -/
def freeAcc (m : Mod) (c t : Nat) : Mod :=
  let ws := (List.range 256).map (fun e => BitVec.ofNat 32 (Config.freeWord (m.free + e)).toNat)
  setCore { m with free := m.free + 256 } c (setTs (coreAt m c) t 0 ws)

/-- A vector register whose lanes are unspecified: free values. -/
def freeVec (m : Mod) (c : Nat) (r : VReg) : Mod :=
  let ws := (List.range 32).map (fun e => BitVec.ofNat 32 (Config.freeWord (m.free + e)).toNat)
  setCore { m with free := m.free + 32 } c (setLanes (coreAt m c) r 0 ws)

/-- The instruction with place `seq` and what issued after it and has not completed stop (R95). -/
def stopAfter (x : CoreSt) (seq : Nat) : CoreSt :=
  { x with tq := x.tq.filter (fun q => decide (q.seq < seq)), vq := x.vq.filter (fun q => decide (q.seq < seq))
           mq := x.mq.filter (fun q => decide (q.seq < seq)), loads := x.loads.filter (fun q => decide (q.seq < seq)) }

/-- The executing instruction meets an uncorrectable error at an address: fault 0x09 at its word index; the accumulators and vector registers it
writes hold unspecified values, and the error is contained (R95, R437). A core that is Faulted already, whose executing instruction
runs on (Table 3.6), records this fault in place of the earlier one (DEDUCED, log 35). -/
def unitEcc (m : Mod) (c seq pc : Nat) (accs : List Nat) (regs : List VReg) (addr : Nat) : Mod :=
  let m := setCore m c (stopAfter (coreAt m c) seq)
  let m := accs.foldl (fun m t => freeAcc m c t) m
  let m := regs.foldl (fun m r => freeVec m c r) m
  eccContain (coreFault m c 0x09 pc addr) c 0 addr

/-- The executing tensor instruction completes (R148), unless its reads meet an uncorrectable error. -/
def tensorComplete (c : Nat) (m : Mod) : Mod :=
  let x := coreAt m c
  match x.tq with
  | [] => m
  | q :: rest =>
    if !clRolling m (clusterOf c) || earlierVec x q.seq (tAccWrites q.op ++ tAccReads q.op) then m
    else match badOf m c q.map (tensorReads q) with
    | some a => unitEcc m c q.seq q.pc.toNat (tAccWrites q.op) [] a
    | none =>
      let m := setCore (bumpFree m) c { x with tq := rest }
      match q.op with
      | .tmma f => mmaDone m c q f
      | .tzero t => setCore m c (setTs (coreAt m c) t.val 0 (List.replicate 256 0))
      | .tbias t _ =>
        let row := words32 (coreRead m c q.map q.a.toNat 64)
        setCore m c (setTs (coreAt m c) t.val 0 ((List.range 16).flatMap (fun _ => row)))
      | .tcvt f => cvtDone m c q f
      | _ => m

/-! ## The rows -/

/-- Matrix multiply-accumulate (R142). -/
def execTmma (c : Core) (s : State) : Host.Outcome State Fault Refusal :=
  .next (s.onMod (issue c.val (fun o => match o with
    | .tmma f => some (tmmaAct c.val f)
    | _ => none)))

/-- Clears an accumulator (R145). -/
def execTzero (c : Core) (s : State) : Host.Outcome State Fault Refusal :=
  .next (s.onMod (issue c.val (fun o => match o with
    | .tzero t => some (tzeroAct c.val t)
    | _ => none)))

/-- Sets every row of an accumulator from memory (R145). -/
def execTbias (c : Core) (s : State) : Host.Outcome State Fault Refusal :=
  .next (s.onMod (issue c.val (fun o => match o with
    | .tbias t ag => some (tbiasAct c.val t ag)
    | _ => none)))

/-- Read-out with conversion (R146). -/
def execTcvt (c : Core) (s : State) : Host.Outcome State Fault Refusal :=
  .next (s.onMod (issue c.val (fun o => match o with
    | .tcvt f => some (tcvtAct c.val f)
    | _ => none)))

/-- Sets TX_M (R140). -/
def execTsetm (c : Core) (s : State) : Host.Outcome State Fault Refusal := .next (s.onMod (tsetRow c.val .m))
/-- Sets TX_N (R140). -/
def execTsetn (c : Core) (s : State) : Host.Outcome State Fault Refusal := .next (s.onMod (tsetRow c.val .n))
/-- Sets TX_K (R140). -/
def execTsetk (c : Core) (s : State) : Host.Outcome State Fault Refusal := .next (s.onMod (tsetRow c.val .k))
/-- Sets TX_H (R140). -/
def execTseth (c : Core) (s : State) : Host.Outcome State Fault Refusal := .next (s.onMod (tsethRow c.val))
/-- The executing tensor instruction completes (R148). -/
def execTensorComplete (c : Core) (s : State) : Host.Outcome State Fault Refusal :=
  .next (s.onMod (tensorComplete c.val))

end Sys2Proof.Machine
end

