-- ==== Sys2Proof/Machine/Vector.lean ====
section
/-!
DEFINITION. The vector instructions (06_vector_functions.md): the reference procedures of exp2 and log2, the lane
operations, conversions, and the tile steps of the soft maximum and of normalisation. An instruction reads its registers at
issue and does its work when it completes (log 8).
-/
namespace Sys2Proof.Machine

/-! ## exp2 and log2 (R164, R165) -/

def exp2Table0 : List Nat :=
  [2147483648, 2170868212, 2194507417, 2218404036,
   2242560872, 2266980759, 2291666561, 2316621173,
   2341847524, 2367348571, 2393127307, 2419186755,
   2445529972, 2472160047, 2499080105, 2526293303]
def exp2Table1 : List Nat :=
  [2553802834, 2581611923, 2609723834, 2638141863,
   2666869345, 2695909648, 2725266179, 2754942382,
   2784941738, 2815267765, 2845924021, 2876914102,
   2908241642, 2939910317, 2971923842, 3004285971]
def exp2Table2 : List Nat :=
  [3037000500, 3070071267, 3103502151, 3137297074,
   3171459999, 3205994934, 3240905930, 3276197082,
   3311872529, 3347936457, 3384393094, 3421246719,
   3458501653, 3496162267, 3534232978, 3572718252]
def exp2Table3 : List Nat :=
  [3611622603, 3650950594, 3690706840, 3730896002,
   3771522796, 3812591987, 3854108391, 3896076880,
   3938502376, 3981389855, 4024744348, 4068570940,
   4112874773, 4157661043, 4202935003, 4248701965]

/-- T[i] = round(2^31 × 2^(i/64)) for i from 0 to 63 (R164). -/
def exp2Table : List Nat := exp2Table0 ++ exp2Table1 ++ exp2Table2 ++ exp2Table3

def log2Table0 : List Int :=
  [-7656090530189244512, -7107348899726412186, -6569693720661436430, -6042685881684746724,
   -5525911854099571095, -5018981742363894217, -4521527516858181921, -4033201408813144078,
   -3553674449863206093, -3082635140864238617, -2619788236484586918, -2164853633693079141,
   -1717565353665186919, -1277670607841172749, -844928939924941487, -419111436532143502]
def log2Table1 : List Int :=
  [0, 412613322424486499, 818926958183105433, 1219130382413175476,
   1613404648504497789, 2001922879925238372, 2384850726660851500, 2762346789278069823,
   3134563013331062591, 3501645056564487676, 3863732631134349280, 4220959822858870674,
   4573455389325005895, 4921343038509143852, 5264741689420736009, 5603765716143027046]
def log2Table2 : List Int :=
  [5938525176524057593, 6269126026662125183, 6595670322231605598, 6918256407606284491,
   7236979093657101011, 7551929825028555382, 7863196837632180880, 8170865307035720186,
   8475017488372349945, 8775732848344909873, 9073088189855120184, 9367157769746774429,
   9658013410114482884, 9945724603595365617, 10230358613029842718, 10511980565849063488]
def log2Table3 : List Int :=
  [10790653543520307104]

/-- L[i] = round(2^64 × log2((64 + i) / 64)) for i from −16 to 32 (R165). -/
def log2Table : List Int := log2Table0 ++ log2Table1 ++ log2Table2 ++ log2Table3

/-- C1 of R164: round(2^32 × ln 2). -/
def exp2C1 : Nat := 2977044472
/-- C2: round(2^32 × (ln 2)^2 / 2). -/
def exp2C2 : Nat := 1031764991
/-- C3: round(2^32 × (ln 2)^3 / 6). -/
def exp2C3 : Nat := 238388332

/-- exp2_ref of R164. A finite FP32 value is a whole number of units of 2^-149. -/
def exp2Ref (x : W32) : W32 :=
  match fpX x with
  | .nan => fpNaN
  | .inf s => if s then 0 else fpInf false
  | .fin s n _ =>
    if !s ∧ 128 * 2 ^ 149 ≤ n then fpInf false
    else if s ∧ 160 * 2 ^ 149 < n then 0
    else
      let t := floorShift (xvInt s n) 117
      let e := floorShift t 32
      let f := (t - e * 2 ^ 32).toNat
      let i := f / 2 ^ 26
      let r := f % 2 ^ 26
      let a3 := exp2C3 * r / 2 ^ 32
      let a2 := (exp2C2 + a3) * r / 2 ^ 32
      let a1 := (exp2C1 + a2) * r / 2 ^ 32
      let y := exp2Table.getD i 0 * (2 ^ 32 + a1) / 2 ^ 32
      fpRound false y (e - 31)

/-- A[1] to A[7] of R165. -/
def log2A : List Int := [18446744073709551616, -9223372036854775808, 6148914691236517205, -4611686018427387904,
  3689348814741910323, -3074457345618258603, 2635249153387078802]

/-- K of R165: round(2^64 / ln 2). -/
def log2K : Int := 26613026195688644983

/-- log2_ref of R165. -/
def log2Ref (x : W32) : W32 :=
  match fpX x with
  | .nan => fpNaN
  | .inf s => if s then fpNaN else fpInf false
  | .fin s n _ =>
    if n = 0 then fpInf true
    else if s then fpNaN
    else
      let len := Nat.log2 n
      let half := decide (3 * 2 ^ len ≤ 2 * n)
      let e : Int := (len : Int) - 149 + (if half then 1 else 0)
      let mi : Int := (n * 2 ^ (if half then 23 else 24) / 2 ^ len : Nat)
      let i := floorShift (mi - 2 ^ 24 + 2 ^ 17) 18
      let u := (2 ^ 46 * (mi - (64 + i) * 2 ^ 18)).fdiv (64 + i)
      let h := (log2A.take 6).foldr (fun a h => a + floorShift (h * u) 64) (log2A.getD 6 0)
      let ln := floorShift (h * u) 64
      let l : Int := log2Table.getD (i + 16).toNat 0
      let z : Int := e * ((2 ^ 64 : Nat) : Int) + l + floorShift (ln * log2K) 64
      if z = 0 then 0 else fpRound (decide (z < 0)) z.natAbs (-64)

/-! ## Lane operations (Tables 6.2, 6.3) -/

/-- 1.0. -/
def fpOne : W32 := 0x3F800000
/-- L2E and LN2 of R168. -/
def fpL2E : W32 := 0x3FB8AA3B
def fpLN2 : W32 := 0x3F317218

/-- vsigm of Table 6.3. -/
def vsigm (a : W32) : W32 := fpDiv fpOne (fpAdd fpOne (exp2Ref (fpMul a (fpNeg fpL2E))))

/-- A compare's mask (R161). -/
def maskOf (b : Bool) : W32 := if b then 0xFFFFFFFF else 0

/-- One lane of an instruction that works lane by lane; `l` is the lane and `s` the value of register s. -/
def laneOp (op : VOp) (s : W64) (l : Nat) (a b c : W32) : W32 :=
  match op with
  | .vadd => fpAdd a b
  | .vsub => fpSub a b
  | .vmul => fpMul a b
  | .vfma => fpFma a b c
  | .vmin => fpMin a b
  | .vmax => fpMax a b
  | .vabs => fpAbs a
  | .vneg => fpNeg a
  | .vdiv => fpDiv a b
  | .vsqrt => fpSqrt a
  | .vmov => a
  | .vexp2 => exp2Ref a
  | .vlog2 => log2Ref a
  | .vexp => exp2Ref (fpMul a fpL2E)
  | .vln => fpMul (log2Ref a) fpLN2
  | .vpow => exp2Ref (fpMul b (log2Ref a))
  | .vsigm => vsigm a
  | .vsilu => fpMul a (vsigm a)
  | .vtanh => fpFma 0x40000000 (vsigm (fpMul 0x40000000 a)) 0xBF800000
  | .vceq => maskOf (fpEq a b)
  | .vclt => maskOf (fpLt a b)
  | .vcle => maskOf (fpLe a b)
  | .vsel => if c ≠ 0 then a else b
  | .vand => a &&& b
  | .vor => a ||| b
  | .vandn => a &&& ~~~b
  | .vlmask => maskOf (decide (l < s.toNat))
  | _ => 0

/-- The result kind of R157: raw results never set the flag. -/
def vIsRaw : VOp → Bool
  | .vmov | .vceq | .vclt | .vcle | .vsel | .vand | .vor | .vandn | .vlmask | .vpk => true
  | _ => false

/-- One level of the tree of R162. -/
def treeLevel : List W32 → List W32
  | a :: b :: r => fpAdd a b :: treeLevel r
  | r => r

/-- The tree sum of 32 lanes (R162). -/
def treeSum (w : List W32) : W32 := (treeLevel (treeLevel (treeLevel (treeLevel (treeLevel w))))).headD 0

/-- A reduction across lanes by vmin or vmax. -/
def foldLanes (f : W32 → W32 → W32) : List W32 → W32
  | [] => 0
  | a :: r => r.foldl f (fpCanon a)

/-- What a register instruction writes to its 32 lanes, and whether the flag sets (Tables 6.2, 6.3; R163). -/
def regResult (x : CoreSt) (q : VecOp) : List W32 × Bool :=
  let fp (ws : List W32) : List W32 × Bool := (ws, ws.any fpNonFinite)
  let ctl : ConvCtl := ⟨q.x.f, q.x.rnd, q.x.sat, x.seed, x.slate, q.stream.toNat, q.s⟩
  match q.op with
  | .vrsum => fp (List.replicate 32 (treeSum q.va))
  | .vrmax => fp (List.replicate 32 (foldLanes fpMax q.va))
  | .vrmin => fp (List.replicate 32 (foldLanes fpMin q.va))
  | .vq =>
    let es := ((List.range 32).zip q.va).map (fun p => convElem ctl p.1 p.2)
    let ws := es.map (fun e => xvRound (decodeF q.x.f e.1))
    (ws, es.any (·.2) || ws.any fpNonFinite)
  | .vpk =>
    let (scale, codes, flag) :=
      if q.x.sb then convBlock ctl (List.range 32) q.va
      else
        let es := ((List.range 32).zip q.va).map (fun p => convElem ctl p.1 p.2)
        (0, es.map (·.1), es.any (·.2))
    let bs := (packElems q.x.f codes ++ List.replicate 128 0).take 128
    (words32 (if q.x.sb then bs.set 124 (BitVec.ofNat 8 scale) else bs), flag)
  | op =>
    let ws := (List.range 32).map (fun l => laneOp op q.s l (q.va.getD l 0) (q.vb.getD l 0) (q.vc.getD l 0))
    if vIsRaw op then (ws, false) else fp ws

/-! ## Tile steps (Table 6.4) -/

/-- Writes columns of row `i` of a pair from column `jn` upward, and sets the flag for a value that is not finite. -/
def putRow (x : CoreSt) (t i jn : Nat) : List W32 → CoreSt
  | [] => x
  | v :: vs => putRow (flagIf (setPair x t i jn v) (fpNonFinite v)) t i (jn + 1) vs

/-- vtdec: row `i` of the T-tile decoded into the pair (R169). -/
def vtdecRow (m : Mod) (c : Nat) (q : VecOp) (x : CoreSt) (i : Nat) : CoreSt :=
  let codes := rowElems m c q.map q.x.f (q.addr.toNat + i * rowBytes q.x.f)
  let scale := if q.x.sc then some (leNat (coreRead m c q.map (bits q.s 31 0 + 16 * q.x.slot.val + i) 1)) else none
  let es := codes.map (fun e => decodeScaled q.x.f e scale q.x.rnd q.x.sat)
  flagIf (putRow x q.x.ta.val i 0 (es.map (fun e => BitVec.ofNat 32 e.1))) (es.any (·.2))

/-- Row `i` of vsmax: mn, al, ln and the weights P (R171). -/
def smaxRow (x : CoreSt) (q : VecOp) (i : Nat) : W32 × W32 × W32 × List W32 :=
  let mo := q.va.getD i 0
  let lo := q.vc.getD i 0
  let t := q.x.ta.val
  if q.x.mask && decide (q.txM ≤ i) then (fpCanon mo, fpOne, fpCanon lo, List.replicate 32 0)
  else
    let c := q.vb.getD 0 0
    let valid (jn : Nat) : Bool :=
      !(q.x.mask && decide (q.txN ≤ jn)) && !(q.x.causal && decide (q.s.toInt < (jn : Int) - i))
    let xs := (List.range 32).map (fun jn => (valid jn, fpMul (pairAt x t i jn) c))
    let mn := xs.foldl (fun m p => if p.1 then fpMax m p.2 else m) (fpCanon mo)
    let al := exp2Ref (fpSub mo mn)
    let ps := xs.map (fun p => if p.1 then exp2Ref (fpSub p.2 mn) else 0)
    (mn, al, fpFma lo al (treeSum ps), ps)

/-- vsmax: the weights into the pair, then vd, then vc (R171). -/
def smaxDone (x : CoreSt) (q : VecOp) : CoreSt :=
  let rows := (List.range 16).map (smaxRow x q)
  let y := ((List.range 16).zip rows).foldl (fun y r => putRow y q.x.ta.val r.1 0 r.2.2.2.2) x
  let mns := rows.map (·.1)
  let als := rows.map (·.2.1)
  let lns := rows.map (·.2.2.1)
  let y := setLanes y q.x.vd 0 (mns ++ als)
  let y := setLanes y q.x.vc 0 lns
  flagIf y ((mns ++ als ++ lns).any fpNonFinite)

/-- vrscale on accumulator `t` (R172). -/
def rscale (q : VecOp) (x : CoreSt) (t : Nat) : CoreSt :=
  let es := (List.range 256).map (fun e =>
    fpMul (rt x t (e / 16) (e % 16)) (q.va.getD (e / 16 + (if q.x.h then 16 else 0)) 0))
  flagIf (setTs x t 0 es) (es.any fpNonFinite)

/-- vrowk (R173). -/
def rowkDone (x : CoreSt) (q : VecOp) : CoreSt :=
  let ws := (List.range 16).map (fun i => fpCanon (rt x q.x.ta.val i 0))
  flagIf (setLanes x q.x.vd 0 (ws ++ List.replicate 16 0)) (ws.any fpNonFinite)

/-- Row `i` of vnsum: the new S1 and S2 (R173). -/
def nsumRow (x : CoreSt) (q : VecOp) (i : Nat) : W32 × W32 :=
  let s1 := q.vd.getD i 0
  let s2 := q.vd.getD (16 + i) 0
  if q.x.mask && decide (q.txM ≤ i) then (s1, s2)
  else
    let k := q.va.getD i 0
    let d := (List.range 32).map (fun jn =>
      if q.x.mask && decide (q.txN ≤ jn) then (0 : W32) else fpSub (pairAt x q.x.ta.val i jn) k)
    (fpAdd s1 (treeSum d), fpAdd s2 (treeSum (d.map (fun v => fpMul v v))))

/-- vnsum: lanes of masked rows are unchanged, so only the others can set the flag. -/
def nsumDone (x : CoreSt) (q : VecOp) : CoreSt :=
  let rows := (List.range 16).map (nsumRow x q)
  let y := setLanes x q.x.vd 0 (rows.map (·.1) ++ rows.map (·.2))
  flagIf y (((List.range 16).zip rows).any (fun r =>
    !(q.x.mask && decide (q.txM ≤ r.1)) && (fpNonFinite r.2.1 || fpNonFinite r.2.2)))

/-- Lane `i` of vnstat: the mean, the variance as written, and whether it was clamped (R174). For a count of 0 with S2 below zero and S1 not zero
the rule's sequence gives v = -∞, which is clamped, while its last words say that every v is NaN; a sum of squares is never below zero, and the
model follows the sequence (DEDUCED, log 35). -/
def nstatLane (q : VecOp) (i : Nat) : W32 × W32 × Bool :=
  let n := fpOfNat q.s.toNat
  let a := fpDiv (q.va.getD i 0) n
  let b := fpDiv (q.va.getD (16 + i) 0) n
  let v := fpSub b (fpMul a a)
  let mean := fpAdd (q.vb.getD i 0) a
  if fpLt v 0 then (mean, 0, true) else (mean, if fpEq v 0 then 0 else v, false)

/-- vnstat: the lanes, CORE_CANCEL and the flag. -/
def nstatDone (x : CoreSt) (q : VecOp) : CoreSt :=
  let ls := (List.range 16).map (nstatLane q)
  let ws := ls.map (·.1) ++ ls.map (·.2.1)
  let n := (ls.filter (·.2.2)).length
  let y := setLanes x q.x.vd 0 ws
  flagIf { y with cancel := BitVec.ofNat 32 (satAdd 32 y.cancel.toNat n) } (ws.any fpNonFinite)

/-- vnapply on row `i` (R175). -/
def napplyRow (q : VecOp) (x : CoreSt) (i : Nat) : CoreSt :=
  let mean := q.va.getD i 0
  let r := q.va.getD (16 + i) 0
  putRow x q.x.ta.val i 0 ((List.range 32).map (fun jn =>
    fpFma (fpMul (fpSub (pairAt x q.x.ta.val i jn) mean) r) (q.vb.getD jn 0) (q.vc.getD jn 0)))

/-! ## Issue and completion -/

/-- A vector instruction at issue: registers available, address checks of vtdec (R176), hazards, a place in the queue. -/
def vecAct (c : Nat) (op : VOp) (f : VFields) (m : Mod) : Act :=
  let x := coreAt m c
  let u := vUse op
  let vs := (if u.va then [f.va] else []) ++ (if u.vb && !f.bs then [f.vb] else []) ++ (if u.vc then [f.vc] else [])
    ++ (if u.vd then [f.vd] else [])
  if regBusy x [f.s, f.rs] vs then .stall (.regs [f.s, f.rs]) else
  let q : VecOp := {
    seq := x.nIssued, op := op, x := f, pc := x.pc, map := x.stageMap, va := rv x f.va
    vb := if f.bs then List.replicate 32 (rs32 x f.s) else rv x f.vb
    vc := rv x f.vc, vd := rv x f.vd, s := rs x f.s, stream := BitVec.ofNat 16 (rs x f.rs).toNat
    addr := if op = .vtdec then genAddr x f.ag else 0, txM := x.txM, txN := x.txN }
  match (if op = .vtdec then unitFault (q.addr.toNat :: (if f.sc then [bits q.s 31 0] else [])) (vecReads q) else none) with
  | some fault => fault
  | none =>
    if unitBusy c x (vecReads q) [] || accReadBusy x (vAccReads op f) || accWriteBusy x false (vAccWrites op f)
    then .stall .dep
    else if 2 ≤ x.vq.length then .stall .unit
    else coreAct c (fun x => { x with vq := x.vq ++ [q] }) m

/-- The row of a vector instruction. -/
def vecRow (c : Nat) (op : VOp) : Mod → Mod :=
  issue c (fun o => match o with
    | .vec op' f => if op' = op then some (vecAct c op f) else none
    | _ => none)

/-- What a vector instruction does to its core when it completes. -/
def vecDone (m : Mod) (c : Nat) (q : VecOp) (x : CoreSt) : CoreSt :=
  match q.op with
  | .vtdec => (List.range 16).foldl (vtdecRow m c q) x
  | .vsmax => smaxDone x q
  | .vrscale =>
    let y := rscale q x q.x.ta.val
    if q.x.p then rscale q y (q.x.ta.val + 1) else y
  | .vrowk => rowkDone x q
  | .vnsum => nsumDone x q
  | .vnstat => nstatDone x q
  | .vnapply => (List.range 16).foldl (napplyRow q) x
  | _ =>
    let (ws, flag) := regResult x q
    flagIf (setLanes x q.x.vd 0 ws) flag

/-- The executing vector instruction completes (R156), unless its reads meet an uncorrectable error; its accumulator writes follow those of earlier tensor instructions
(R158). -/
def vectorComplete (c : Nat) (m : Mod) : Mod :=
  let x := coreAt m c
  match x.vq with
  | [] => m
  | q :: rest =>
    let ts := vAccWrites q.op q.x
    if !clRolling m (clusterOf c) || x.tq.any (fun t => decide (t.seq < q.seq) && meets ts (tAccWrites t.op ++ tAccReads t.op))
      || x.mq.any (fun t => decide (t.seq < q.seq) && (match t.kind with | .tld d | .tst d => ts.contains d.val | _ => false))
    then m
    else match badOf m c q.map (vecReads q) with
    | some a => unitEcc m c q.seq q.pc.toNat (vAccWrites q.op q.x) (vRegWrites q.op q.x) a
    | none =>
      let m := setCore (bumpFree m) c { x with vq := rest }
      setCore m c (vecDone m c q (coreAt m c))

/-! ## Uncorrectable errors of a core's stores (R95, R152, R176, R436) -/

/-- A range holds the word of an address. -/
def meetsWord (c : Nat) (map : Bool) (rs : List (Nat × Nat)) (key : Nat) : Bool :=
  rs.any (fun r => (natsFrom r.1 r.2).any (fun a => coreKey c map a / 8 == key / 8))

/-- A word of a core's local store, instruction store or cluster store gets an uncorrectable error (log 34). Where the executing tensor
instruction, or vector instruction, reads that word of the local store, it meets the error at once: fault 0x09. Any other read meets it when
it is made. `addr` is a core address, or a word index of the instruction store. -/
def eccFault (c : Nat) (store : EccStore) (addr : Nat) (m : Mod) : Mod :=
  match store with
  | .instr => if addr < 2048 then eccStrike m 1 (c * 0x4000 + 8 * addr) else m
  | .cluster => if coreCs ≤ addr ∧ addr < coreCsTop then eccStrike m 2 (coreKey c false addr) else m
  | .localStore vec =>
    if lsTop ≤ addr then m else
    let x := coreAt m c
    let key (map : Bool) := coreKey c map addr
    let at_ (map : Bool) := eccStrike m 0 (key map)
    if vec then
      match x.vq with
      | q :: _ =>
        if meetsWord c q.map (vecReads q) (key q.map) && clRolling m (clusterOf c)
        then unitEcc (at_ q.map) c q.seq q.pc.toNat (vAccWrites q.op q.x) (vRegWrites q.op q.x) addr
        else at_ x.stageMap
      | [] => at_ x.stageMap
    else
      match x.tq with
      | q :: _ =>
        if meetsWord c q.map (tensorReads q) (key q.map) && clRolling m (clusterOf c)
        then unitEcc (at_ q.map) c q.seq q.pc.toNat (tAccWrites q.op) [] addr
        else at_ x.stageMap
      | [] => at_ x.stageMap

/-! ## The rows -/

/-- The row of vadd (R160). -/
def execVadd (c : Core) (s : State) : Host.Outcome State Fault Refusal := .next (s.onMod (vecRow c.val .vadd))
/-- The row of vsub (R160). -/
def execVsub (c : Core) (s : State) : Host.Outcome State Fault Refusal := .next (s.onMod (vecRow c.val .vsub))
/-- The row of vmul (R160). -/
def execVmul (c : Core) (s : State) : Host.Outcome State Fault Refusal := .next (s.onMod (vecRow c.val .vmul))
/-- The row of vfma (R160). -/
def execVfma (c : Core) (s : State) : Host.Outcome State Fault Refusal := .next (s.onMod (vecRow c.val .vfma))
/-- The row of vmin (R160). -/
def execVmin (c : Core) (s : State) : Host.Outcome State Fault Refusal := .next (s.onMod (vecRow c.val .vmin))
/-- The row of vmax (R160). -/
def execVmax (c : Core) (s : State) : Host.Outcome State Fault Refusal := .next (s.onMod (vecRow c.val .vmax))
/-- The row of vabs (R160). -/
def execVabs (c : Core) (s : State) : Host.Outcome State Fault Refusal := .next (s.onMod (vecRow c.val .vabs))
/-- The row of vneg (R160). -/
def execVneg (c : Core) (s : State) : Host.Outcome State Fault Refusal := .next (s.onMod (vecRow c.val .vneg))
/-- The row of vdiv (R160). -/
def execVdiv (c : Core) (s : State) : Host.Outcome State Fault Refusal := .next (s.onMod (vecRow c.val .vdiv))
/-- The row of vsqrt (R160). -/
def execVsqrt (c : Core) (s : State) : Host.Outcome State Fault Refusal := .next (s.onMod (vecRow c.val .vsqrt))
/-- The row of vmov (R157). -/
def execVmov (c : Core) (s : State) : Host.Outcome State Fault Refusal := .next (s.onMod (vecRow c.val .vmov))
/-- The row of vexp2 (R164). -/
def execVexp2 (c : Core) (s : State) : Host.Outcome State Fault Refusal := .next (s.onMod (vecRow c.val .vexp2))
/-- The row of vlog2 (R165). -/
def execVlog2 (c : Core) (s : State) : Host.Outcome State Fault Refusal := .next (s.onMod (vecRow c.val .vlog2))
/-- The row of vceq (R161). -/
def execVceq (c : Core) (s : State) : Host.Outcome State Fault Refusal := .next (s.onMod (vecRow c.val .vceq))
/-- The row of vclt (R161). -/
def execVclt (c : Core) (s : State) : Host.Outcome State Fault Refusal := .next (s.onMod (vecRow c.val .vclt))
/-- The row of vcle (R161). -/
def execVcle (c : Core) (s : State) : Host.Outcome State Fault Refusal := .next (s.onMod (vecRow c.val .vcle))
/-- The row of vsel (R159). -/
def execVsel (c : Core) (s : State) : Host.Outcome State Fault Refusal := .next (s.onMod (vecRow c.val .vsel))
/-- The row of vand (R159). -/
def execVand (c : Core) (s : State) : Host.Outcome State Fault Refusal := .next (s.onMod (vecRow c.val .vand))
/-- The row of vor (R159). -/
def execVor (c : Core) (s : State) : Host.Outcome State Fault Refusal := .next (s.onMod (vecRow c.val .vor))
/-- The row of vandn (R159). -/
def execVandn (c : Core) (s : State) : Host.Outcome State Fault Refusal := .next (s.onMod (vecRow c.val .vandn))
/-- The row of vlmask (R159). -/
def execVlmask (c : Core) (s : State) : Host.Outcome State Fault Refusal := .next (s.onMod (vecRow c.val .vlmask))
/-- The row of vrsum (R162). -/
def execVrsum (c : Core) (s : State) : Host.Outcome State Fault Refusal := .next (s.onMod (vecRow c.val .vrsum))
/-- The row of vrmax (R162). -/
def execVrmax (c : Core) (s : State) : Host.Outcome State Fault Refusal := .next (s.onMod (vecRow c.val .vrmax))
/-- The row of vrmin (R162). -/
def execVrmin (c : Core) (s : State) : Host.Outcome State Fault Refusal := .next (s.onMod (vecRow c.val .vrmin))
/-- The row of vq (R163). -/
def execVq (c : Core) (s : State) : Host.Outcome State Fault Refusal := .next (s.onMod (vecRow c.val .vq))
/-- The row of vpk (R163). -/
def execVpk (c : Core) (s : State) : Host.Outcome State Fault Refusal := .next (s.onMod (vecRow c.val .vpk))
/-- The row of vnstat (R174). -/
def execVnstat (c : Core) (s : State) : Host.Outcome State Fault Refusal := .next (s.onMod (vecRow c.val .vnstat))
/-- The row of vexp (R168). -/
def execVexp (c : Core) (s : State) : Host.Outcome State Fault Refusal := .next (s.onMod (vecRow c.val .vexp))
/-- The row of vln (R168). -/
def execVln (c : Core) (s : State) : Host.Outcome State Fault Refusal := .next (s.onMod (vecRow c.val .vln))
/-- The row of vpow (R168). -/
def execVpow (c : Core) (s : State) : Host.Outcome State Fault Refusal := .next (s.onMod (vecRow c.val .vpow))
/-- The row of vsigm (R168). -/
def execVsigm (c : Core) (s : State) : Host.Outcome State Fault Refusal := .next (s.onMod (vecRow c.val .vsigm))
/-- The row of vsilu (R168). -/
def execVsilu (c : Core) (s : State) : Host.Outcome State Fault Refusal := .next (s.onMod (vecRow c.val .vsilu))
/-- The row of vtanh (R168). -/
def execVtanh (c : Core) (s : State) : Host.Outcome State Fault Refusal := .next (s.onMod (vecRow c.val .vtanh))
/-- The row of vtdec (R169). -/
def execVtdec (c : Core) (s : State) : Host.Outcome State Fault Refusal := .next (s.onMod (vecRow c.val .vtdec))
/-- The row of vsmax (R171). -/
def execVsmax (c : Core) (s : State) : Host.Outcome State Fault Refusal := .next (s.onMod (vecRow c.val .vsmax))
/-- The row of vrscale (R172). -/
def execVrscale (c : Core) (s : State) : Host.Outcome State Fault Refusal := .next (s.onMod (vecRow c.val .vrscale))
/-- The row of vrowk (R173). -/
def execVrowk (c : Core) (s : State) : Host.Outcome State Fault Refusal := .next (s.onMod (vecRow c.val .vrowk))
/-- The row of vnsum (R173). -/
def execVnsum (c : Core) (s : State) : Host.Outcome State Fault Refusal := .next (s.onMod (vecRow c.val .vnsum))
/-- The row of vnapply (R175). -/
def execVnapply (c : Core) (s : State) : Host.Outcome State Fault Refusal := .next (s.onMod (vecRow c.val .vnapply))
/-- The executing vector instruction completes (R156). -/
def execVectorComplete (c : Core) (s : State) : Host.Outcome State Fault Refusal :=
  .next (s.onMod (vectorComplete c.val))
/-- An executing tensor or vector read meets an uncorrectable error (R95). -/
def execLsEccFault (c : Core) (store : EccStore) (addr : W32) (s : State) : Host.Outcome State Fault Refusal :=
  .next (s.onMod (eccFault c.val store addr.toNat))

end Sys2Proof.Machine
end

