-- ==== Sys2Proof/Machine/Dispatch.lean ====
section
/-!
DEFINITION. What each command does: one arm a constructor, each one direct call of its meaning.
-/
namespace Sys2Proof.Machine

/-- The effect of a command on everything but the queue. -/
def exec (i : Instr) (s : State) : Host.Outcome State Fault Refusal :=
  match i with
  | .registerWrite fn off size val => Sys2Proof.Machine.execRegisterWrite fn off size val s
  | .blockLatchRead fn off size => Sys2Proof.Machine.execBlockLatchRead fn off size s
  | .illegalWord c => Sys2Proof.Machine.execIllegalWord c s
  | .fetchOverrun c => Sys2Proof.Machine.execFetchOverrun c s
  | .add c => Sys2Proof.Machine.execAdd c s
  | .sub c => Sys2Proof.Machine.execSub c s
  | .mul c => Sys2Proof.Machine.execMul c s
  | .mulh c => Sys2Proof.Machine.execMulh c s
  | .mulhu c => Sys2Proof.Machine.execMulhu c s
  | .div c => Sys2Proof.Machine.execDiv c s
  | .divu c => Sys2Proof.Machine.execDivu c s
  | .rem c => Sys2Proof.Machine.execRem c s
  | .remu c => Sys2Proof.Machine.execRemu c s
  | .min c => Sys2Proof.Machine.execMin c s
  | .max c => Sys2Proof.Machine.execMax c s
  | .minu c => Sys2Proof.Machine.execMinu c s
  | .maxu c => Sys2Proof.Machine.execMaxu c s
  | .addi c => Sys2Proof.Machine.execAddi c s
  | .muli c => Sys2Proof.Machine.execMuli c s
  | .mini c => Sys2Proof.Machine.execMini c s
  | .maxi c => Sys2Proof.Machine.execMaxi c s
  | .movi c => Sys2Proof.Machine.execMovi c s
  | .movhi c => Sys2Proof.Machine.execMovhi c s
  | .movz c => Sys2Proof.Machine.execMovz c s
  | .and c => Sys2Proof.Machine.execAnd c s
  | .or c => Sys2Proof.Machine.execOr c s
  | .xor c => Sys2Proof.Machine.execXor c s
  | .andn c => Sys2Proof.Machine.execAndn c s
  | .shl c => Sys2Proof.Machine.execShl c s
  | .shr c => Sys2Proof.Machine.execShr c s
  | .sar c => Sys2Proof.Machine.execSar c s
  | .rotl c => Sys2Proof.Machine.execRotl c s
  | .popc c => Sys2Proof.Machine.execPopc c s
  | .clz c => Sys2Proof.Machine.execClz c s
  | .ctz c => Sys2Proof.Machine.execCtz c s
  | .sel c => Sys2Proof.Machine.execSel c s
  | .andi c => Sys2Proof.Machine.execAndi c s
  | .ori c => Sys2Proof.Machine.execOri c s
  | .xori c => Sys2Proof.Machine.execXori c s
  | .shli c => Sys2Proof.Machine.execShli c s
  | .shri c => Sys2Proof.Machine.execShri c s
  | .sari c => Sys2Proof.Machine.execSari c s
  | .rotli c => Sys2Proof.Machine.execRotli c s
  | .ceq c => Sys2Proof.Machine.execCeq c s
  | .cne c => Sys2Proof.Machine.execCne c s
  | .clt c => Sys2Proof.Machine.execClt c s
  | .cltu c => Sys2Proof.Machine.execCltu c s
  | .cle c => Sys2Proof.Machine.execCle c s
  | .cleu c => Sys2Proof.Machine.execCleu c s
  | .ceqi c => Sys2Proof.Machine.execCeqi c s
  | .cnei c => Sys2Proof.Machine.execCnei c s
  | .clti c => Sys2Proof.Machine.execClti c s
  | .cltui c => Sys2Proof.Machine.execCltui c s
  | .clei c => Sys2Proof.Machine.execClei c s
  | .cleui c => Sys2Proof.Machine.execCleui c s
  | .pand c => Sys2Proof.Machine.execPand c s
  | .por c => Sys2Proof.Machine.execPor c s
  | .pxor c => Sys2Proof.Machine.execPxor c s
  | .pandn c => Sys2Proof.Machine.execPandn c s
  | .pnot c => Sys2Proof.Machine.execPnot c s
  | .ldB c => Sys2Proof.Machine.execLdB c s
  | .ldBu c => Sys2Proof.Machine.execLdBu c s
  | .ldH c => Sys2Proof.Machine.execLdH c s
  | .ldHu c => Sys2Proof.Machine.execLdHu c s
  | .ldW c => Sys2Proof.Machine.execLdW c s
  | .ldWu c => Sys2Proof.Machine.execLdWu c s
  | .ldD c => Sys2Proof.Machine.execLdD c s
  | .stB c => Sys2Proof.Machine.execStB c s
  | .stH c => Sys2Proof.Machine.execStH c s
  | .stW c => Sys2Proof.Machine.execStW c s
  | .stD c => Sys2Proof.Machine.execStD c s
  | .mfsr c => Sys2Proof.Machine.execMfsr c s
  | .mtsr c => Sys2Proof.Machine.execMtsr c s
  | .cp c => Sys2Proof.Machine.execCp c s
  | .push c => Sys2Proof.Machine.execPush c s
  | .haloUnitLand c => Sys2Proof.Machine.execHaloUnitLand c s
  | .vld c => Sys2Proof.Machine.execVld c s
  | .vst c => Sys2Proof.Machine.execVst c s
  | .tld c => Sys2Proof.Machine.execTld c s
  | .tst c => Sys2Proof.Machine.execTst c s
  | .vext c => Sys2Proof.Machine.execVext c s
  | .vins c => Sys2Proof.Machine.execVins c s
  | .vbcast c => Sys2Proof.Machine.execVbcast c s
  | .swap c => Sys2Proof.Machine.execSwap c s
  | .mfence c => Sys2Proof.Machine.execMfence c s
  | .clap c => Sys2Proof.Machine.execClap c s
  | .clapA c => Sys2Proof.Machine.execClapA c s
  | .clapW c => Sys2Proof.Machine.execClapW c s
  | .clapArrival c scope id => Sys2Proof.Machine.execClapArrival c scope id s
  | .clapReleaseReach c scope id => Sys2Proof.Machine.execClapReleaseReach c scope id s
  | .evSet c => Sys2Proof.Machine.execEvSet c s
  | .evClr c => Sys2Proof.Machine.execEvClr c s
  | .evWait c => Sys2Proof.Machine.execEvWait c s
  | .evTest c => Sys2Proof.Machine.execEvTest c s
  | .evFlagReach c => Sys2Proof.Machine.execEvFlagReach c s
  | .waitCr c => Sys2Proof.Machine.execWaitCr c s
  | .waitCrr c => Sys2Proof.Machine.execWaitCrr c s
  | .waitVd c => Sys2Proof.Machine.execWaitVd c s
  | .nop c => Sys2Proof.Machine.execNop c s
  | .br c => Sys2Proof.Machine.execBr c s
  | .brr c => Sys2Proof.Machine.execBrr c s
  | .call c => Sys2Proof.Machine.execCall c s
  | .loop c => Sys2Proof.Machine.execLoop c s
  | .halt c => Sys2Proof.Machine.execHalt c s
  | .coreHalted c => Sys2Proof.Machine.execCoreHalted c s
  | .fclr c => Sys2Proof.Machine.execFclr c s
  | .lsEccFault c store addr => Sys2Proof.Machine.execLsEccFault c store addr s
  | .tmma c => Sys2Proof.Machine.execTmma c s
  | .tzero c => Sys2Proof.Machine.execTzero c s
  | .tbias c => Sys2Proof.Machine.execTbias c s
  | .tcvt c => Sys2Proof.Machine.execTcvt c s
  | .tsetm c => Sys2Proof.Machine.execTsetm c s
  | .tsetn c => Sys2Proof.Machine.execTsetn c s
  | .tsetk c => Sys2Proof.Machine.execTsetk c s
  | .tseth c => Sys2Proof.Machine.execTseth c s
  | .tensorComplete c => Sys2Proof.Machine.execTensorComplete c s
  | .vadd c => Sys2Proof.Machine.execVadd c s
  | .vsub c => Sys2Proof.Machine.execVsub c s
  | .vmul c => Sys2Proof.Machine.execVmul c s
  | .vfma c => Sys2Proof.Machine.execVfma c s
  | .vmin c => Sys2Proof.Machine.execVmin c s
  | .vmax c => Sys2Proof.Machine.execVmax c s
  | .vabs c => Sys2Proof.Machine.execVabs c s
  | .vneg c => Sys2Proof.Machine.execVneg c s
  | .vdiv c => Sys2Proof.Machine.execVdiv c s
  | .vsqrt c => Sys2Proof.Machine.execVsqrt c s
  | .vmov c => Sys2Proof.Machine.execVmov c s
  | .vexp2 c => Sys2Proof.Machine.execVexp2 c s
  | .vlog2 c => Sys2Proof.Machine.execVlog2 c s
  | .vceq c => Sys2Proof.Machine.execVceq c s
  | .vclt c => Sys2Proof.Machine.execVclt c s
  | .vcle c => Sys2Proof.Machine.execVcle c s
  | .vsel c => Sys2Proof.Machine.execVsel c s
  | .vand c => Sys2Proof.Machine.execVand c s
  | .vor c => Sys2Proof.Machine.execVor c s
  | .vandn c => Sys2Proof.Machine.execVandn c s
  | .vlmask c => Sys2Proof.Machine.execVlmask c s
  | .vrsum c => Sys2Proof.Machine.execVrsum c s
  | .vrmax c => Sys2Proof.Machine.execVrmax c s
  | .vrmin c => Sys2Proof.Machine.execVrmin c s
  | .vq c => Sys2Proof.Machine.execVq c s
  | .vpk c => Sys2Proof.Machine.execVpk c s
  | .vnstat c => Sys2Proof.Machine.execVnstat c s
  | .vexp c => Sys2Proof.Machine.execVexp c s
  | .vln c => Sys2Proof.Machine.execVln c s
  | .vpow c => Sys2Proof.Machine.execVpow c s
  | .vsigm c => Sys2Proof.Machine.execVsigm c s
  | .vsilu c => Sys2Proof.Machine.execVsilu c s
  | .vtanh c => Sys2Proof.Machine.execVtanh c s
  | .vtdec c => Sys2Proof.Machine.execVtdec c s
  | .vsmax c => Sys2Proof.Machine.execVsmax c s
  | .vrscale c => Sys2Proof.Machine.execVrscale c s
  | .vrowk c => Sys2Proof.Machine.execVrowk c s
  | .vnsum c => Sys2Proof.Machine.execVnsum c s
  | .vnapply c => Sys2Proof.Machine.execVnapply c s
  | .darm c => Sys2Proof.Machine.execDarm c s
  | .dlaunch c => Sys2Proof.Machine.execDlaunch c s
  | .dstop c => Sys2Proof.Machine.execDstop c s
  | .ddis c => Sys2Proof.Machine.execDdis c s
  | .dwait c => Sys2Proof.Machine.execDwait c s
  | .dq c => Sys2Proof.Machine.execDq c s
  | .coreScrubDone c => Sys2Proof.Machine.execCoreScrubDone c s
  | .dollyCmdArm fn k ch => Sys2Proof.Machine.execDollyCmdArm fn k ch s
  | .dollyCmdStop fn k ch => Sys2Proof.Machine.execDollyCmdStop fn k ch s
  | .dollyCmdDisable fn k ch => Sys2Proof.Machine.execDollyCmdDisable fn k ch s
  | .dollyCmdResume fn k ch => Sys2Proof.Machine.execDollyCmdResume fn k ch s
  | .dollyChCtlWrite fn k ch val => Sys2Proof.Machine.execDollyChCtlWrite fn k ch val s
  | .dollyDescActive k ch => Sys2Proof.Machine.execDollyDescActive k ch s
  | .dollyGateOpen k ch => Sys2Proof.Machine.execDollyGateOpen k ch s
  | .dollyBurstGrant k write => Sys2Proof.Machine.execDollyBurstGrant k write s
  | .dollyRowDelivered k ch => Sys2Proof.Machine.execDollyRowDelivered k ch s
  | .dollyReadbackDone k ch => Sys2Proof.Machine.execDollyReadbackDone k ch s
  | .dollyPageFault k ch => Sys2Proof.Machine.execDollyPageFault k ch s
  | .dollyRetryReissue k ch => Sys2Proof.Machine.execDollyRetryReissue k ch s
  | .dollyRequestError k ch row uncorr => Sys2Proof.Machine.execDollyRequestError k ch row uncorr s
  | .dollyStopDone k ch => Sys2Proof.Machine.execDollyStopDone k ch s
  | .dollyDisableDone k ch => Sys2Proof.Machine.execDollyDisableDone k ch s
  | .arbDecision a beats ready => Sys2Proof.Machine.execArbDecision a beats ready s
  | .arbPreempt a req beat => Sys2Proof.Machine.execArbPreempt a req beat s
  | .arbCancel a r beat ready => Sys2Proof.Machine.execArbCancel a r beat ready s
  | .arbStarveTimeout a requester waited => Sys2Proof.Machine.execArbStarveTimeout a requester waited s
  | .arbCmdZero fn a => Sys2Proof.Machine.execArbCmdZero fn a s
  | .arbLockWrite fn a => Sys2Proof.Machine.execArbLockWrite fn a s
  | .reelGoStart fn r => Sys2Proof.Machine.execReelGoStart fn r s
  | .reelGoAbort fn r => Sys2Proof.Machine.execReelGoAbort fn r s
  | .reelSegment q h data => Sys2Proof.Machine.execReelSegment q h data s
  | .reelSegmentLanded r => Sys2Proof.Machine.execReelSegmentLanded r s
  | .reelCreditGrant r pass n => Sys2Proof.Machine.execReelCreditGrant r pass n s
  | .reelTap r n => Sys2Proof.Machine.execReelTap r n s
  | .reelSend r => Sys2Proof.Machine.execReelSend r s
  | .reelSegmentSent r => Sys2Proof.Machine.execReelSegmentSent r s
  | .reelStallTimeout r => Sys2Proof.Machine.execReelStallTimeout r s
  | .csGoStart fn k => Sys2Proof.Machine.execCsGoStart fn k s
  | .csGoAbort fn k => Sys2Proof.Machine.execCsGoAbort fn k s
  | .collPartial k m => Sys2Proof.Machine.execCollPartial k m s
  | .collSlotCredit k x => Sys2Proof.Machine.execCollSlotCredit k x s
  | .exchangeRows k h rows count => Sys2Proof.Machine.execExchangeRows k h rows count s
  | .csStallTimeout k => Sys2Proof.Machine.execCsStallTimeout k s
  | .linkFrame q bytes => Sys2Proof.Machine.execLinkFrame q bytes s
  | .portSignalLoss q => Sys2Proof.Machine.execPortSignalLoss q s
  | .portFrameTimeout q => Sys2Proof.Machine.execPortFrameTimeout q s
  | .portRetrainTimer q => Sys2Proof.Machine.execPortRetrainTimer q s
  | .linkTrainDone q lanes peer peerPort => Sys2Proof.Machine.execLinkTrainDone q lanes peer peerPort s
  | .messageRoute q h body => Sys2Proof.Machine.execMessageRoute q h body s
  | .lineStateAnnounce q dim coord down => Sys2Proof.Machine.execLineStateAnnounce q dim coord down s
  | .bulkCopyData q src gid dst ctx data => Sys2Proof.Machine.execBulkCopyData q src gid dst ctx data s
  | .copyAckTimeout x => Sys2Proof.Machine.execCopyAckTimeout x s
  | .linkSleepIdle q => Sys2Proof.Machine.execLinkSleepIdle q s
  | .sleepReq q => Sys2Proof.Machine.execSleepReq q s
  | .sleepAck q => Sys2Proof.Machine.execSleepAck q s
  | .sleepNak q => Sys2Proof.Machine.execSleepNak q s
  | .cancel q => Sys2Proof.Machine.execCancel q s
  | .retrain q => Sys2Proof.Machine.execRetrain q s
  | .linkSleepEntryDone q => Sys2Proof.Machine.execLinkSleepEntryDone q s
  | .linkWake q => Sys2Proof.Machine.execLinkWake q s
  | .linkSleepExitDone q => Sys2Proof.Machine.execLinkSleepExitDone q s
  | .portCmdRetrain fn q => Sys2Proof.Machine.execPortCmdRetrain fn q s
  | .portCmdWake fn q => Sys2Proof.Machine.execPortCmdWake fn q s
  | .portCmdSleepNow fn q => Sys2Proof.Machine.execPortCmdSleepNow fn q s
  | .groupForm fn p => Sys2Proof.Machine.execGroupForm fn p s
  | .groupReform fn p => Sys2Proof.Machine.execGroupReform fn p s
  | .groupLeave fn p => Sys2Proof.Machine.execGroupLeave fn p s
  | .groupForcedReform fn p => Sys2Proof.Machine.execGroupForcedReform fn p s
  | .census p q x => Sys2Proof.Machine.execCensus p q x s
  | .censusReply p q child x members => Sys2Proof.Machine.execCensusReply p q child x members s
  | .anchorCensusRepeat p => Sys2Proof.Machine.execAnchorCensusRepeat p s
  | .reformReq p x => Sys2Proof.Machine.execReformReq p x s
  | .newGroup p q x members => Sys2Proof.Machine.execNewGroup p q x members s
  | .hold p x => Sys2Proof.Machine.execHold p x s
  | .grpLinkTimeout p q => Sys2Proof.Machine.execGrpLinkTimeout p q s
  | .reformingTimeout p => Sys2Proof.Machine.execReformingTimeout p s
  | .controlResend q key => Sys2Proof.Machine.execControlResend q key s
  | .controlAck q key => Sys2Proof.Machine.execControlAck q key s
  | .contribution p q x => Sys2Proof.Machine.execContribution p q x s
  | .verdict p v => Sys2Proof.Machine.execVerdict p v s
  | .vote p q x => Sys2Proof.Machine.execVote p q x s
  | .voteResult p x => Sys2Proof.Machine.execVoteResult p x s
  | .printOpen fn p => Sys2Proof.Machine.execPrintOpen fn p s
  | .printClose fn p => Sys2Proof.Machine.execPrintClose fn p s
  | .printSkip fn p => Sys2Proof.Machine.execPrintSkip fn p s
  | .printRelease fn p => Sys2Proof.Machine.execPrintRelease fn p s
  | .printContribute p => Sys2Proof.Machine.execPrintContribute p s
  | .printTakeTimeout p => Sys2Proof.Machine.execPrintTakeTimeout p s
  | .applyGroupStaged p => Sys2Proof.Machine.execApplyGroupStaged p s
  | .applyChunkDone p => Sys2Proof.Machine.execApplyChunkDone p s
  | .voteJoin p => Sys2Proof.Machine.execVoteJoin p s
  | .printHoldTimeout p => Sys2Proof.Machine.execPrintHoldTimeout p s
  | .printEnableWrite fn p val => Sys2Proof.Machine.execPrintEnableWrite fn p val s
  | .replayDone p => Sys2Proof.Machine.execReplayDone p s
  | .printLscalePWrite fn p val => Sys2Proof.Machine.execPrintLscalePWrite fn p val s
  | .modeStage fn p n => Sys2Proof.Machine.execModeStage fn p n s
  | .modeWithdraw fn p n => Sys2Proof.Machine.execModeWithdraw fn p n s
  | .sbStart fn p => Sys2Proof.Machine.execSbStart fn p s
  | .sbStop fn p => Sys2Proof.Machine.execSbStop fn p s
  | .sbResume fn p => Sys2Proof.Machine.execSbResume fn p s
  | .sbLaunch p => Sys2Proof.Machine.execSbLaunch p s
  | .sbMove p => Sys2Proof.Machine.execSbMove p s
  | .sbPin p => Sys2Proof.Machine.execSbPin p s
  | .sbUnpin p => Sys2Proof.Machine.execSbUnpin p s
  | .sbRest p => Sys2Proof.Machine.execSbRest p s
  | .sbScreen p => Sys2Proof.Machine.execSbScreen p s
  | .sbEnd p => Sys2Proof.Machine.execSbEnd p s
  | .moverRetry m => Sys2Proof.Machine.execMoverRetry m s
  | .moverComplete m => Sys2Proof.Machine.execMoverComplete m s
  | .migPinSwitch k => Sys2Proof.Machine.execMigPinSwitch k s
  | .migUnpinSwitch k => Sys2Proof.Machine.execMigUnpinSwitch k s
  | .memClCarveWrite fn k val => Sys2Proof.Machine.execMemClCarveWrite fn k val s
  | .memFarCfgLock fn val => Sys2Proof.Machine.execMemFarCfgLock fn val s
  | .restWindowEnd k => Sys2Proof.Machine.execRestWindowEnd k s
  | .screenWindowEnd k => Sys2Proof.Machine.execScreenWindowEnd k s
  | .partSetup fn p => Sys2Proof.Machine.execPartSetup fn p s
  | .partSetupDone p => Sys2Proof.Machine.execPartSetupDone p s
  | .partRelease fn p => Sys2Proof.Machine.execPartRelease fn p s
  | .partOwnerWrite fn p val => Sys2Proof.Machine.execPartOwnerWrite fn p val s
  | .granuleOwnerWrite fn far g val => Sys2Proof.Machine.execGranuleOwnerWrite fn far g val s
  | .granuleZeroDone far g => Sys2Proof.Machine.execGranuleZeroDone far g s
  | .ctxCreate fn => Sys2Proof.Machine.execCtxCreate fn s
  | .ctxDestroy fn => Sys2Proof.Machine.execCtxDestroy fn s
  | .ctxInvalidate fn => Sys2Proof.Machine.execCtxInvalidate fn s
  | .ctxInvalidateDone fn => Sys2Proof.Machine.execCtxInvalidateDone fn s
  | .ringRegisterWrite fn ring val => Sys2Proof.Machine.execRingRegisterWrite fn ring val s
  | .dbSqTail fn x val => Sys2Proof.Machine.execDbSqTail fn x val s
  | .dbCqHead fn x val => Sys2Proof.Machine.execDbCqHead fn x val s
  | .dbEqHead fn x val => Sys2Proof.Machine.execDbEqHead fn x val s
  | .cmdNop x => Sys2Proof.Machine.execCmdNop x s
  | .cmdStart x => Sys2Proof.Machine.execCmdStart x s
  | .cmdStop x => Sys2Proof.Machine.execCmdStop x s
  | .cmdHevent x => Sys2Proof.Machine.execCmdHevent x s
  | .cmdCopy x => Sys2Proof.Machine.execCmdCopy x s
  | .cmdPrint x => Sys2Proof.Machine.execCmdPrint x s
  | .bar4Read fn off len => Sys2Proof.Machine.execBar4Read fn off len s
  | .bar4Write fn off data => Sys2Proof.Machine.execBar4Write fn off data s
  | .vfFlr p => Sys2Proof.Machine.execVfFlr p s
  | .clRungRequest fn k req => Sys2Proof.Machine.execClRungRequest fn k req s
  | .clWake fn k => Sys2Proof.Machine.execClWake fn k s
  | .drainQuiet k => Sys2Proof.Machine.execDrainQuiet k s
  | .drainDeadline k => Sys2Proof.Machine.execDrainDeadline k s
  | .rungEntryDone k => Sys2Proof.Machine.execRungEntryDone k s
  | .rungExitDone k cycles => Sys2Proof.Machine.execRungExitDone k cycles s
  | .autoHoldIdle k => Sys2Proof.Machine.execAutoHoldIdle k s
  | .autoStillIdle k => Sys2Proof.Machine.execAutoStillIdle k s
  | .standbyEnter fn => Sys2Proof.Machine.execStandbyEnter fn s
  | .standbyLeave fn => Sys2Proof.Machine.execStandbyLeave fn s
  | .standbyEntryDone => Sys2Proof.Machine.execStandbyEntryDone s
  | .standbyExitDone => Sys2Proof.Machine.execStandbyExitDone s
  | .freqStepDone d => Sys2Proof.Machine.execFreqStepDone d s
  | .thermalSample d sensor temp => Sys2Proof.Machine.execThermalSample d sensor temp s
  | .thermalStepDown d => Sys2Proof.Machine.execThermalStepDown d s
  | .thermalStepUp d => Sys2Proof.Machine.execThermalStepUp d s
  | .powerSample avg1ms avg100ms avg1s => Sys2Proof.Machine.execPowerSample avg1ms avg100ms avg1s s
  | .currentOverLimit peak => Sys2Proof.Machine.execCurrentOverLimit peak s
  | .currentLimitRelease => Sys2Proof.Machine.execCurrentLimitRelease s
  | .bayCurrentSample b avg mJ => Sys2Proof.Machine.execBayCurrentSample b avg mJ s
  | .gafferModLockWrite fn => Sys2Proof.Machine.execGafferModLockWrite fn s
  | .repairAdd fn => Sys2Proof.Machine.execRepairAdd fn s
  | .repairApply fn => Sys2Proof.Machine.execRepairApply fn s
  | .screenAcquire d bay => Sys2Proof.Machine.execScreenAcquire d bay s
  | .screenStepDone k defect => Sys2Proof.Machine.execScreenStepDone k defect s
  | .screenRelease k => Sys2Proof.Machine.execScreenRelease k s
  | .hbmPatrolBurst k line ce ue => Sys2Proof.Machine.execHbmPatrolBurst k line ce ue s
  | .wearTick temps stackTemps hubTemp => Sys2Proof.Machine.execWearTick temps stackTemps hubTemp s
  | .wearSave => Sys2Proof.Machine.execWearSave s
  | .telemEvent e => Sys2Proof.Machine.execTelemEvent e s
  | .telemFlush src cls => Sys2Proof.Machine.execTelemFlush src cls s
  | .telemQueueDrain => Sys2Proof.Machine.execTelemQueueDrain s
  | .alarmRaise e => Sys2Proof.Machine.execAlarmRaise e s
  | .alarmCopy => Sys2Proof.Machine.execAlarmCopy s
  | .telemAlarmHeadWrite fn val => Sys2Proof.Machine.execTelemAlarmHeadWrite fn val s
  | .meterPeriodicRecord m => Sys2Proof.Machine.execMeterPeriodicRecord m s
  | .meterPowerUpRecord m => Sys2Proof.Machine.execMeterPowerUpRecord m s
  | .meterPowerDownRecord m => Sys2Proof.Machine.execMeterPowerDownRecord m s
  | .mdmCaseOpen m => Sys2Proof.Machine.execMdmCaseOpen m s
  | .mdmReseal m => Sys2Proof.Machine.execMdmReseal m s
  | .mdmFirmwareChange m ver crc => Sys2Proof.Machine.execMdmFirmwareChange m ver crc s
  | .meterFrameSend => Sys2Proof.Machine.execMeterFrameSend s
  | .meterFrame bytes crc => Sys2Proof.Machine.execMeterFrame bytes crc s
  | .meterLinkTimeout => Sys2Proof.Machine.execMeterLinkTimeout s
  | .meterVariantTimeout => Sys2Proof.Machine.execMeterVariantTimeout s
  | .mdmReadRecord seq pecOk => Sys2Proof.Machine.execMdmReadRecord seq pecOk s
  | .mdmReadLatest pecOk => Sys2Proof.Machine.execMdmReadLatest pecOk s
  | .mdmReadLog n pecOk => Sys2Proof.Machine.execMdmReadLog n pecOk s
  | .mdmReadCertificate n pecOk => Sys2Proof.Machine.execMdmReadCertificate n pecOk s
  | .mdmIdentify pecOk => Sys2Proof.Machine.execMdmIdentify pecOk s
  | .powerOnReset => Sys2Proof.Machine.execPowerOnReset s
  | .resetNAssert ns => Sys2Proof.Machine.execResetNAssert ns s
  | .perstNAssert => Sys2Proof.Machine.execPerstNAssert s
  | .perstNDeassert => Sys2Proof.Machine.execPerstNDeassert s
  | .modRstCmdCold fn => Sys2Proof.Machine.execModRstCmdCold fn s
  | .modRstCmdWarm fn => Sys2Proof.Machine.execModRstCmdWarm fn s
  | .pfFlr => Sys2Proof.Machine.execPfFlr s
  | .bootReady ms stackFail dieFail defects => Sys2Proof.Machine.execBootReady ms stackFail dieFail defects s
  | .inputBelow42v => Sys2Proof.Machine.execInputBelow42v s
  | .inputBelow36v => Sys2Proof.Machine.execInputBelow36v s
  | .railFault d => Sys2Proof.Machine.execRailFault d s
  | .modBootService fn => Sys2Proof.Machine.execModBootService fn s
  | .setEndpointId eid => Sys2Proof.Machine.execSetEndpointId eid s
  | .getEndpointId => Sys2Proof.Machine.execGetEndpointId s
  | .getEndpointUuid => Sys2Proof.Machine.execGetEndpointUuid s
  | .getMctpVersionSupport typ => Sys2Proof.Machine.execGetMctpVersionSupport typ s
  | .getMessageTypeSupport => Sys2Proof.Machine.execGetMessageTypeSupport s
  | .getVendorDefinedMsgSupport sel => Sys2Proof.Machine.execGetVendorDefinedMsgSupport sel s
  | .mctpGetState => Sys2Proof.Machine.execMctpGetState s
  | .mctpSetTopology val => Sys2Proof.Machine.execMctpSetTopology val s
  | .mctpResetCold => Sys2Proof.Machine.execMctpResetCold s
  | .mctpResetWarm => Sys2Proof.Machine.execMctpResetWarm s
  | .mctpPowerOff => Sys2Proof.Machine.execMctpPowerOff s
  | .mctpReadRegister off => Sys2Proof.Machine.execMctpReadRegister off s
  | .mctpReadAlarm n => Sys2Proof.Machine.execMctpReadAlarm n s
  | .mctpFirmwareUpdate block data => Sys2Proof.Machine.execMctpFirmwareUpdate block data s
  | .tapBypass tdi => Sys2Proof.Machine.execTapBypass tdi s
  | .tapIdcode => Sys2Proof.Machine.execTapIdcode s
  | .tapSamplePreload scan => Sys2Proof.Machine.execTapSamplePreload scan s
  | .tapExtest tdi => Sys2Proof.Machine.execTapExtest tdi s
  | .tapClamp tdi => Sys2Proof.Machine.execTapClamp tdi s
  | .tapHighz tdi => Sys2Proof.Machine.execTapHighz tdi s
  | .cxlActiveTimeout active => Sys2Proof.Machine.execCxlActiveTimeout active s
  | .cxlDeviceEvent q health => Sys2Proof.Machine.execCxlDeviceEvent q health s
  | .nvmeEnable fn q val => Sys2Proof.Machine.execNvmeEnable fn q val s
  | .nvmeInitDone q ok queues mdts nss width rate => Sys2Proof.Machine.execNvmeInitDone q ok queues mdts nss width rate s
  | .nvmeReadComplete q tag ok data => Sys2Proof.Machine.execNvmeReadComplete q tag ok data s
  | .nvmeReadTimeout q tag => Sys2Proof.Machine.execNvmeReadTimeout q tag s
  | .dlyStrEnable fn p val => Sys2Proof.Machine.execDlyStrEnable fn p val s
  | .dlyStrDisable fn p val => Sys2Proof.Machine.execDlyStrDisable fn p val s
  | .dlyStrConfigWrite fn p off size val => Sys2Proof.Machine.execDlyStrConfigWrite fn p off size val s
  | .dlyProjWrite fn p val => Sys2Proof.Machine.execDlyProjWrite fn p val s
  | .dlySampleAssign p => Sys2Proof.Machine.execDlySampleAssign p s
  | .dlySampleDone p j => Sys2Proof.Machine.execDlySampleDone p j s
  | .dlyBatchReady p => Sys2Proof.Machine.execDlyBatchReady p s
  | .vectorComplete c => Sys2Proof.Machine.execVectorComplete c s
  | .moveComplete c => Sys2Proof.Machine.execMoveComplete c s
  | .scalarLoadReturn c => Sys2Proof.Machine.execScalarLoadReturn c s
  | .resetNDeassert => Sys2Proof.Machine.execResetNDeassert s
  | .pcieConfigRequest r => Sys2Proof.Machine.execPcieConfigRequest r s
  | .registerRead fn off size => Sys2Proof.Machine.execRegisterRead fn off size s
  | .partReleaseDone p => Sys2Proof.Machine.execPartReleaseDone p s
  | .moverPageFault m => Sys2Proof.Machine.execMoverPageFault m s
  | .sbFetchFault p => Sys2Proof.Machine.execSbFetchFault p s
  | .remoteCopyAck x fault => Sys2Proof.Machine.execRemoteCopyAck x fault s
  | .nvmeAsyncEvent q => Sys2Proof.Machine.execNvmeAsyncEvent q s
  | .mmcBootFailed => Sys2Proof.Machine.execMmcBootFailed s

end Sys2Proof.Machine
end

