-- ==== Sys2Proof/Safety.lean ====
section
/-!
DEFINITION. The terms of the statements: when a core issues an instruction, what a step that changes one core leaves alone,
and the tables that pair the rows of the opcode table with what the spec says they compute.
-/
namespace Sys2Proof.Machine

/-- Running the command answers a next state, and that state has a property. -/
def Gives (i : Instr) (s : State) (P : State → Prop) : Prop := ∃ t, exec i s = .next t ∧ P t

/-! ## Octix instructions -/

/-- The core is Running at a word inside its instruction store, without an uncorrectable error, that decodes to `o` and whose guard
holds (R63, R66, R97, R436). -/
def Issues (m : Mod) (c : Nat) (o : Octix) : Prop :=
  (coreAt m c).pc.toNat ≤ 2047 ∧ fetchBad m c (coreAt m c).pc.toNat = false ∧ decodeOctix (fetchWord m c (coreAt m c).pc.toNat) = some o ∧
  guardFails (coreAt m c) (fetchWord m c (coreAt m c).pc.toNat) = false ∧ mayIssue m c = true

/-- As `Issues`, with every scalar and vector register that the instruction names available (R84). -/
def IssuesFree (m : Mod) (c : Nat) (o : Octix) (ss : List SReg) (vs : List VReg) : Prop :=
  Issues m c o ∧ regBusy (coreAt m c) ss vs = false

/-- The core with CORE_CYCLE one higher, saturating (R70). -/
def cycled (x : CoreSt) : CoreSt := { x with cycle := BitVec.ofNat 64 (min (x.cycle.toNat + 1) (2 ^ 64 - 1)) }

/-- The step changed core `c` to `x` and nothing else; the counter of free values moved on. -/
def CoreStep (s t : State) (c : Nat) (x : CoreSt) : Prop :=
  coreAt t.mod c = x ∧ (∀ k, k ≠ c → coreAt t.mod k = coreAt s.mod k) ∧
  t = { s with mod := { s.mod with cores := t.mod.cores, free := s.mod.free + 1 } }

/-! ### What the scalar instructions compute (Tables 4.4 to 4.6) -/

/-- The rows with two scalar registers, and their values. -/
def aluRows : List ((Core → Instr) × AluOp × (W64 → W64 → W64)) :=
  [(.add, .add, fun a b => a + b),
   (.sub, .sub, fun a b => a - b),
   (.mul, .mul, fun a b => a * b),
   (.mulh, .mulh, fun a b => ((a.signExtend 128 * b.signExtend 128) >>> 64).truncate 64),
   (.mulhu, .mulhu, fun a b => ((a.zeroExtend 128 * b.zeroExtend 128) >>> 64).truncate 64),
   (.div, .div, fun a b => if b = 0 then BitVec.allOnes 64 else a.sdiv b),
   (.divu, .divu, fun a b => if b = 0 then BitVec.allOnes 64 else a / b),
   (.rem, .rem, fun a b => a.srem b),
   (.remu, .remu, fun a b => a % b),
   (.min, .min, fun a b => if b.slt a then b else a),
   (.max, .max, fun a b => if a.slt b then b else a),
   (.minu, .minu, fun a b => if b < a then b else a),
   (.maxu, .maxu, fun a b => if a < b then b else a),
   (.and, .and, fun a b => a &&& b),
   (.or, .or, fun a b => a ||| b),
   (.xor, .xor, fun a b => a ^^^ b),
   (.andn, .andn, fun a b => a &&& ~~~b),
   (.shl, .shl, fun a b => a <<< (b.toNat % 64)),
   (.shr, .shr, fun a b => a >>> (b.toNat % 64)),
   (.sar, .sar, fun a b => a.sshiftRight (b.toNat % 64)),
   (.rotl, .rotl, fun a b => a <<< (b.toNat % 64) ||| a >>> ((64 - b.toNat % 64) % 64))]

/-- The rows with a register and a sign-extended 32-bit immediate, and their values. -/
def aluIRows : List ((Core → Instr) × AluOp × (W64 → W64 → W64)) :=
  [(.addi, .add, fun a b => a + b),
   (.muli, .mul, fun a b => a * b),
   (.mini, .min, fun a b => if b.slt a then b else a),
   (.maxi, .max, fun a b => if a.slt b then b else a),
   (.andi, .and, fun a b => a &&& b),
   (.ori, .or, fun a b => a ||| b),
   (.xori, .xor, fun a b => a ^^^ b),
   (.shli, .shl, fun a b => a <<< (b.toNat % 64)),
   (.shri, .shr, fun a b => a >>> (b.toNat % 64)),
   (.sari, .sar, fun a b => a.sshiftRight (b.toNat % 64)),
   (.rotli, .rotl, fun a b => a <<< (b.toNat % 64) ||| a >>> ((64 - b.toNat % 64) % 64))]

/-- The constant loads: the old value of d and the immediate give the new one. -/
def movRows : List ((Core → Instr) × MovOp × (W64 → W32 → W64)) :=
  [(.movi, .movi, fun _ i => i.signExtend 64),
   (.movhi, .movhi, fun d i => i ++ d.extractLsb' 0 32),
   (.movz, .movz, fun _ i => i.zeroExtend 64)]

/-- The bit counts. -/
def countRows : List ((Core → Instr) × CountOp × (W64 → Nat)) :=
  [(.popc, .popc, fun a => ((List.range 64).filter (fun i => a.toNat.testBit i)).length),
   (.clz, .clz, fun a => ((List.range 64).takeWhile (fun i => !a.toNat.testBit (63 - i))).length),
   (.ctz, .ctz, fun a => ((List.range 64).takeWhile (fun i => !a.toNat.testBit i)).length)]

/-- The compares with two registers. -/
def cmpRows : List ((Core → Instr) × CmpOp × (W64 → W64 → Bool)) :=
  [(.ceq, .eq, fun a b => a == b), (.cne, .ne, fun a b => a != b), (.clt, .lt, fun a b => a.slt b),
   (.cltu, .ltu, fun a b => a.ult b), (.cle, .le, fun a b => a.sle b), (.cleu, .leu, fun a b => a.ule b)]

/-- The compares with an immediate. -/
def cmpIRows : List ((Core → Instr) × CmpOp × (W64 → W64 → Bool)) :=
  [(.ceqi, .eq, fun a b => a == b), (.cnei, .ne, fun a b => a != b), (.clti, .lt, fun a b => a.slt b),
   (.cltui, .ltu, fun a b => a.ult b), (.clei, .le, fun a b => a.sle b), (.cleui, .leu, fun a b => a.ule b)]

/-- The predicate logic. -/
def predRows : List ((Core → Instr) × PredOp × (Bool → Bool → Bool)) :=
  [(.pand, .and, fun a b => a && b), (.por, .or, fun a b => a || b), (.pxor, .xor, fun a b => a != b),
   (.pandn, .andn, fun a b => a && !b)]

/-! ### Memory of a core (R71, R74) -/

/-- The step changed core `c` to `x` without a cycle of the core: nothing else. -/
def CoreSet (s t : State) (c : Nat) (x : CoreSt) : Prop :=
  coreAt t.mod c = x ∧ (∀ k, k ≠ c → coreAt t.mod k = coreAt s.mod k) ∧
  t = { s with mod := { s.mod with cores := t.mod.cores } }

/-- The step changed core `c` to `x`, local and cluster stores and the errors marked in their words, nothing else; the counter of free
values moved on. -/
def CoreMemStep (s t : State) (c : Nat) (x : CoreSt) : Prop :=
  coreAt t.mod c = x ∧ (∀ k, k ≠ c → coreAt t.mod k = coreAt s.mod k) ∧
  t = { s with mod := { s.mod with
    cores := t.mod.cores, free := s.mod.free + 1, mem := t.mod.mem, lmem := t.mod.lmem, ecc := t.mod.ecc } }

/-- The bytes of core addresses from `a` upward in the local store, under a stage map (R74). -/
def localBytes (m : Mod) (c : Nat) (map : Bool) (a n : Nat) : List Byte :=
  (List.range n).map (fun i => sget memDefault m.lmem (coreKey c map (a + i)))

/-- The bytes of core addresses from `a` upward in the cluster store. -/
def clusterBytes (m : Mod) (c : Nat) (a n : Nat) : List Byte :=
  (List.range n).map (fun i => sget memDefault m.mem (nearAddr (clusterOf c) + (a + i - coreCs)))

/-- The bytes of a store (0 local, 1 instruction, 2 module memory) whose word holds an uncorrectable error are as they were, but for
the keys that `p` names, which hold none. -/
def EccFreed (m m' : Mod) (st : Nat) (p : Nat → Prop) : Prop :=
  ∀ u k, u < 4 → (u = st ∧ p k → eccAt m' u k = false) ∧ (¬(u = st ∧ p k) → eccAt m' u k = eccAt m u k)

/-- Local-store bytes from core address `a` became `bs`; every other byte of every memory is as it was. -/
def LocalWrite (m m' : Mod) (c : Nat) (map : Bool) (a : Nat) (bs : List Byte) : Prop :=
  (∀ i, i < bs.length → sget memDefault m'.lmem (coreKey c map (a + i)) = bs.getD i 0) ∧
  (∀ k, (∀ i, i < bs.length → k ≠ coreKey c map (a + i)) → sget memDefault m'.lmem k = sget memDefault m.lmem k) ∧
  m'.mem = m.mem ∧ m'.imem = m.imem ∧ EccFreed m m' 0 (fun k => ∃ i, i < bs.length ∧ k = coreKey c map (a + i))

/-- Cluster-store bytes from core address `a` became `bs`; every other byte of every memory is as it was. -/
def ClusterWrite (m m' : Mod) (c a : Nat) (bs : List Byte) : Prop :=
  (∀ i, i < bs.length → sget memDefault m'.mem (nearAddr (clusterOf c) + (a + i - coreCs)) = bs.getD i 0) ∧
  (∀ k, (∀ i, i < bs.length → k ≠ nearAddr (clusterOf c) + (a + i - coreCs)) →
    sget memDefault m'.mem k = sget memDefault m.mem k) ∧
  m'.lmem = m.lmem ∧ m'.imem = m.imem ∧
  EccFreed m m' 2 (fun k => ∃ i, i < bs.length ∧ k = nearAddr (clusterOf c) + (a + i - coreCs))

/-- A range of core addresses lies in the local store. -/
def InLocal (a n : Nat) : Prop := a + n ≤ lsTop

/-- A range of core addresses lies in the cluster store, outside every carve-out slot in use (R71, R247). -/
def InCluster (m : Mod) (c a n : Nat) : Prop :=
  coreCs ≤ a ∧ a + n ≤ coreCsTop ∧ ∀ i, i < n → carveSlot m (nearAddr (clusterOf c) + (a + i - coreCs)) = none

/-- The loads, their sizes in bytes, and the value of the bytes read (Table 4.7). -/
def loadRows : List ((Core → Instr) × MemSize × Bool × Nat × (List Byte → W64)) :=
  [(.ldB, .b, true, 1, fun bs => (BitVec.ofNat 8 (leNat bs)).signExtend 64),
   (.ldBu, .b, false, 1, fun bs => BitVec.ofNat 64 (leNat bs)),
   (.ldH, .h, true, 2, fun bs => (BitVec.ofNat 16 (leNat bs)).signExtend 64),
   (.ldHu, .h, false, 2, fun bs => BitVec.ofNat 64 (leNat bs)),
   (.ldW, .w, true, 4, fun bs => (BitVec.ofNat 32 (leNat bs)).signExtend 64),
   (.ldWu, .w, false, 4, fun bs => BitVec.ofNat 64 (leNat bs)),
   (.ldD, .d, false, 8, fun bs => BitVec.ofNat 64 (leNat bs))]

/-- The stores and their sizes in bytes. -/
def storeRows : List ((Core → Instr) × MemSize × Nat) := [(.stB, .b, 1), (.stH, .h, 2), (.stW, .w, 4), (.stD, .d, 8)]

/-- The special registers a program reads, by number, and their values in a core (Table 3.3). -/
def specialValues (c : Nat) (x : CoreSt) : List (Nat × Nat) :=
  [(0x000, c % 16 + c % 10000 / 16 * 2 ^ 4 + c / 10000 * 2 ^ 14),
   (0x001, b2n x.nonfinite + 2 * b2n x.stageMap
     + 4 * (match x.state with | .halted => 0 | .running => 1 | .waiting => 2 | .faulted => 3)
     + 16 * b2n x.credOvf + 32 * b2n x.haloDrop),
   (0x002, x.pc.toNat), (0x003, x.cycle.toNat), (0x004, x.slate.toNat), (0x005, x.seed.toNat), (0x006, x.ctxReg.toNat),
   (0x008, x.fault.toNat), (0x009, x.faultAddr.toNat), (0x00A, x.cancel.toNat), (0x00B, x.depStall.toNat),
   (0x00C, x.haloBase.toNat), (0x00D, x.haloSize.toNat), (0x00E, x.haloCredit.toNat)]
  ++ (List.range 16).map (fun n => (0x010 + n, (sget (fun _ => 0) x.cred n).toNat))
  ++ (List.range 12).map (fun n => (0x020 + n, (sget (fun _ => 0) x.idle n).toNat))
  ++ (List.range 8).map (fun g => (0x080 + g, (sget (fun _ => 0) x.agBase g).toNat))
  ++ (List.range 32).map (fun n => (0x088 + n, (sget (fun _ => 0) x.agStride n).toNat))

/-- The special registers that a program writes, and the core after a write of `v` (Tables 3.3 and 3.4, R113). -/
def specialWrites (x : CoreSt) (v : W64) : List (Nat × CoreSt) :=
  [(0x001, { x with haloDrop := x.haloDrop && !bit v 5, credOvf := x.credOvf && !bit v 4 }),
   (0x00C, { x with haloBase := v.truncate 32 }), (0x00D, { x with haloSize := v.truncate 32 }),
   (0x00E, { x with haloCredit := v.truncate 32 })]
  ++ (List.range 16).map (fun n => (0x010 + n, { x with cred := sset (fun _ => 0) x.cred n (v.truncate 16) }))
  ++ (List.range 8).map (fun g => (0x080 + g, { x with agBase := sset (fun _ => 0) x.agBase g (v.truncate 32) }))
  ++ (List.range 32).map (fun n => (0x088 + n, { x with agStride := sset (fun _ => 0) x.agStride n (v.truncate 32) }))

/-- The read-only special registers (Table 3.3). -/
def specialReadOnly (n : Nat) : Prop :=
  n ∈ [0x000, 0x002, 0x003, 0x004, 0x005, 0x006, 0x008, 0x009, 0x00A, 0x00B] ∨ (0x020 ≤ n ∧ n < 0x02C) ∨ (0x040 ≤ n ∧ n < 0x048)

/-! ### Ranges of either store -/

/-- A range of core addresses lies wholly in the local store or wholly in the cluster store (R71), no carve-out slot in use. -/
def InStore (m : Mod) (c a n : Nat) : Prop := InLocal a n ∨ InCluster m c a n

/-- The bytes of such a range. -/
def storeBytes (m : Mod) (c : Nat) (map : Bool) (a n : Nat) : List Byte :=
  if a < lsTop then localBytes m c map a n else clusterBytes m c a n

/-- Such a range became `bs`; every other byte of every memory is as it was. -/
def StoreWrite (m m' : Mod) (c : Nat) (map : Bool) (a : Nat) (bs : List Byte) : Prop :=
  if a < lsTop then LocalWrite m m' c map a bs else ClusterWrite m m' c a bs

/-- The words of 4 bytes of a range, little-endian: `n` of them. -/
def storeWords (m : Mod) (c : Nat) (map : Bool) (a n : Nat) : List W32 :=
  (List.range n).map (fun i => BitVec.ofNat 32 (leNat (storeBytes m c map (a + 4 * i) 4)))

/-- The move entry of a core for an instruction at its pc. -/
def moveEntry (x : CoreSt) (kind : MoveKind) (src dst len : W32) : MoveOp := ⟨x.nIssued, kind, x.pc, x.stageMap, src, dst, len⟩

/-- No byte of the ranges lies in a word with an uncorrectable error (R436). -/
def Sound (m : Mod) (c : Nat) (map : Bool) (rs : List (Nat × Nat)) : Prop := badOf m c map rs = none

/-- The local-store ranges that an entry of the move queue reads. -/
def localSources (q : MoveOp) : List (Nat × Nat) := (moveReads q).filter (fun r => decide (r.1 < lsTop))

/-- The cluster-store ranges that it reads. -/
def clusterSources (q : MoveOp) : List (Nat × Nat) := (moveReads q).filter (fun r => decide (coreCs ≤ r.1))

/-- A place in the move queue, no earlier access of this core still to be made to the ranges (R64, R73, R85, R151), and no uncorrectable
error in a local-store source. -/
def MoveReady (m : Mod) (c : Nat) (q : MoveOp) : Prop :=
  moveBusy c (coreAt m c) q = false ∧ (coreAt m c).mq.length < 4 ∧ Sound m c q.map (localSources q)

/-- The core's next entry of the move queue, its cluster's clock running, without an uncorrectable error in a cluster-store source. -/
def NextMove (m : Mod) (c : Nat) (q : MoveOp) (rest : List MoveOp) : Prop :=
  (coreAt m c).mq = q :: rest ∧ clRolling m (clusterOf c) = true ∧ Sound m c q.map (clusterSources q)

/-- Addresses that are multiples of 64 (R72). -/
def Aligned64 (vs : List Nat) : Prop := ∀ v ∈ vs, v % 64 = 0

/-! ### Events, control and faults -/

/-- A core's record once a set of an event is on its way to it: marked if the core waits on that event (R127). -/
def flagMark (m : Mod) (key ev k : Nat) (x : CoreSt) : CoreSt :=
  match x.wait with
  | some (.event w e b) => { x with wait := some (.event w e (b || (decide (e.val = ev) && evKey m k w == some key))) }
  | _ => x

/-- The core after a taken branch to `t`: the levels whose body does not contain the target exit (R86, R133). -/
def branched (x : CoreSt) (t : Nat) : CoreSt :=
  { x with loops := x.loops.dropWhile (fun l => !(decide (l.start ≤ t) && decide (t ≤ l.last))), pc := BitVec.ofNat 16 t
           nIssued := x.nIssued + 1 }

/-- The core after a loop entry, which goes on at `t`. -/
def skipped (x : CoreSt) (t : Nat) : CoreSt := { x with pc := BitVec.ofNat 16 t, nIssued := x.nIssued + 1 }

/-- Core `c` is Faulted with a code of Table 3.9, the word index of the faulting instruction and an address (R95); its
registers, and every other core's, are as they were. -/
def Faulted (s t : State) (c code pc addr : Nat) : Prop :=
  (coreAt t.mod c).state = .faulted ∧ (coreAt t.mod c).fault = BitVec.ofNat 32 (code + pc * 256) ∧
  (coreAt t.mod c).faultAddr = BitVec.ofNat 64 addr ∧ (coreAt t.mod c).s = (coreAt s.mod c).s ∧
  (coreAt t.mod c).p = (coreAt s.mod c).p ∧ (coreAt t.mod c).pc = (coreAt s.mod c).pc ∧
  (coreAt t.mod c).loops = (coreAt s.mod c).loops ∧ (∀ k, k ≠ c → (coreAt t.mod k).state = (coreAt s.mod k).state)

/-! ### The tensor and vector units -/

/-- A tensor instruction meets no address fault and no hazard, and has a place in the queue (R64, R84, R143, R145, R147, R150). -/
def TensorReady (c : Nat) (x : CoreSt) (q : TensorOp) : Prop :=
  Aligned64 [q.a.toNat, q.w.toNat, q.sa.toNat, q.sw.toNat] ∧ (∀ r ∈ tensorRanges q, InLocal r.1 r.2) ∧
  unitBusy c x (tensorReads q) (tensorWrites q) = false ∧ accWriteBusy x true (tAccWrites q.op) = false ∧ x.tq.length < 2

/-- The executing tensor instruction of a core: its cluster's clock runs, no earlier vector or move instruction still has to use an
accumulator of it, and its reads meet no uncorrectable error (R149, R152, R158). -/
def NextTensor (m : Mod) (c : Nat) (q : TensorOp) (rest : List TensorOp) : Prop :=
  (coreAt m c).tq = q :: rest ∧ clRolling m (clusterOf c) = true ∧
  earlierVec (coreAt m c) q.seq (tAccWrites q.op ++ tAccReads q.op) = false ∧ Sound m c q.map (tensorReads q)

/-- The vector rows of Tables 6.2 to 6.4. -/
def vecRows : List ((Core → Instr) × VOp) :=
  [(.vadd, .vadd), (.vsub, .vsub), (.vmul, .vmul), (.vfma, .vfma), (.vmin, .vmin), (.vmax, .vmax), (.vabs, .vabs), (.vneg, .vneg),
   (.vdiv, .vdiv), (.vsqrt, .vsqrt), (.vmov, .vmov), (.vexp2, .vexp2), (.vlog2, .vlog2), (.vexp, .vexp), (.vln, .vln),
   (.vpow, .vpow), (.vsigm, .vsigm), (.vsilu, .vsilu), (.vtanh, .vtanh), (.vceq, .vceq), (.vclt, .vclt), (.vcle, .vcle),
   (.vsel, .vsel), (.vand, .vand), (.vor, .vor), (.vandn, .vandn), (.vlmask, .vlmask), (.vrsum, .vrsum), (.vrmax, .vrmax),
   (.vrmin, .vrmin), (.vq, .vq), (.vpk, .vpk), (.vtdec, .vtdec), (.vsmax, .vsmax), (.vrscale, .vrscale), (.vrowk, .vrowk),
   (.vnsum, .vnsum), (.vnstat, .vnstat), (.vnapply, .vnapply)]

/-- The vector registers a vector instruction reads or writes. -/
def vecNames (op : VOp) (f : VFields) : List VReg :=
  (if (vUse op).va then [f.va] else []) ++ (if (vUse op).vb && !f.bs then [f.vb] else [])
    ++ (if (vUse op).vc then [f.vc] else []) ++ (if (vUse op).vd then [f.vd] else [])

/-- The queue entry of a vector instruction: what it reads at issue (R84, R159, R163, R176). -/
def vecEntry (x : CoreSt) (op : VOp) (f : VFields) : VecOp where
  seq := x.nIssued
  op := op
  x := f
  pc := x.pc
  map := x.stageMap
  va := rv x f.va
  vb := if f.bs then List.replicate 32 ((rs x f.s).truncate 32) else rv x f.vb
  vc := rv x f.vc
  vd := rv x f.vd
  s := rs x f.s
  stream := (rs x f.rs).truncate 16
  addr := if op = .vtdec then genAddr x f.ag else 0
  txM := x.txM
  txN := x.txN

/-- A vector instruction meets no address fault and no hazard, and has a place in the queue (R64, R84, R158, R176). -/
def VecReady (c : Nat) (x : CoreSt) (q : VecOp) : Prop :=
  (q.op = .vtdec → Aligned64 [q.addr.toNat] ∧ (q.x.sc = true → Aligned64 [bits q.s 31 0]) ∧ ∀ r ∈ vecReads q, InLocal r.1 r.2) ∧
  unitBusy c x (vecReads q) [] = false ∧ accReadBusy x (vAccReads q.op q.x) = false ∧
  accWriteBusy x false (vAccWrites q.op q.x) = false ∧ x.vq.length < 2

/-- The executing vector instruction of a core: its cluster's clock runs, no earlier tensor or move instruction still has to use an
accumulator that it writes, and its reads meet no uncorrectable error (R158, R176). -/
def NextVec (m : Mod) (c : Nat) (q : VecOp) (rest : List VecOp) : Prop :=
  (coreAt m c).vq = q :: rest ∧ clRolling m (clusterOf c) = true ∧ Sound m c q.map (vecReads q) ∧
  (∀ t ∈ (coreAt m c).tq, t.seq < q.seq → meets (vAccWrites q.op q.x) (tAccWrites t.op ++ tAccReads t.op) = false) ∧
  (∀ t ∈ (coreAt m c).mq, t.seq < q.seq → ∀ d, t.kind = .tld d ∨ t.kind = .tst d → d.val ∉ vAccWrites q.op q.x)

/-- 1 / (1 + 2^(-a × L2E)), each step rounded (Table 6.3). -/
def sigmoidOf (a : W32) : W32 := fpDiv 0x3F800000 (fpAdd 0x3F800000 (exp2Ref (fpMul a 0xBFB8AA3B)))

/-- The instructions that work lane by lane: lane `l` of the result from register s, the lane number and the source lanes, and
whether the result is of FP kind, so that a value that is not finite sets the flag (Tables 6.2 and 6.3, R157, R161, R168). -/
def laneRows : List (VOp × Bool × (W64 → Nat → W32 → W32 → W32 → W32)) :=
  [(.vadd, true, fun _ _ a b _ => fpAdd a b),
   (.vsub, true, fun _ _ a b _ => fpSub a b),
   (.vmul, true, fun _ _ a b _ => fpMul a b),
   (.vfma, true, fun _ _ a b c => fpFma a b c),
   (.vmin, true, fun _ _ a b _ => fpMin a b),
   (.vmax, true, fun _ _ a b _ => fpMax a b),
   (.vabs, true, fun _ _ a _ _ => fpAbs a),
   (.vneg, true, fun _ _ a _ _ => fpNeg a),
   (.vdiv, true, fun _ _ a b _ => fpDiv a b),
   (.vsqrt, true, fun _ _ a _ _ => fpSqrt a),
   (.vexp2, true, fun _ _ a _ _ => exp2Ref a),
   (.vlog2, true, fun _ _ a _ _ => log2Ref a),
   (.vexp, true, fun _ _ a _ _ => exp2Ref (fpMul a 0x3FB8AA3B)),
   (.vln, true, fun _ _ a _ _ => fpMul (log2Ref a) 0x3F317218),
   (.vpow, true, fun _ _ a b _ => exp2Ref (fpMul b (log2Ref a))),
   (.vsigm, true, fun _ _ a _ _ => sigmoidOf a),
   (.vsilu, true, fun _ _ a _ _ => fpMul a (sigmoidOf a)),
   (.vtanh, true, fun _ _ a _ _ => fpFma 0x40000000 (sigmoidOf (fpMul 0x40000000 a)) 0xBF800000),
   (.vmov, false, fun _ _ a _ _ => a),
   (.vceq, false, fun _ _ a b _ => if fpEq a b then 0xFFFFFFFF else 0),
   (.vclt, false, fun _ _ a b _ => if fpLt a b then 0xFFFFFFFF else 0),
   (.vcle, false, fun _ _ a b _ => if fpLe a b then 0xFFFFFFFF else 0),
   (.vsel, false, fun _ _ a b c => if c = 0 then b else a),
   (.vand, false, fun _ _ a b _ => a &&& b),
   (.vor, false, fun _ _ a b _ => a ||| b),
   (.vandn, false, fun _ _ a b _ => a &&& ~~~b),
   (.vlmask, false, fun s l _ _ _ => if l < s.toNat then 0xFFFFFFFF else 0)]

/-- `y` is `x` but for accumulators and vector registers, where only those named changed, and the non-finite flag, which is set when it
was set or when `flag` holds. -/
def UnitWrote (x y : CoreSt) (accs : List Nat) (regs : List VReg) (flag : Bool) : Prop :=
  y = { x with t := y.t, v := y.v, nonfinite := x.nonfinite || flag } ∧
  (∀ a i j, a ∉ accs → i < 16 → j < 16 → rt y a i j = rt x a i j) ∧
  (∀ r l, r ∉ regs → l < 32 → vLane y r l = vLane x r l)

/-! ## Registers and the commands they carry -/

/-- The function's accesses count and it may write the register at an offset (R403, R405, R477). -/
def Reaches (m : Mod) (fn : Fn) (off : Nat) : Prop := fnThere m fn = true ∧ ∃ k, reachMask m fn off = some k ∧ k ≠ 0

/-- From `m` to `m'` only registers changed: those listed hold the values listed, and every other is as it was. -/
def RegsFrom (m m' : Mod) (l : List (Nat × W64)) : Prop :=
  m' = { m with regs := m'.regs } ∧ (∀ e ∈ l, rd m' e.1 = e.2) ∧ ∀ o, (∀ e ∈ l, o ≠ e.1) → rd m' o = rd m o

/-- A step that changed registers of the module, as listed, and nothing else. -/
def RegStep (s t : State) (l : List (Nat × W64)) : Prop := t = { s with mod := t.mod } ∧ RegsFrom s.mod t.mod l

/-- Every register but those at the offsets listed is as it was. -/
def KeepsRegs (m m' : Mod) (offs : List Nat) : Prop := ∀ o, o ∉ offs → rd m' o = rd m o

/-! ## The dolly -/

/-- One channel, DOLLY_OUT of its dolly, which counts the requests that are out (R213), and registers at the offsets listed changed,
nothing else. -/
def ChanStep (m m' : Mod) (k ch : Nat) (offs : List Nat) : Prop :=
  m' = { m with regs := m'.regs, chans := m'.chans } ∧ KeepsRegs m m' (rDollyOut k :: offs) ∧
  fld m' (rDollyOut k) 7 0 = dollyOut m' k % 2 ^ 8 ∧
  ∀ k2 ch2, 16 * k2 + ch2 ≠ 16 * k + ch → chanAt m' k2 ch2 = chanAt m k2 ch2

/-- No storyboard engine waits with a stop for its entries, and no arbiter holds a request (R214, R257). -/
def NothingFollows (m : Mod) : Prop := (∀ e, (sbAt m e).stopping = false) ∧ m.arbs = []

/-- A command that a channel ignores sets DOLLY_CH_ERR.cmd_ignored (Table 8.9). -/
def ChanIgnores (m m' : Mod) (k ch : Nat) : Prop := RegsFrom m m' [(rChErr k ch, put (rd m (rChErr k ch)) 1 1 1)]

/-- What the storyboard engines await of a channel that arms: a descriptor still queued under its new number, and one that has left
the channel no more (R227, R252). -/
def rearmed (m : Mod) (k ch : Nat) : Mod :=
  sbDescs m k ch (fun n => ((chanAt m k ch).queue.findIdx? (fun d => d.seq == n)).map (BitVec.ofNat 32))

/-- Arm (R227). -/
def Armed (m m' : Mod) (k ch : Nat) : Prop :=
  if chState m k ch ∈ [0, 1, 7] then
    ChanStep (rearmed m k ch) m' k ch
      [rChStat k ch, rChDone k ch, rChAbandon k ch, rChWaste k ch, rChFseq k ch, rChFrow k ch, rChFaddr k ch] ∧
    chState m' k ch = 1 ∧ fld m' (rChStat k ch) 23 16 = 0 ∧ fld m' (rChStat k ch) 15 12 = 0 ∧
    (∀ o ∈ [rChDone k ch, rChAbandon k ch, rChWaste k ch, rChFseq k ch, rChFrow k ch, rChFaddr k ch], rd m' o = 0) ∧
    chanAt m' k ch = { chanAt m k ch with seqCount := 0, credited := 0 }
  else ChanIgnores m m' k ch

/-- A Running channel whose active descriptor has begun: a stop lets it run to its end (R224). -/
def stopKeeps (m : Mod) (k ch : Nat) : Bool :=
  decide (chState m k ch = 2) && (chanAt m k ch).active.isSome && (chanAt m k ch).issued

/-- Stop (R224): the descriptors that do not run on are abandoned and counted, and what was read ahead for them is waste. -/
def Stopped (m m' : Mod) (k ch : Nat) : Prop :=
  if chState m k ch ∈ [0, 5, 6] then ChanIgnores m m' k ch
  else
    chState m' k ch = 5 ∧ m'.cores = m.cores ∧ m'.lmem = m.lmem ∧ m'.imem = m.imem ∧
    m'.mem = (if stopKeeps m k ch then m else farApply m (chanAt m k ch).writes).mem ∧
    (NothingFollows m → (chanAt m k ch).writes = [] →
      ChanStep m m' k ch [rChStat k ch, rChDone k ch, rChAbandon k ch, rChWaste k ch]) ∧
    (∀ o ∈ [rChDone k ch, rChAbandon k ch], (rd m' o).toNat = ((rd m o).toNat + (chanAt m k ch).queue.length
      + (if stopKeeps m k ch then 0 else (chanAt m k ch).active.toList.length)) % 2 ^ 32) ∧
    (rd m' (rChWaste k ch)).toNat = min ((rd m (rChWaste k ch)).toNat + 16 * (((chanAt m k ch).bufs.filter (fun b =>
      !stopKeeps m k ch || decide (0 < b.desc))).map (fun b => b.data.length)).foldl (· + ·) 0) (2 ^ 48 - 1) ∧
    (chanAt m' k ch).active = (if stopKeeps m k ch then (chanAt m k ch).active else none) ∧
    (chanAt m' k ch).queue = [] ∧ (chanAt m' k ch).kept = [] ∧
    (chanAt m' k ch).row = (if stopKeeps m k ch then (chanAt m k ch).row else 0) ∧
    (chanAt m' k ch).seqCount = (chanAt m k ch).seqCount

/-- Disable (R225): the channel drops everything and is Disabling; the counters of the cores it credits, and its own counts,
hold undefined values; its responses are out until it is Off. Off and Disabling channels ignore it. -/
def Disabled (m m' : Mod) (k ch : Nat) : Prop :=
  if chState m k ch ∈ [0, 6] then m' = m
  else
    chState m' k ch = 6 ∧ m'.lmem = m.lmem ∧ m'.imem = m.imem ∧ ((chanAt m k ch).writes = [] → m'.mem = m.mem) ∧
    chanAt m' k ch = { ChanSt.reset with
      seqCount := (chanAt m k ch).seqCount, flight := (chanAt m k ch).flight + b2n (chanAt m k ch).refused
      maxOut := (chanAt m k ch).maxOut, lead := (chanAt m k ch).lead, prio := (chanAt m k ch).prio } ∧
    (∀ k2 ch2, 16 * k2 + ch2 ≠ 16 * k + ch → chanAt m' k2 ch2 = chanAt m k2 ch2) ∧
    ((chanAt m k ch).awaiting = false →
      (∀ c, c < 80000 → coreAt m' c = { coreAt m c with cred := (coreAt m' c).cred }) ∧
      (∀ c, c < 80000 → clusterOf c ≠ k → coreAt m' c = coreAt m c)) ∧
    ((chanAt m k ch).awaiting = false → NothingFollows m → KeepsRegs m m'
      [rDollyOut k, rChStat k ch, rChDone k ch, rChAbandon k ch, rChWaste k ch, rChFseq k ch, rChFrow k ch, rChFaddr k ch])

/-- A core's instruction did `p` to the module in its issue cycle, and the core went on. -/
def CoreDid (s t : State) (c : Nat) (p : Mod → Mod → Prop) : Prop :=
  ∃ m', p (tick s.mod c) m' ∧ t = { s with mod := setCore m' c (advance (coreAt m' c)) }

/-! ## Arbiters, reels, streams -/

/-- The module when `n` beats have passed at an arbiter since its last event, and the requests that have become ready have joined. -/
def arbJoined (m : Mod) (a : ArbId) (n : Nat) (ready : List ArbReq) : Mod := arbJoin (arbElapse m a n) a ready

/-- As `arbJoined`, at a decision: entries that passed empty are left behind. -/
def arbMet (m : Mod) (a : ArbId) (n : Nat) (ready : List ArbReq) : Mod :=
  let x := arbAt m a
  let e := arbElapse m a n
  arbJoin (setArb e a (if x.run.isNone && !x.due then arbAdvance e a (arbAt e a) (n - 1) else arbAt e a)) a ready

/-- As `arbJoined`, in the decision beat or before it, when a cancel comes. -/
def arbStopped (m : Mod) (a : ArbId) (n : Nat) (ready : List ArbReq) (last : Bool) : Mod :=
  let j := arbJoined m a n ready
  setArb j a { arbAt j a with due := last }

/-- Only an arbiter changed: its record, its counters, and at a fabric port the flits that a grant moves on. -/
def ArbOnly (m m' : Mod) (a : ArbId) : Prop :=
  m' = { m with regs := m'.regs, arbs := m'.arbs, ports := m'.ports, tx := m'.tx } ∧
  (arbFabricPort a = none → m'.ports = m.ports ∧ m'.tx = m.tx)

/-- The last message put into an output queue, and no other was. -/
def Sent (s t : State) (q : Nat) (body : List Byte) (typ : Nat) : Prop :=
  ∃ cls head, t.mod.tx = s.mod.tx ++ [⟨q, cls, head, body, 0, false⟩] ∧ bits (head.getD 0 0) 39 32 = typ

/-- The configuration of a reel context that a start refuses with status 3 (R181). -/
def reelBad (m : Mod) (r : Nat) : Prop :=
  fld m (rRlCtl r) 0 0 = 0 ∨ 11 < fld m (rRlCtl r) 7 4 ∨ fld m (rRlRing r) 5 0 = 0 ∨ 6 ≤ fld m (rRlRing r) 14 12 ∨
  6 ≤ fld m (rRlRing r) 10 8 ∨ reelB m r = 0 ∨ fld m (rRlTaps r) 15 0 = 0

/-- The buffers of a stream are mapped (R334). -/
def csMapped (m : Mod) (i : Nat) : Bool :=
  rangeMapped m (csCtx m i) (csLbuf m i) (csInBytes m i) && rangeMapped m (csCtx m i) (csRbuf m i) (csOutBytes m i) &&
  rangeMapped m (csCtx m i) (fld m (rCsLand i) 56 16 * 65536) 0x100000

/-! ## Links and groups -/

/-- The hidden state of one port became `x`; nothing else changed. -/
def PortStep (s t : State) (q : Nat) (x : PortSt) : Prop :=
  portAt t.mod q = x ∧ (∀ r, r ≠ q → portAt t.mod r = portAt s.mod r) ∧ t = { s with mod := { s.mod with ports := t.mod.ports } }

/-- A counter of 32 bits that saturates is one higher (R70). -/
def Counted (m m' : Mod) (off : Nat) : Prop := (rd m' off).toNat = min ((rd m off).toNat + 1) (2 ^ 32 - 1)

/-- A port left Up for Down: its state, its error bit, its count and the line map (R318, R323). -/
def WentDown (m m' : Mod) (q : Nat) : Prop :=
  portState m' q = 1 ∧ fld m' (rPortErr q) 0 0 = 1 ∧ Counted m m' (rPortRetrain q) ∧
  bit (rd m' (rLinemap (q / 2))) (linkBit m q) = true

/-- A port that trained entered Down, which sets ERR.down and counts (R346): nothing else. -/
def EntersDown (s t : State) (q : Nat) : Prop :=
  portState t.mod q = 1 ∧ fld t.mod (rPortErr q) 0 0 = 1 ∧ Counted s.mod t.mod (rPortRetrain q) ∧
  KeepsRegs s.mod t.mod [rPortStat q, rPortErr q, rPortRetrain q] ∧ t = { s with mod := { s.mod with regs := t.mod.regs } }

/-- No census waits for an answer over a port. -/
def NoCensusOver (m : Mod) (q : Nat) : Prop := ∀ p, p < 12 → (grpAt m p).censusOpen = false ∨ q ∉ (grpAt m p).awaiting

/-- A message whose head or body breaks Table 12.3 or 12.4 (drop cause 0). -/
def malformed (h : Head) (body : List Byte) : Prop :=
  typeVc (bits (h.getD 0 0) 39 32) ≠ some (bits (h.getD 0 0) 31 30) ∨ bits (h.getD 0 0) 63 55 ≠ 0 ∨ 12 < bits (h.getD 0 0) 54 51 ∨
  1024 < bits (h.getD 0 0) 50 40 ∨ 64 * bits (h.getD 0 0) 50 40 ≠ body.length

/-- The output port and class of a message that is not for this module (R322, R324): one that came along its dimension goes on in the
same direction, and any other by the choice of R322, over a port that carries traffic. -/
def outputOf (m : Mod) (arrive : ArrivePort) (dst d : Nat) : Option (Nat × Bool) :=
  match arrive with
  | .port q cls =>
    if q.val / 2 = d then
      (if portUsable m (opposite q.val) then some (opposite q.val, cls || dateline m (opposite q.val)) else none)
    else ((chooseDir m (myCoord m) dst d).filter (portUsable m)).map (fun r => (r, dateline m r))
  | .own => ((chooseDir m (myCoord m) dst d).filter (portUsable m)).map (fun r => (r, dateline m r))
where
  opposite (q : Nat) : Nat := if q % 2 = 0 then q + 1 else q - 1

/-- A census of number `wave` is open: every port over which it goes on owes an answer (R329). -/
def censusOpened (m : Mod) (p : Nat) (parent : Option Nat) (wave : Nat) (forced : Bool) (g : GroupSt) : GroupSt :=
  { g with parent := parent, children := [], wave := wave, awaiting := censusPorts m p parent, reached := [myCoord m]
           censusOpen := true, forced := forced }

/-- What a group operation that sends messages leaves alone: memory, cores, channels, contexts and print engines. -/
def GroupOnly (s t : State) : Prop :=
  t.mod = { s.mod with regs := t.mod.regs, groups := t.mod.groups, ports := t.mod.ports, tx := t.mod.tx, unacked := t.mod.unacked
                       ctlKey := t.mod.ctlKey, telemQ := t.mod.telemQ } ∧ t.mdm = s.mdm ∧ t.pending = s.pending

/-! ## Storyboard -/

/-- An engine's read of 64 bytes at an address is taken at once and meets no uncorrectable error (R221, R438). -/
def SbReads (m : Mod) (e va : Nat) (kind : Option Nat) : Prop :=
  rangeBusy m (sbCtx m e) va 64 false = false ∧ eccRead m (sbCtx m e) va 64 kind = m

/-- The entry at the index of a Running engine that no stop holds is offered to the row of op `op`: its words are `ws`, and its cue is
reached (R250, R253). -/
def SbOffered (m : Mod) (e op : Nat) (ws : List W64) : Prop :=
  sbState m e = 1 ∧ (sbAt m e).stopping = false ∧ (sbAt m e).restart = false ∧ SbReads m e (sbAddr m e (sbIndex m e)) (some 3) ∧
  (∃ bs, sbRead m e (sbAddr m e (sbIndex m e)) 64 = .ok bs ∧ ws = words8 bs) ∧
  (efld ws 0 7 0 = op ∨ efld ws 0 7 0 = 0 ∨ 7 < efld ws 0 7 0) ∧ efld ws 0 63 32 ≤ fld m (rSbCue e) 31 0

/-- The entries before it are complete, if the entry waits for them (R252). -/
def SbFree (m : Mod) (e : Nat) (ws : List W64) : Prop :=
  efld ws 0 8 8 = 1 → ∀ o ∈ (sbAt m e).out, o.index < sbIndex m e → outDone m o = true

/-- The entry is dispatched by the row of its op, and another entry follows it. -/
def SbReady (m : Mod) (e op : Nat) (ws : List W64) : Prop :=
  SbOffered m e op ws ∧ SbFree m e ws ∧ sbCheck m e ws = 0 ∧ efld ws 0 7 0 = op ∧ (sbAt m e).redo = [] ∧ (sbAt m e).resumeAt = none ∧
  sbIndex m e + 1 < 2 ^ 20

/-- Every entry of an engine's run is complete (R252, R257). -/
def SbIdle (m : Mod) (e : Nat) : Prop := (sbAt m e).sub = 0 ∧ ∀ o ∈ (sbAt m e).out, outDone m o = true

/-- Every register but those at the offsets listed and those of the clusters' rungs is as it was. -/
def KeepsButRungs (m m' : Mod) (offs : List Nat) : Prop :=
  ∀ o, o ∉ offs → (∀ k, o ≠ rGafClStat k ∧ o ≠ rGafClWakes k) → rd m' o = rd m o

/-- Every window of a partition's clusters is over (R256). -/
def NoWindows (m m' : Mod) (p : Nat) : Prop :=
  ∀ k, partOfCluster m k = some p → (clAt m' k).restCue = none ∧ (clAt m' k).screenCue = none

/-- The engine went on to the next entry (R253). -/
def SbNext (m m' : Mod) (e : Nat) : Prop :=
  sbState m' e = 1 ∧ sbIndex m' e = sbIndex m e + 1 ∧ (sbAt m' e).sub = 0 ∧
  (rd m' (rSbDisp e)).toNat = ((rd m (rSbDisp e)).toNat + 1) % 2 ^ 32

/-! ## Dailies -/

/-- Every Read that is there is outstanding, and no port has one to issue (R351). -/
def ReadsQuiet (m : Mod) : Prop := (∀ r ∈ m.reads, r.issued = true) ∧ nextRead m 0 = none ∧ nextRead m 1 = none

/-- A port can issue a Read of a namespace (R351, Table 13.1). -/
def PortTakes (m : Mod) (q nsid : Nat) : Prop := nvState m q = 2 ∧ (nvOut m q).length < nvCap m q ∧ (nvNs m q nsid).isSome = true

/-! ## Contexts and command queues -/

/-- The bays of a partition that is set up: some, all of them good, and none another partition's (R381, R431). -/
def BaysGood (m : Mod) (p : Nat) : Prop :=
  rd m (rPartBays p) ≠ 0 ∧ ∀ b, b < 40 → bit (rd m (rPartBays p)) b = true → bit (rd m rRepBayOk) b = true ∧ ∀ q, q < 12 → partHasBay m q b = false

/-- The entry was written at the tail of a context's completion ring, with its phase, and the vector was sent if the ring held no
unread entry (R400, R402). -/
def CplAt (m m' : Mod) (x : Nat) (e : List Byte) : Prop :=
  (ctxAt m' x).cq = { (ctxAt m x).cq with
    tail := ((ctxAt m x).cq.tail + 1) % ringSize (ctxAt m x).cq
    phase := if ((ctxAt m x).cq.tail + 1) % ringSize (ctxAt m x).cq = 0 then !(ctxAt m x).cq.phase else (ctxAt m x).cq.phase } ∧
  m'.mem = (memWrite m (hostBase + bits (ctxAt m x).cq.reg 63 12 * 4096 + 32 * (ctxAt m x).cq.tail)
    (match e with | b :: bs => put b 0 0 (b2n (ctxAt m x).cq.phase) :: bs | [] => [])).mem ∧
  m'.msix = (if (ctxAt m x).cq.head = (ctxAt m x).cq.tail
    then m.msix ++ [(fnOfPart m (ctxAt m x).part.val, bits (ctxAt m x).vec 7 0)] else m.msix)

/-- The head moved past the command. -/
def SqMoved (m m' : Mod) (x : Nat) : Prop :=
  (ctxAt m' x).sq = { (ctxAt m x).sq with head := ((ctxAt m x).sq.head + 1) % ringSize (ctxAt m x).sq }

/-- The head command completed with a status and two words; a completion is written if it failed or asked for one (R397). -/
def CmdEnds (m m' : Mod) (x : Nat) (ws : List W64) (status w1 w2 : Nat) : Prop :=
  SqMoved m m' x ∧ (∀ y, y ≠ x → ctxAt m' y = ctxAt m y) ∧ (ctxAt m' x).cmds = (ctxAt m x).cmds ∧
  (if status ≠ 0 ∨ bit (ws.headD 0) 9 = true
   then CplAt m m' x (cplEntry (cfld ws 0 7 0) status (cfld ws 0 63 32) w1 w2 m.hclk)
   else (ctxAt m' x).cq = (ctxAt m x).cq ∧ m'.mem = m.mem ∧ m'.msix = m.msix)

/-- The head command began: it waits in the context's list for the cores named. -/
def CmdBegins (m m' : Mod) (x : Nat) (ws : List W64) (cores : List Nat) : Prop :=
  SqMoved m m' x ∧ (∀ y, y ≠ x → ctxAt m' y = ctxAt m y) ∧ (ctxAt m' x).cmds = (ctxAt m x).cmds ++ [⟨ws, cores, 0, 0, 0, 0, none⟩] ∧
  (ctxAt m' x).cq = (ctxAt m x).cq ∧ m'.mem = m.mem ∧ m'.msix = m.msix

/-- A command of opcode `op` without reserved bits stands at the head, and may begin. -/
def SqReady (m : Mod) (x op : Nat) (ws : List W64) : Prop := sqHead m x = some ws ∧ cfld ws 0 7 0 = op ∧ cmdBad ws = false

/-- The core after a start at a word (R79, R139). -/
def started (y : CoreSt) (x : Ctx) (part w : Nat) : CoreSt :=
  { y with state := .running, pc := BitVec.ofNat 16 w, s := [], p := 0, v := [], t := [], loops := [], agBase := [], agStride := []
           txM := 16, txN := 32, txK := 32, txH := 16, wait := none, halting := none, reported := false, wakeDone := false
           scrubbing := false, ctxReg := BitVec.ofNat 32 (x.val * 2 ^ 16 + part), lastCtx := some x }

/-- The core after a scrub: as after core reset, but for the counters (R70, R80). -/
def scrubbed (y : CoreSt) : CoreSt :=
  { CoreSt.reset with cycle := y.cycle, cancel := y.cancel, depStall := y.depStall, idle := y.idle, haloIn := y.haloIn
                      haloPos := y.haloPos }

/-! ## The power ladder -/

/-- Clusters and registers changed, and of the clusters only `k`. -/
def ClusterOnly (m m' : Mod) (k : Nat) : Prop :=
  m' = { m with regs := m'.regs, clusters := m'.clusters } ∧ ∀ j, j ≠ k → clAt m' j = clAt m j

/-- A wake of a cluster (R412 to R414): it ends a drain, is latched during an entry, changes nothing during an exit, and begins the exit
of a cluster below Rolling; a held request is given up. -/
def Woke (m m' : Mod) (k : Nat) : Prop :=
  ClusterOnly m m' k ∧ clAt m' k = { clAt m k with held := none } ∧ KeepsRegs m m' [rGafClStat k, rGafClWakes k] ∧ clRung m' k = clRung m k ∧
  (clPhase m k = 1 → clPhase m' k = 0 ∧ fld m' (rGafClStat k) 5 3 = 0 ∧ Counted m m' (rGafClWakes k)) ∧
  (clPhase m k = 2 → clPhase m' k = 2 ∧ fld m' (rGafClStat k) 11 11 = 1 ∧ rd m' (rGafClWakes k) = rd m (rGafClWakes k)) ∧
  (clPhase m k = 3 ∨ clPhase m k = 0 ∧ clRung m k = 0 → m'.regs = m.regs) ∧
  (clPhase m k = 0 → clRung m k ≠ 0 → clPhase m' k = 3 ∧ fld m' (rGafClStat k) 5 3 = 0 ∧ fld m' (rGafClStat k) 11 11 = 0 ∧
    Counted m m' (rGafClWakes k))

/-- A request for rung `r` of a cluster (R248, R413, R416, R513): Dark becomes Deep Dim while a carve-out slot is in use. -/
def Requested (m m' : Mod) (k r : Nat) : Prop :=
  if rungBlocked m k = true then m' = m
  else ∀ q, q = (if r = 5 ∧ slotsUsed m k ≠ [] then 4 else r) →
    ClusterOnly m m' k ∧ KeepsRegs m m' [rGafClStat k] ∧ clRung m' k = clRung m k ∧
    (clPhase m k = 1 → clPhase m' k = 1 ∧ fld m' (rGafClStat k) 5 3 = q ∧ clAt m' k = clAt m k) ∧
    fld m' (rGafClStat k) 9 9 = 0 ∧
    (clPhase m k = 2 ∨ clPhase m k = 3 → clAt m' k = { clAt m k with held := some q } ∧ rd m' (rGafClStat k) = put (rd m (rGafClStat k)) 9 9 0) ∧
    (clPhase m k = 0 → clRung m k = 0 → clPhase m' k = 1 ∧ fld m' (rGafClStat k) 5 3 = q ∧ clAt m' k = clAt m k) ∧
    (clPhase m k = 0 → clRung m k ≠ 0 →
      (q < clRung m k → clPhase m' k = 3 ∧ clAt m' k = { clAt m k with held := some q }) ∧
      (clRung m k < q → clPhase m' k = 2 ∧ fld m' (rGafClStat k) 5 3 = q ∧ clAt m' k = clAt m k) ∧
      (q = clRung m k → clAt m' k = clAt m k ∧ rd m' (rGafClStat k) = put (rd m (rGafClStat k)) 9 9 0))

/-! ## Resets and the dies -/

/-- The module begins a reset of a type (0 POR, 1 cold, 2 warm) from a source: what Table 18.2 keeps and initialises. -/
def ResetTo (m m' : Mod) (typ src : Nat) : Prop :=
  rd m' rRstCause = BitVec.ofNat 64 (src * 16 + typ) ∧ bootState m' = 1 ∧ m'.boot.inReset = some (typ, src) ∧ m'.boot.dies = true ∧
  m'.hclk = (if typ = 0 then 0 else m.hclk) ∧ rd m' rRstCtl = (if typ = 0 then regReset rRstCtl else rd m rRstCtl) ∧
  m'.production = m.production ∧ m'.savedGauges = m.savedGauges ∧ m'.boot.fw0 = m.boot.fw0 ∧ m'.boot.fw1 = m.boot.fw1 ∧
  (∀ c, coreAt m' c = CoreSt.reset) ∧ (∀ k ch, chanAt m' k ch = ChanSt.reset) ∧ (∀ x, ctxAt m' x = CtxSt.reset) ∧
  m'.reels = [] ∧ m'.streams = [] ∧ m'.sbs = [] ∧ m'.fns = [] ∧
  (typ ≠ 2 → m'.infield = m.infield ∧ m'.groups = [] ∧ m'.prints = [] ∧
    ∀ o, o ≠ rRstCause → o ≠ rBootStat → o ≠ rRstCtl → o ≠ rModFw → (o < 0x52100 ∨ 0x60000 ≤ o) → rd m' o = regReset o) ∧
  (typ = 2 → (∀ a, a < hbmTop → sget memDefault m'.mem a = sget memDefault m.mem a) ∧
    (∀ p, p < 12 → partState m' p = if partState m p = 2 then 1 else partState m p) ∧
    (∀ o, (o = rTopo ∨ o = rZwLock ∨ 0x102000 ≤ o ∧ o < 0x103000 ∨ 0x20000 ≤ o ∧ o < 0x23000 ∧ ∀ p, p < 12 → o ≠ rPartStat p) → rd m' o = rd m o))

/-- A reset trigger (R476): absorbed by a reset of the same or a deeper type; without effect while the house domain or the input is down,
in ROM recovery, and, for a warm one, while the dies are off. -/
def Triggered (m m' : Mod) (typ src : Nat) : Prop :=
  if m.boot.house = false ∨ m.boot.input = false ∨ m.boot.rom = true then m' = m
  else match m.boot.inReset with
    | some (u, _) => if typ < u then ResetTo m m' typ src else m' = m
    | none => if typ = 2 ∧ m.boot.dies = false then m' = m else ResetTo m m' typ src

/-- The dies are off (R480): the boot record names the failure, an alarm is raised, and volatile state is lost. -/
def PoweredDown (m m' : Mod) (latched : Bool) (fail : Nat) : Prop :=
  rd m' rBootStat = BitVec.ofNat 64 (fail * 2 ^ 16) ∧ m'.boot.dies = false ∧ m'.boot.latched = latched ∧ m'.boot.inReset = none ∧
  m'.hclk = m.hclk ∧ m'.production = m.production ∧ m'.infield = m.infield ∧ Counted m m' rAlN ∧
  (∀ c, coreAt m' c = CoreSt.reset) ∧ (∀ k ch, chanAt m' k ch = ChanSt.reset) ∧ (∀ x, ctxAt m' x = CtxSt.reset)

/-! ## Records of the metrology unit -/

/-- The fields of a record of `d` (Tables 17.2 and 17.3), numbers little-endian, with the signature over its first 128 bytes (R461). -/
def RecordOf (d : Mdm) (kind energy : Nat) (x : Measure) (r : List Byte) : Prop :=
  r.length = 192 ∧ recNat r 0 2 = 0x4D31 ∧ recNat r 2 1 = 1 ∧ recNat r 3 1 = kind ∧
  recNat r 4 4 = b2n d.lost + 2 * b2n d.opened + 4 * b2n d.unsealed + 8 * b2n x.vRange + 16 * b2n x.iRange + 32 * b2n x.selftest ∧
  recNat r 8 8 = d.serial.toNat ∧ recNat r 16 8 = (d.seq + 1) % 2 ^ 64 ∧ recNat r 24 8 = (d.opSec + x.opSec) % 2 ^ 64 ∧
  recNat r 32 8 = (d.energy + energy) % 2 ^ 64 ∧ recNat r 40 8 = energy % 2 ^ 64 ∧ recNat r 48 4 = x.ms.toNat ∧
  recNat r 52 4 = d.log.length % 2 ^ 32 ∧ recNat r 56 4 = x.vmin.toNat ∧ recNat r 60 4 = x.vmax.toNat ∧ recNat r 64 4 = x.imax.toNat ∧
  recNat r 68 4 = x.pmax.toNat ∧ recNat r 72 4 = d.fwCrc.toNat ∧ recNat r 76 2 = d.fwVer.toNat ∧ recNat r 78 50 = 0 ∧
  recNat r 128 32 = (Config.mdmSignR d.serial (r.take 128)).toNat ∧ recNat r 160 32 = (Config.mdmSignS d.serial (r.take 128)).toNat

/-- A record closed: it is numbered one higher than the last, and the 65,536 latest are held (R459). -/
def Recorded (d d' : Mdm) (kind energy : Nat) (x : Measure) : Prop :=
  ∃ r, RecordOf d kind energy x r ∧
    d' = { d with records := (r :: d.records).take 65536, seq := d.seq + 1, energy := (d.energy + energy) % 2 ^ 64
                  opSec := d.opSec + x.opSec, opened := false, lost := false }

/-- A log entry of 32 bytes joined the log. -/
def Logged (d d' : Mdm) : Prop := ∃ e : List Byte, e.length = 32 ∧ d' = { d with log := d.log ++ [e] }

/-! ## The row of an instruction -/

/-- The row of a two-operand instruction. -/
def aluRowOf : AluOp → Core → Instr
  | .add => .add
  | .sub => .sub
  | .mul => .mul
  | .mulh => .mulh
  | .mulhu => .mulhu
  | .div => .div
  | .divu => .divu
  | .rem => .rem
  | .remu => .remu
  | .min => .min
  | .max => .max
  | .minu => .minu
  | .maxu => .maxu
  | .and => .and
  | .or => .or
  | .xor => .xor
  | .andn => .andn
  | .shl => .shl
  | .shr => .shr
  | .sar => .sar
  | .rotl => .rotl

/-- The row of an instruction with an immediate, for the operations that have one. -/
def aluIRowOf : AluOp → Option (Core → Instr)
  | .add => some .addi
  | .sub => none
  | .mul => some .muli
  | .mulh => none
  | .mulhu => none
  | .div => none
  | .divu => none
  | .rem => none
  | .remu => none
  | .min => some .mini
  | .max => some .maxi
  | .minu => none
  | .maxu => none
  | .and => some .andi
  | .or => some .ori
  | .xor => some .xori
  | .andn => none
  | .shl => some .shli
  | .shr => some .shri
  | .sar => some .sari
  | .rotl => some .rotli

/-- The row of a compare. -/
def cmpRowOf : CmpOp → Core → Instr
  | .eq => .ceq
  | .ne => .cne
  | .lt => .clt
  | .ltu => .cltu
  | .le => .cle
  | .leu => .cleu

/-- The row of a compare with an immediate. -/
def cmpIRowOf : CmpOp → Core → Instr
  | .eq => .ceqi
  | .ne => .cnei
  | .lt => .clti
  | .ltu => .cltui
  | .le => .clei
  | .leu => .cleui

/-- The row of a vector instruction. -/
def vecRowOf : VOp → Core → Instr
  | .vadd => .vadd
  | .vsub => .vsub
  | .vmul => .vmul
  | .vfma => .vfma
  | .vmin => .vmin
  | .vmax => .vmax
  | .vabs => .vabs
  | .vneg => .vneg
  | .vdiv => .vdiv
  | .vsqrt => .vsqrt
  | .vmov => .vmov
  | .vexp2 => .vexp2
  | .vlog2 => .vlog2
  | .vexp => .vexp
  | .vln => .vln
  | .vpow => .vpow
  | .vsigm => .vsigm
  | .vsilu => .vsilu
  | .vtanh => .vtanh
  | .vceq => .vceq
  | .vclt => .vclt
  | .vcle => .vcle
  | .vsel => .vsel
  | .vand => .vand
  | .vor => .vor
  | .vandn => .vandn
  | .vlmask => .vlmask
  | .vrsum => .vrsum
  | .vrmax => .vrmax
  | .vrmin => .vrmin
  | .vq => .vq
  | .vpk => .vpk
  | .vtdec => .vtdec
  | .vsmax => .vsmax
  | .vrscale => .vrscale
  | .vrowk => .vrowk
  | .vnsum => .vnsum
  | .vnstat => .vnstat
  | .vnapply => .vnapply

/-- The row of a load. -/
def loadRowOf : MemSize → Bool → Option (Core → Instr)
  | .b, true => some .ldB
  | .b, false => some .ldBu
  | .h, true => some .ldH
  | .h, false => some .ldHu
  | .w, true => some .ldW
  | .w, false => some .ldWu
  | .d, false => some .ldD
  | .d, true => none

/-- The row of the opcode table that a decoded instruction belongs to; none for what no word decodes to. -/
def rowOf : Octix → Option (Core → Instr)
  | .alu op _ _ _ => some (aluRowOf op)
  | .count op _ _ => some (match op with | .popc => .popc | .clz => .clz | .ctz => .ctz)
  | .sel _ _ _ _ => some .sel
  | .aluI op _ _ _ => aluIRowOf op
  | .mov op _ _ => some (match op with | .movi => .movi | .movhi => .movhi | .movz => .movz)
  | .cmp op _ _ _ => some (cmpRowOf op)
  | .cmpI op _ _ _ => some (cmpIRowOf op)
  | .pred op _ _ _ => some (match op with | .and => .pand | .or => .por | .xor => .pxor | .andn => .pandn)
  | .pnot _ _ => some .pnot
  | .ld sz sg _ _ _ => loadRowOf sz sg
  | .st sz _ _ _ => some (match sz with | .b => .stB | .h => .stH | .w => .stW | .d => .stD)
  | .mfsr _ _ => some .mfsr
  | .mtsr _ _ => some .mtsr
  | .cp _ _ _ => some .cp
  | .push _ _ _ _ => some .push
  | .vld _ _ _ => some .vld
  | .vst _ _ _ => some .vst
  | .tld _ _ _ => some .tld
  | .tst _ _ _ => some .tst
  | .vext _ _ _ => some .vext
  | .vins _ _ _ => some .vins
  | .vbcast _ _ => some .vbcast
  | .swap => some .swap
  | .mfence => some .mfence
  | .clap op _ _ _ => some (match op with | .both => .clap | .arrive => .clapA | .wait => .clapW)
  | .ev op _ _ => some (match op with | .set => .evSet | .clr => .evClr | .wait => .evWait)
  | .evTest _ _ _ => some .evTest
  | .waitCr _ _ => some .waitCr
  | .waitCrr _ _ => some .waitCrr
  | .waitVd _ => some .waitVd
  | .nop => some .nop
  | .br _ => some .br
  | .brr _ => some .brr
  | .call _ _ => some .call
  | .loop _ _ => some .loop
  | .halt _ => some .halt
  | .fclr => some .fclr
  | .tmma _ => some .tmma
  | .tzero _ => some .tzero
  | .tbias _ _ => some .tbias
  | .tcvt _ => some .tcvt
  | .tset op _ => some (match op with | .m => .tsetm | .n => .tsetn | .k => .tsetk)
  | .tseth _ => some .tseth
  | .vec op _ => some (vecRowOf op)
  | .darm _ => some .darm
  | .dlaunch _ _ _ => some .dlaunch
  | .dstop _ => some .dstop
  | .ddis _ => some .ddis
  | .dwait _ _ => some .dwait
  | .dq _ _ _ => some .dq

/-! ## The metrology unit among the rest (R459, R462) -/

/-- The commands of the metrology unit: events of it, its SMBus and its link. -/
def ofMetrology : Instr → Bool
  | .meterPeriodicRecord _ | .meterPowerUpRecord _ | .meterPowerDownRecord _ | .mdmCaseOpen _ | .mdmReseal _ | .mdmFirmwareChange _ _ _
  | .meterFrameSend | .mdmReadRecord _ _ | .mdmReadLatest _ | .mdmReadLog _ _ | .mdmReadCertificate _ _ | .mdmIdentify _ => true
  | _ => false

/-- The records held, newest first (R459): the last 65,536 closed, each of 192 bytes, numbered down from the last one closed, each
interval energy the difference of two consecutive energy registers, and the newest's register the unit's. -/
def RecordsHeld (d : Mdm) : Prop :=
  d.records.length = min d.seq 65536 ∧ (∀ r ∈ d.records, r.length = 192) ∧
  (∀ i, i < d.records.length → recNat (d.records.getD i []) 16 8 = (d.seq - i) % 2 ^ 64) ∧
  (∀ i, i + 1 < d.records.length → recNat (d.records.getD i []) 32 8 =
    (recNat (d.records.getD (i + 1) []) 32 8 + recNat (d.records.getD i []) 40 8) % 2 ^ 64) ∧
  (0 < d.records.length → recNat (d.records.getD 0 []) 32 8 = d.energy % 2 ^ 64)

end Sys2Proof.Machine
end

