-- ==== Sys2Proof/Certificates/Slice0/Obligations.lean ====
section
/-!
DEFINITION. The statements for the provers: what every command of the Varog T8 does, family by family, and what every step keeps.
-/
open Sys2Proof Sys2Proof.Machine

/-- R106, R107, R109: an instruction with two scalar registers writes the value of Tables 4.4 and 4.5 to d, and changes nothing
else but the core's pc, loops and cycle count. s0 as d discards the value (R65). -/
def Obligations.AluRegisterRows : Prop :=
  ∀ r ∈ aluRows, ∀ (c : Core) (s : State) (d a b : SReg),
    IssuesFree s.mod c.val (.alu r.2.1 d a b) [d, a, b] [] →
    Gives (r.1 c) s (fun t => CoreStep s t c.val (advance (setS (cycled (coreAt s.mod c.val)) d
      (r.2.2 (rs (coreAt s.mod c.val) a) (rs (coreAt s.mod c.val) b)))))

/-- R103, R106, R109: the immediate forms, the constant loads, the bit counts and sel. -/
def Obligations.AluImmediateRows : Prop :=
  (∀ r ∈ aluIRows, ∀ (c : Core) (s : State) (d a : SReg) (imm : W32),
    IssuesFree s.mod c.val (.aluI r.2.1 d a imm) [d, a] [] →
    Gives (r.1 c) s (fun t => CoreStep s t c.val (advance (setS (cycled (coreAt s.mod c.val)) d
      (r.2.2 (rs (coreAt s.mod c.val) a) (imm.signExtend 64)))))) ∧
  (∀ r ∈ movRows, ∀ (c : Core) (s : State) (d : SReg) (imm : W32),
    IssuesFree s.mod c.val (.mov r.2.1 d imm) [d] [] →
    Gives (r.1 c) s (fun t => CoreStep s t c.val (advance (setS (cycled (coreAt s.mod c.val)) d
      (r.2.2 (rs (coreAt s.mod c.val) d) imm))))) ∧
  (∀ r ∈ countRows, ∀ (c : Core) (s : State) (d a : SReg),
    IssuesFree s.mod c.val (.count r.2.1 d a) [d, a] [] →
    Gives (r.1 c) s (fun t => CoreStep s t c.val (advance (setS (cycled (coreAt s.mod c.val)) d
      (BitVec.ofNat 64 (r.2.2 (rs (coreAt s.mod c.val) a))))))) ∧
  (∀ (c : Core) (s : State) (d : SReg) (q : PReg) (a b : SReg), IssuesFree s.mod c.val (.sel d q a b) [d, a, b] [] →
    Gives (.sel c) s (fun t => CoreStep s t c.val (advance (setS (cycled (coreAt s.mod c.val)) d
      (if rp (coreAt s.mod c.val) q then rs (coreAt s.mod c.val) a else rs (coreAt s.mod c.val) b)))))

/-- R108, R110: compares and predicate logic write one predicate; p0 as pd discards it (R65). -/
def Obligations.PredicateRows : Prop :=
  (∀ r ∈ cmpRows, ∀ (c : Core) (s : State) (pd : PReg) (a b : SReg), IssuesFree s.mod c.val (.cmp r.2.1 pd a b) [a, b] [] →
    Gives (r.1 c) s (fun t => CoreStep s t c.val (advance (setP (cycled (coreAt s.mod c.val)) pd
      (r.2.2 (rs (coreAt s.mod c.val) a) (rs (coreAt s.mod c.val) b)))))) ∧
  (∀ r ∈ cmpIRows, ∀ (c : Core) (s : State) (pd : PReg) (a : SReg) (imm : W32),
    IssuesFree s.mod c.val (.cmpI r.2.1 pd a imm) [a] [] →
    Gives (r.1 c) s (fun t => CoreStep s t c.val (advance (setP (cycled (coreAt s.mod c.val)) pd
      (r.2.2 (rs (coreAt s.mod c.val) a) (imm.signExtend 64)))))) ∧
  (∀ r ∈ predRows, ∀ (c : Core) (s : State) (pd pa pb : PReg), Issues s.mod c.val (.pred r.2.1 pd pa pb) →
    Gives (r.1 c) s (fun t => CoreStep s t c.val (advance (setP (cycled (coreAt s.mod c.val)) pd
      (r.2.2 (rp (coreAt s.mod c.val) pa) (rp (coreAt s.mod c.val) pb)))))) ∧
  (∀ (c : Core) (s : State) (pd pa : PReg), Issues s.mod c.val (.pnot pd pa) →
    Gives (.pnot c) s (fun t => CoreStep s t c.val (advance (setP (cycled (coreAt s.mod c.val)) pd
      (!rp (coreAt s.mod c.val) pa)))))

/-- R71 to R74, R111, R112: a load that meets no fault, no hazard and no uncorrectable error. From the local store the value goes to d at once; from the
cluster store the load waits to return with the value it read, and SCALAR_LOAD_RETURN writes it. s0 as d discards it. -/
def Obligations.ScalarLoads : Prop :=
  (∀ r ∈ loadRows, ∀ (c : Core) (s : State) (d : SReg) (base : Base) (off : W32),
    IssuesFree s.mod c.val (.ld r.2.1 r.2.2.1 d base off) (d :: baseRegs base) [] →
    memAddr (coreAt s.mod c.val) base off % r.2.2.2.1 = 0 →
    memBusy c.val (coreAt s.mod c.val) [(memAddr (coreAt s.mod c.val) base off, r.2.2.2.1)] [] = false →
    Sound s.mod c.val (coreAt s.mod c.val).stageMap [(memAddr (coreAt s.mod c.val) base off, r.2.2.2.1)] →
    (InLocal (memAddr (coreAt s.mod c.val) base off) r.2.2.2.1 →
      Gives (r.1 c) s (fun t => CoreStep s t c.val (advance (setS (cycled (coreAt s.mod c.val)) d (r.2.2.2.2
        (localBytes s.mod c.val (coreAt s.mod c.val).stageMap (memAddr (coreAt s.mod c.val) base off) r.2.2.2.1)))))) ∧
    (InCluster s.mod c.val (memAddr (coreAt s.mod c.val) base off) r.2.2.2.1 → (coreAt s.mod c.val).loads.length < 8 →
      Gives (r.1 c) s (fun t => CoreStep s t c.val (advance { cycled (coreAt s.mod c.val) with
        loads := (coreAt s.mod c.val).loads ++ [⟨(coreAt s.mod c.val).nIssued, d, r.2.2.2.2
          (clusterBytes s.mod c.val (memAddr (coreAt s.mod c.val) base off) r.2.2.2.1),
          (memAddr (coreAt s.mod c.val) base off - coreCs) / 64 % 16⟩] })))) ∧
  (∀ (c : Core) (s : State) (l : LoadOp) (rest : List LoadOp), (coreAt s.mod c.val).loads = l :: rest →
    clRolling s.mod (clusterOf c.val) = true →
    Gives (.scalarLoadReturn c) s (fun t => CoreSet s t c.val (setS { coreAt s.mod c.val with loads := rest } l.d l.v)))

/-- R71 to R74, R111, R436: a store that meets no fault and no hazard writes the low bytes of its register, little-endian, and no other
byte of any memory; the core's registers are unchanged. -/
def Obligations.ScalarStores : Prop :=
  ∀ r ∈ storeRows, ∀ (c : Core) (s : State) (d : SReg) (base : Base) (off : W32),
    IssuesFree s.mod c.val (.st r.2.1 d base off) (d :: baseRegs base) [] →
    memAddr (coreAt s.mod c.val) base off % r.2.2 = 0 →
    memBusy c.val (coreAt s.mod c.val) [] [(memAddr (coreAt s.mod c.val) base off, r.2.2)] = false →
    (r.2.2 = 8 ∨ Sound s.mod c.val (coreAt s.mod c.val).stageMap [(memAddr (coreAt s.mod c.val) base off, r.2.2)] ∨
      InCluster s.mod c.val (memAddr (coreAt s.mod c.val) base off) r.2.2) →
    (InLocal (memAddr (coreAt s.mod c.val) base off) r.2.2 →
      Gives (r.1 c) s (fun t => CoreMemStep s t c.val (advance (cycled (coreAt s.mod c.val))) ∧
        LocalWrite s.mod t.mod c.val (coreAt s.mod c.val).stageMap (memAddr (coreAt s.mod c.val) base off)
          (leBytes r.2.2 (rs (coreAt s.mod c.val) d).toNat))) ∧
    (InCluster s.mod c.val (memAddr (coreAt s.mod c.val) base off) r.2.2 →
      Gives (r.1 c) s (fun t => CoreMemStep s t c.val (advance (cycled (coreAt s.mod c.val))) ∧
        ClusterWrite s.mod t.mod c.val (memAddr (coreAt s.mod c.val) base off)
          (leBytes r.2.2 (rs (coreAt s.mod c.val) d).toNat)))

/-- R67, R113: mfsr reads every special register of Table 3.3, the loop registers from the active levels; mtsr writes the
writable ones and leaves the read-only ones. -/
def Obligations.SpecialRegisters : Prop :=
  (∀ (c : Core) (s : State) (r : SReg) (num : Fin 4096) (v : Nat), IssuesFree s.mod c.val (.mfsr r num) [r] [] →
    (num.val, v) ∈ specialValues c.val (cycled (coreAt s.mod c.val)) →
    Gives (.mfsr c) s (fun t => CoreStep s t c.val (advance (setS (cycled (coreAt s.mod c.val)) r (BitVec.ofNat 64 v))))) ∧
  (∀ (c : Core) (s : State) (r : SReg) (num : Fin 4096) (l : Nat), IssuesFree s.mod c.val (.mfsr r num) [r] [] → l < 4 →
    (num.val = 0x040 + l → Gives (.mfsr c) s (fun t => CoreStep s t c.val (advance (setS (cycled (coreAt s.mod c.val)) r
      (BitVec.ofNat 64 (((coreAt s.mod c.val).loops.reverse[l]?.map (fun x => x.cnt.toNat)).getD 0)))))) ∧
    (num.val = 0x044 + l → Gives (.mfsr c) s (fun t => CoreStep s t c.val (advance (setS (cycled (coreAt s.mod c.val)) r
      (BitVec.ofNat 64 (((coreAt s.mod c.val).loops.reverse[l]?.map (fun x => x.ext.toNat)).getD 0))))))) ∧
  (∀ (c : Core) (s : State) (r : SReg) (num : Fin 4096) (x : CoreSt), IssuesFree s.mod c.val (.mtsr num r) [r] [] →
    (num.val, x) ∈ specialWrites (cycled (coreAt s.mod c.val)) (rs (coreAt s.mod c.val) r) →
    Gives (.mtsr c) s (fun t => CoreStep s t c.val (advance x))) ∧
  (∀ (c : Core) (s : State) (r : SReg) (num : Fin 4096), IssuesFree s.mod c.val (.mtsr num r) [r] [] →
    specialReadOnly num.val → Gives (.mtsr c) s (fun t => CoreStep s t c.val (advance (cycled (coreAt s.mod c.val)))))

/-- R64, R72, R104, R115, R116, R118: a move instruction that meets no fault and no hazard enters the move queue with the
addresses, the stage map and, for vst, the register it read at issue; a copy or push of length 0 has no effect. A push leaves
every byte of memory as it is and reaches its target's cluster as a wake. -/
def Obligations.MovesEnterTheQueue : Prop :=
  (∀ (c : Core) (s : State) (dst src : Base) (n : SReg),
    IssuesFree s.mod c.val (.cp dst src n) (n :: baseRegs dst ++ baseRegs src) [] →
    Aligned64 [(baseAddr (coreAt s.mod c.val) dst).toNat, (baseAddr (coreAt s.mod c.val) src).toNat,
      (rs32 (coreAt s.mod c.val) n).toNat] →
    (rs32 (coreAt s.mod c.val) n = 0 → Gives (.cp c) s (fun t => CoreStep s t c.val (advance (cycled (coreAt s.mod c.val))))) ∧
    (∀ q, q = moveEntry (coreAt s.mod c.val) .copy (baseAddr (coreAt s.mod c.val) src) (baseAddr (coreAt s.mod c.val) dst)
        (rs32 (coreAt s.mod c.val) n) → 0 < q.len.toNat → InStore s.mod c.val q.src.toNat q.len.toNat →
      InStore s.mod c.val q.dst.toNat q.len.toNat → MoveReady s.mod c.val q →
      Gives (.cp c) s (fun t => CoreStep s t c.val
        (advance { cycled (coreAt s.mod c.val) with mq := (coreAt s.mod c.val).mq ++ [q] })))) ∧
  (∀ (c : Core) (s : State) (d : VReg) (base : Base) (off : W32), IssuesFree s.mod c.val (.vld d base off) (baseRegs base) [d] →
    ∀ q, q = moveEntry (coreAt s.mod c.val) (.vld d) (baseAddr (coreAt s.mod c.val) base + off) 0 128 →
    Aligned64 [q.src.toNat] → InStore s.mod c.val q.src.toNat 128 → MoveReady s.mod c.val q →
    Gives (.vld c) s (fun t => CoreStep s t c.val
      (advance { cycled (coreAt s.mod c.val) with mq := (coreAt s.mod c.val).mq ++ [q] }))) ∧
  (∀ (c : Core) (s : State) (d : VReg) (base : Base) (off : W32), IssuesFree s.mod c.val (.vst d base off) (baseRegs base) [d] →
    ∀ q, q = moveEntry (coreAt s.mod c.val) (.vst (rv (coreAt s.mod c.val) d)) 0 (baseAddr (coreAt s.mod c.val) base + off) 128 →
    Aligned64 [q.dst.toNat] → InStore s.mod c.val q.dst.toNat 128 → MoveReady s.mod c.val q →
    Gives (.vst c) s (fun t => CoreStep s t c.val
      (advance { cycled (coreAt s.mod c.val) with mq := (coreAt s.mod c.val).mq ++ [q] }))) ∧
  (∀ (c : Core) (s : State) (d : TReg) (base : Base) (off : W32), IssuesFree s.mod c.val (.tld d base off) (baseRegs base) [] →
    ∀ q, q = moveEntry (coreAt s.mod c.val) (.tld d) (baseAddr (coreAt s.mod c.val) base + off) 0 1024 →
    Aligned64 [q.src.toNat] → InLocal q.src.toNat 1024 → MoveReady s.mod c.val q →
    accWriteBusy (coreAt s.mod c.val) false [d.val] = false →
    Gives (.tld c) s (fun t => CoreStep s t c.val
      (advance { cycled (coreAt s.mod c.val) with mq := (coreAt s.mod c.val).mq ++ [q] }))) ∧
  (∀ (c : Core) (s : State) (d : TReg) (base : Base) (off : W32), IssuesFree s.mod c.val (.tst d base off) (baseRegs base) [] →
    ∀ q, q = moveEntry (coreAt s.mod c.val) (.tst d) 0 (baseAddr (coreAt s.mod c.val) base + off) 1024 →
    Aligned64 [q.dst.toNat] → InLocal q.dst.toNat 1024 → MoveReady s.mod c.val q →
    accReadBusy (coreAt s.mod c.val) [d.val] = false →
    Gives (.tst c) s (fun t => CoreStep s t c.val
      (advance { cycled (coreAt s.mod c.val) with mq := (coreAt s.mod c.val).mq ++ [q] }))) ∧
  (∀ (c : Core) (s : State) (sel o : SReg) (src : Base) (n : SReg) (r pos : Nat),
    IssuesFree s.mod c.val (.push sel o src n) (n :: o :: baseRegs src) [] →
    Aligned64 [(baseAddr (coreAt s.mod c.val) src).toNat, (rs32 (coreAt s.mod c.val) n).toNat,
      (rs32 (coreAt s.mod c.val) o).toNat] →
    pushTarget c.val sel.val = some (r, pos) → samePart s.mod c.val r = true →
    (rs32 (coreAt s.mod c.val) n = 0 → Gives (.push c) s (fun t => CoreStep s t c.val (advance (cycled (coreAt s.mod c.val))))) ∧
    (∀ q, q = moveEntry (coreAt s.mod c.val) (.push sel (rs32 (coreAt s.mod c.val) o)) (baseAddr (coreAt s.mod c.val) src) 0
        (rs32 (coreAt s.mod c.val) n) → 0 < q.len.toNat → InStore s.mod c.val q.src.toNat q.len.toNat →
      MoveReady s.mod c.val q →
      Gives (.push c) s (fun t =>
        coreAt t.mod c.val = advance { cycled (coreAt s.mod c.val) with mq := (coreAt s.mod c.val).mq ++ [q] } ∧
        (∀ k, k ≠ c.val → coreAt t.mod k = coreAt s.mod k) ∧
        t.mod.mem = s.mod.mem ∧ t.mod.lmem = s.mod.lmem ∧ t.mod.imem = s.mod.imem ∧
        (∀ k, k ≠ clusterOf r → clAt t.mod k = clAt s.mod k ∧ rd t.mod (rGafClStat k) = rd s.mod (rGafClStat k)))))

/-- R73, R90, R115 to R119: the entry at the head of the move queue does its work when it completes, and leaves the queue. -/
def Obligations.MoveCompletes : Prop :=
  ∀ (c : Core) (s : State) (q : MoveOp) (rest : List MoveOp), NextMove s.mod c.val q rest →
    (q.kind = .copy → InStore s.mod c.val q.src.toNat q.len.toNat → InStore s.mod c.val q.dst.toNat q.len.toNat →
      q.len.toNat % 64 = 0 →
      (q.src.toNat + q.len.toNat ≤ q.dst.toNat ∨ q.dst.toNat + q.len.toNat ≤ q.src.toNat ∨ q.len.toNat = 64) →
      Gives (.moveComplete c) s (fun t => CoreMemStep s t c.val { coreAt s.mod c.val with mq := rest } ∧
        StoreWrite s.mod t.mod c.val q.map q.dst.toNat (storeBytes s.mod c.val q.map q.src.toNat q.len.toNat))) ∧
    (q.kind = .copy → Gives (.moveComplete c) s (fun t =>
      coreAt t.mod c.val = { coreAt s.mod c.val with mq := rest } ∧
      t.mod = (List.range (q.len.toNat / 64)).foldl (fun m i => coreWrite m c.val q.map (q.dst.toNat + 64 * i)
        (coreRead m c.val q.map (q.src.toNat + 64 * i) 64))
        (setCore (bumpFree s.mod) c.val { coreAt s.mod c.val with mq := rest }))) ∧
    (∀ d, q.kind = .vld d → InStore s.mod c.val q.src.toNat 128 →
      Gives (.moveComplete c) s (fun t => CoreStep s t c.val
        (setLanes { coreAt s.mod c.val with mq := rest } d 0 (storeWords s.mod c.val q.map q.src.toNat 32)))) ∧
    (∀ data, q.kind = .vst data → data.length = 32 → InStore s.mod c.val q.dst.toNat 128 →
      Gives (.moveComplete c) s (fun t => CoreMemStep s t c.val { coreAt s.mod c.val with mq := rest } ∧
        StoreWrite s.mod t.mod c.val q.map q.dst.toNat (data.flatMap (fun w => leBytes 4 w.toNat)))) ∧
    (∀ d, q.kind = .tld d → InLocal q.src.toNat 1024 → earlierUse (coreAt s.mod c.val) q.seq [d.val] = false →
      Gives (.moveComplete c) s (fun t => CoreStep s t c.val
        (setTs { coreAt s.mod c.val with mq := rest } d.val 0 (storeWords s.mod c.val q.map q.src.toNat 256)))) ∧
    (∀ d, q.kind = .tst d → InLocal q.dst.toNat 1024 →
      Gives (.moveComplete c) s (fun t => CoreMemStep s t c.val { coreAt s.mod c.val with mq := rest } ∧
        StoreWrite s.mod t.mod c.val q.map q.dst.toNat ((List.range 256).flatMap
          (fun e => leBytes 4 (rt (coreAt s.mod c.val) d.val (e / 16) (e % 16)).toNat)))) ∧
    (∀ sel off r pos, q.kind = .push sel off → pushTarget c.val sel.val = some (r, pos) → r ≠ c.val →
      InStore s.mod c.val q.src.toNat q.len.toNat → q.len.toNat % 64 = 0 →
      Gives (.moveComplete c) s (fun t =>
        coreAt t.mod c.val = { coreAt s.mod c.val with mq := rest } ∧
        coreAt t.mod r = { coreAt s.mod r with
          haloIn := (coreAt s.mod r).haloIn ++ (List.range (q.len.toNat / 64)).map (fun i => (⟨c.val, pos, off + BitVec.ofNat 32 (64 * i),
            storeBytes s.mod c.val q.map (q.src.toNat + 64 * i) 64⟩ : HaloUnit)) } ∧
        (∀ k, k ≠ c.val → k ≠ r → coreAt t.mod k = coreAt s.mod k) ∧
        t.mod = { s.mod with cores := t.mod.cores, free := s.mod.free + 1 }))

/-- R75, R116, R120: the register moves of the move unit write their destination and nothing else; swap exchanges the stages when no
issued instruction has yet to access stage A; mfence passes when what it waits for is done. -/
def Obligations.LaneMovesSwapAndFence : Prop :=
  (∀ (c : Core) (s : State) (d : SReg) (a : VReg) (lane : SReg), IssuesFree s.mod c.val (.vext d a lane) [d] [a] →
    Gives (.vext c) s (fun t => CoreStep s t c.val (advance (setS (cycled (coreAt s.mod c.val)) d
      ((vLane (coreAt s.mod c.val) a lane.val).zeroExtend 64))))) ∧
  (∀ (c : Core) (s : State) (d : VReg) (a lane : SReg), IssuesFree s.mod c.val (.vins d a lane) [a] [d] →
    Gives (.vins c) s (fun t => CoreStep s t c.val (advance (setLane (cycled (coreAt s.mod c.val)) d lane.val
      ((rs (coreAt s.mod c.val) a).truncate 32))))) ∧
  (∀ (c : Core) (s : State) (d : VReg) (a : SReg), IssuesFree s.mod c.val (.vbcast d a) [a] [d] →
    Gives (.vbcast c) s (fun t => CoreStep s t c.val (advance (setLanes (cycled (coreAt s.mod c.val)) d 0
      (List.replicate 32 ((rs (coreAt s.mod c.val) a).truncate 32)))))) ∧
  (∀ (c : Core) (s : State), Issues s.mod c.val .swap → stageABusy c.val (coreAt s.mod c.val) = false →
    Gives (.swap c) s (fun t => CoreStep s t c.val
      (advance { cycled (coreAt s.mod c.val) with stageMap := !(coreAt s.mod c.val).stageMap }))) ∧
  (∀ (c : Core) (s : State), Issues s.mod c.val .mfence →
    (∀ q ∈ (coreAt s.mod c.val).mq, (∃ d, q.kind = .vld d) ∨ (∃ d, q.kind = .tld d)) →
    (∀ e ∈ s.mod.cores, ∀ u ∈ e.2.haloIn, u.sender ≠ c.val) →
    Gives (.mfence c) s (fun t => CoreStep s t c.val (advance (cycled (coreAt s.mod c.val)))))

/-- R90, R91: the next unit of a receiver, sent from within its cluster, lands in the receive window and counts in HALO_CREDIT, or
is discarded and sets halo_drop, changing no byte. -/
def Obligations.HaloUnitLands : Prop :=
  ∀ (c : Core) (s : State) (pos : Nat) (u : HaloUnit), clRolling s.mod (clusterOf c.val) = true →
    rrPick 20 (coreAt s.mod c.val).haloPos (unitReady s.mod (coreAt s.mod c.val)) = some pos → pos < 16 →
    (coreAt s.mod c.val).haloIn.find? (fun u => u.pos == pos) = some u → u.data.length = 64 →
    (u.off.toNat < (coreAt s.mod c.val).haloSize.toNat →
      (coreAt s.mod c.val).haloBase.toNat / 64 * 64 + u.off.toNat + 64 ≤ 0x20000 →
      (coreAt s.mod c.val).haloCredit ≠ BitVec.allOnes 32 →
      (∀ ch n, (coreAt s.mod c.val).wait = some (.credit ch n) → ch ≠ 16 ∧ credit (coreAt s.mod c.val) ch.val < n.toNat) →
      Gives (.haloUnitLand c) s (fun t => coreAt t.mod c.val = { coreAt s.mod c.val with
          haloIn := (coreAt s.mod c.val).haloIn.erase u, haloPos := (pos + 1) % 20,
          haloCredit := (coreAt s.mod c.val).haloCredit + 1 } ∧
        (∀ k, k ≠ c.val → coreAt t.mod k = coreAt s.mod k) ∧
        t.mod = { s.mod with cores := t.mod.cores, lmem := t.mod.lmem, ecc := t.mod.ecc } ∧
        LocalWrite s.mod t.mod c.val (coreAt s.mod c.val).stageMap
          ((coreAt s.mod c.val).haloBase.toNat / 64 * 64 + u.off.toNat) u.data)) ∧
    ((coreAt s.mod c.val).haloSize.toNat ≤ u.off.toNat ∨
        0x20000 < (coreAt s.mod c.val).haloBase.toNat / 64 * 64 + u.off.toNat + 64 →
      Gives (.haloUnitLand c) s (fun t => CoreSet s t c.val { coreAt s.mod c.val with
        haloIn := (coreAt s.mod c.val).haloIn.erase u, haloPos := (pos + 1) % 20, haloDrop := true }))

/-- R122 to R124: clap, clap.a and clap.w. After the fence, an arrival of a core with none pending on the clapper is sent with its
count, limited to the scope's range; clap then waits for it. clap.w waits for a pending arrival and passes with none. A core
that has one pending waits to arrive again. A partition clapper of a core of no partition does not exist, and the instruction
passes (the model's reading, log 27). -/
def Obligations.ClapperInstructions : Prop :=
  (∀ (c : Core) (s : State) (scope : Fin 3) (id : VReg) (n : SReg) (key : Nat),
    clapKey s.mod c.val scope.val id.val = some key → pendingArrival s.mod c.val key = none →
    (fenceMet s.mod c.val (coreAt s.mod c.val) = true →
      IssuesFree s.mod c.val (.clap .both scope id n) [n] [] →
      Gives (.clap c) s (fun t =>
        coreAt t.mod c.val = { cycled (coreAt s.mod c.val) with state := .waiting, wait := some (.clap key) } ∧
        (∀ k, k ≠ c.val → coreAt t.mod k = coreAt s.mod k) ∧
        t.mod = { s.mod with cores := t.mod.cores, free := s.mod.free + 1, arrivals := s.mod.arrivals ++
          [⟨c.val, key, some (BitVec.ofNat 32 (max 1 (min (rs32 (coreAt s.mod c.val) n).toNat (clapMax s.mod key)))), false⟩] })) ∧
    (fenceMet s.mod c.val (coreAt s.mod c.val) = true →
      IssuesFree s.mod c.val (.clap .arrive scope id n) [n] [] →
      Gives (.clapA c) s (fun t =>
        coreAt t.mod c.val = advance (cycled (coreAt s.mod c.val)) ∧
        (∀ k, k ≠ c.val → coreAt t.mod k = coreAt s.mod k) ∧
        t.mod = { s.mod with cores := t.mod.cores, free := s.mod.free + 1, arrivals := s.mod.arrivals ++
          [⟨c.val, key, some (BitVec.ofNat 32 (max 1 (min (rs32 (coreAt s.mod c.val) n).toNat (clapMax s.mod key)))), false⟩] })) ∧
    (IssuesFree s.mod c.val (.clap .wait scope id n) [n] [] →
      Gives (.clapW c) s (fun t => CoreStep s t c.val (advance (cycled (coreAt s.mod c.val)))))) ∧
  (∀ (c : Core) (s : State) (scope : Fin 3) (id : VReg) (n : SReg) (key : Nat) (a : Arrival),
    clapKey s.mod c.val scope.val id.val = some key → pendingArrival s.mod c.val key = some a →
    (fenceMet s.mod c.val (coreAt s.mod c.val) = true →
      (IssuesFree s.mod c.val (.clap .both scope id n) [n] [] → Gives (.clap c) s (fun t => CoreStep s t c.val
        { cycled (coreAt s.mod c.val) with state := .waiting, wait := some (.clapThen key) })) ∧
      (IssuesFree s.mod c.val (.clap .arrive scope id n) [n] [] → Gives (.clapA c) s (fun t => CoreStep s t c.val
        { cycled (coreAt s.mod c.val) with state := .waiting, wait := some (.clapThen key) }))) ∧
    (IssuesFree s.mod c.val (.clap .wait scope id n) [n] [] → Gives (.clapW c) s (fun t => CoreStep s t c.val
      { cycled (coreAt s.mod c.val) with state := .waiting, wait := some (.clap key) }))) ∧
  (∀ r ∈ [(Instr.clap, ClapOp.both), (.clapA, .arrive), (.clapW, .wait)], ∀ (c : Core) (s : State) (id : VReg) (n : SReg),
    IssuesFree s.mod c.val (.clap r.2 2 id n) [n] [] → partOfCluster s.mod (clusterOf c.val) = none →
    Gives (r.1 c) s (fun t => CoreStep s t c.val (advance (cycled (coreAt s.mod c.val)))))

/-- R123: an arrival that reaches its clapper is counted: the first of a generation sets the count, and the arrival that reaches it
starts the next generation and releases every counted arrival on the clapper. A count other than the generation's is
counted all the same, with a warning. -/
def Obligations.ClapperArrivals : Prop :=
  ∀ (c : Core) (s : State) (scope : Scope) (id : Fin 16) (key : Nat) (n : W32),
    clapKey s.mod c.val (scopeCode scope) id.val = some key →
    pendingArrival s.mod c.val key = some ⟨c.val, key, some n, false⟩ →
    ∀ e, e = (if (clapAt s.mod key).expect = 0 then n else (clapAt s.mod key).expect) →
    Gives (.clapArrival c scope id) s (fun t =>
      clapAt t.mod key = (if (clapAt s.mod key).arrived + 1 = e then ⟨!(clapAt s.mod key).gen, 0, 0⟩
        else ⟨(clapAt s.mod key).gen, (clapAt s.mod key).arrived + 1, e⟩) ∧
      (∀ k, k ≠ key → clapAt t.mod k = clapAt s.mod k) ∧
      t.mod.arrivals = s.mod.arrivals.map (fun a =>
        if a.key = key ∧ (clapAt s.mod key).arrived + 1 = e ∧ (a.core = c.val ∨ a.count = none) then
          { a with count := none, released := true }
        else if a.core = c.val ∧ a.key = key then { a with count := none } else a) ∧
      ((clapAt s.mod key).expect = 0 ∨ (clapAt s.mod key).expect = n →
        t = { s with mod := { s.mod with claps := t.mod.claps, arrivals := t.mod.arrivals } }))

/-- R124, R412, R419: a release that reaches a core ends its pending arrival. A core that waits for it goes on with the next
instruction, at once while its cluster is at Rolling and otherwise when the cluster reaches it; a core that waits to arrive
again starts its instruction again. -/
def Obligations.ClapperReleases : Prop :=
  ∀ (c : Core) (s : State) (scope : Scope) (id : Fin 16) (key : Nat) (a : Arrival),
    clapKey s.mod c.val (scopeCode scope) id.val = some key → pendingArrival s.mod c.val key = some a → a.released = true →
    ((coreAt s.mod c.val).wait = none → Gives (.clapReleaseReach c scope id) s (fun t =>
      t = { s with mod := { s.mod with arrivals := s.mod.arrivals.erase a } })) ∧
    ((coreAt s.mod c.val).wait = some (.clap key) → clRolling s.mod (clusterOf c.val) = true →
      Gives (.clapReleaseReach c scope id) s (fun t =>
        coreAt t.mod c.val = advance { coreAt s.mod c.val with state := .running, wait := none, wakeDone := false } ∧
        (∀ k, k ≠ c.val → coreAt t.mod k = coreAt s.mod k) ∧ t.mod.arrivals = s.mod.arrivals.erase a ∧
        clRolling t.mod (clusterOf c.val) = true)) ∧
    ((coreAt s.mod c.val).wait = some (.clap key) → clRolling s.mod (clusterOf c.val) = false →
      Gives (.clapReleaseReach c scope id) s (fun t =>
        coreAt t.mod c.val = { coreAt s.mod c.val with wakeDone := true } ∧
        (∀ k, k ≠ c.val → coreAt t.mod k = coreAt s.mod k) ∧ t.mod.arrivals = s.mod.arrivals.erase a)) ∧
    ((coreAt s.mod c.val).wait = some (.clapThen key) →
      Gives (.clapReleaseReach c scope id) s (fun t =>
        coreAt t.mod c.val = { coreAt s.mod c.val with state := .running, wait := none } ∧
        (∀ k, k ≠ c.val → coreAt t.mod k = coreAt s.mod k) ∧ t.mod.arrivals = s.mod.arrivals.erase a))

/-- R126 to R128: ev.set and ev.clr after the fence, ev.wait and ev.test. A set marks its flag and every core that waits on it, and
changes no other flag; a core's set or clear of a host event has no effect. A flag change that reaches a waiting core ends
its wait. -/
def Obligations.Events : Prop :=
  (∀ (c : Core) (s : State) (sc : EvScope) (ev : Fin 64) (key : Nat), Issues s.mod c.val (.ev .set sc ev) →
    fenceMet s.mod c.val (coreAt s.mod c.val) = true → evKey s.mod c.val sc = some key → (sc = .part → ev.val < 48) →
    Gives (.evSet c) s (fun t => evFlag t.mod key ev.val = true ∧
      (∀ k e, e < 64 → (k ≠ key ∨ e ≠ ev.val) → evFlag t.mod k e = evFlag s.mod k e) ∧
      coreAt t.mod c.val = advance (flagMark s.mod key ev.val c.val (cycled (coreAt s.mod c.val))) ∧
      (∀ k, k ≠ c.val → coreAt t.mod k = flagMark s.mod key ev.val k (coreAt s.mod k)) ∧
      (sc = .cluster → t.mod = { s.mod with cores := t.mod.cores, evFlags := t.mod.evFlags, free := s.mod.free + 1 }) ∧
      t.mod.mem = s.mod.mem ∧ t.mod.lmem = s.mod.lmem)) ∧
  (∀ (c : Core) (s : State) (sc : EvScope) (ev : Fin 64) (key : Nat), Issues s.mod c.val (.ev .clr sc ev) →
    fenceMet s.mod c.val (coreAt s.mod c.val) = true → evKey s.mod c.val sc = some key → (sc = .part → ev.val < 48) →
    Gives (.evClr c) s (fun t => evFlag t.mod key ev.val = false ∧
      (∀ k e, e < 64 → (k ≠ key ∨ e ≠ ev.val) → evFlag t.mod k e = evFlag s.mod k e) ∧
      coreAt t.mod c.val = advance (cycled (coreAt s.mod c.val)) ∧
      (∀ k, k ≠ c.val → coreAt t.mod k = coreAt s.mod k) ∧
      t.mod = { s.mod with cores := t.mod.cores, evFlags := t.mod.evFlags, free := s.mod.free + 1 })) ∧
  (∀ r ∈ [(Instr.evSet, EvOp.set), (.evClr, .clr)], ∀ (c : Core) (s : State) (ev : Fin 64), Issues s.mod c.val (.ev r.2 .part ev) →
    fenceMet s.mod c.val (coreAt s.mod c.val) = true → 48 ≤ ev.val →
    Gives (r.1 c) s (fun t => CoreStep s t c.val (advance (cycled (coreAt s.mod c.val))))) ∧
  (∀ (c : Core) (s : State) (sc : EvScope) (ev : Fin 64) (key : Nat), evKey s.mod c.val sc = some key →
    (Issues s.mod c.val (.ev .wait sc ev) → Gives (.evWait c) s (fun t => CoreStep s t c.val
      (if evFlag s.mod key ev.val then advance (cycled (coreAt s.mod c.val))
       else { cycled (coreAt s.mod c.val) with state := .waiting, wait := some (.event sc ev false) }))) ∧
    (∀ pd, Issues s.mod c.val (.evTest pd sc ev) → Gives (.evTest c) s (fun t => CoreStep s t c.val
      (advance (setP (cycled (coreAt s.mod c.val)) pd (evFlag s.mod key ev.val)))))) ∧
  (∀ (c : Core) (s : State) (sc : EvScope) (ev : Fin 64), (coreAt s.mod c.val).wait = some (.event sc ev true) →
    (coreAt s.mod c.val).wakeDone = false → clRolling s.mod (clusterOf c.val) = true →
    Gives (.evFlagReach c) s (fun t =>
      coreAt t.mod c.val = advance { coreAt s.mod c.val with state := .running, wait := none, wakeDone := false } ∧
      (∀ k, k ≠ c.val → coreAt t.mod k = coreAt s.mod k) ∧ t.mod.evFlags = s.mod.evFlags))

/-- R130 to R132: a credit wait whose counter is at least its count subtracts it and goes on, one of count 0 changes nothing, and
any other leaves the core Waiting; a verdict wait takes the verdict the module holds for the core's slate or leaves the core
Waiting. -/
def Obligations.CreditAndVerdictWaits : Prop :=
  (∀ (c : Core) (s : State) (o : Octix) (i : Core → Instr) (ch n : SReg) (imm : W16) (cnt : Nat),
    (i = .waitCr ∧ o = .waitCr ch imm ∧ cnt = imm.toNat ∧ Issues s.mod c.val o) ∨
    (i = .waitCrr ∧ o = .waitCrr ch n ∧ cnt = (rs32 (coreAt s.mod c.val) n).toNat ∧ IssuesFree s.mod c.val o [n] []) →
    (cnt = 0 → Gives (i c) s (fun t => CoreStep s t c.val (advance (cycled (coreAt s.mod c.val))))) ∧
    (0 < cnt → cnt ≤ credit (coreAt s.mod c.val) ch.val → Gives (i c) s (fun t => CoreStep s t c.val
      (advance (setCredit (cycled (coreAt s.mod c.val)) ch.val (credit (coreAt s.mod c.val) ch.val - cnt))))) ∧
    (credit (coreAt s.mod c.val) ch.val < cnt → Gives (i c) s (fun t => CoreStep s t c.val
      { cycled (coreAt s.mod c.val) with state := .waiting, wait := some (.credit ch (BitVec.ofNat 32 cnt)) }))) ∧
  (∀ (c : Core) (s : State) (pd : PReg) (p : Nat), Issues s.mod c.val (.waitVd pd) →
    partOfCluster s.mod (clusterOf c.val) = some p →
    (∀ fin, verdictFor s.mod p (coreAt s.mod c.val).slate = some fin →
      Gives (.waitVd c) s (fun t => CoreStep s t c.val (advance (setP (cycled (coreAt s.mod c.val)) pd fin)))) ∧
    (verdictFor s.mod p (coreAt s.mod c.val).slate = none →
      Gives (.waitVd c) s (fun t => CoreStep s t c.val
        { cycled (coreAt s.mod c.val) with state := .waiting, wait := some (.verdict pd) })))

/-- R66, R86, R133 to R135: the control instructions. -/
def Obligations.ControlInstructions : Prop :=
  (∀ (c : Core) (s : State), Issues s.mod c.val .nop →
    Gives (.nop c) s (fun t => CoreStep s t c.val (advance (cycled (coreAt s.mod c.val))))) ∧
  (∀ (c : Core) (s : State) (tgt : Fin 2048), Issues s.mod c.val (.br tgt) →
    Gives (.br c) s (fun t => CoreStep s t c.val (branched (cycled (coreAt s.mod c.val)) tgt.val))) ∧
  (∀ (c : Core) (s : State) (r : SReg), IssuesFree s.mod c.val (.brr r) [r] [] →
    Gives (.brr c) s (fun t => CoreStep s t c.val
      (branched (cycled (coreAt s.mod c.val)) (bits (rs (coreAt s.mod c.val) r) 10 0)))) ∧
  (∀ (c : Core) (s : State) (r : SReg) (tgt : Fin 2048), IssuesFree s.mod c.val (.call r tgt) [r] [] →
    Gives (.call c) s (fun t => CoreStep s t c.val (branched
      (setS (cycled (coreAt s.mod c.val)) r (BitVec.ofNat 64 ((coreAt s.mod c.val).pc.toNat + 1))) tgt.val))) ∧
  (∀ (c : Core) (s : State) (e : SReg) (last : Fin 2048), IssuesFree s.mod c.val (.loop e last) [e] [] →
    (coreAt s.mod c.val).loops.length ≠ 4 → (coreAt s.mod c.val).pc.toNat < last.val →
    (∀ l ∈ (coreAt s.mod c.val).loops, last.val ≤ l.last) →
    (rs32 (coreAt s.mod c.val) e = 0 →
      Gives (.loop c) s (fun t => CoreStep s t c.val (skipped (cycled (coreAt s.mod c.val)) (last.val + 1)))) ∧
    (rs32 (coreAt s.mod c.val) e ≠ 0 →
      Gives (.loop c) s (fun t => CoreStep s t c.val (skipped { cycled (coreAt s.mod c.val) with
        loops := ⟨0, rs32 (coreAt s.mod c.val) e, (coreAt s.mod c.val).pc.toNat + 1, last.val⟩ :: (coreAt s.mod c.val).loops }
        ((coreAt s.mod c.val).pc.toNat + 1))))) ∧
  (∀ (c : Core) (s : State) (r : SReg), IssuesFree s.mod c.val (.halt r) [r] [] →
    Gives (.halt c) s (fun t => CoreStep s t c.val
      { cycled (coreAt s.mod c.val) with halting := some ((rs (coreAt s.mod c.val) r).truncate 16) })) ∧
  (∀ (c : Core) (s : State), Issues s.mod c.val .fclr → unitsIdle (coreAt s.mod c.val) = true →
    Gives (.fclr c) s (fun t => CoreStep s t c.val (advance { cycled (coreAt s.mod c.val) with nonfinite := false })))

/-- R81, R95, R98, R99, R134, R436: a halting core whose units, queues and pushes are done is Halted and holds its halt code, and
one with outstanding work stays as it is; an illegal word whose guard does not read 0 raises core fault 0x01 with the word as its
address; fetch beyond the instruction store raises 0x04. A word of a store gets an uncorrectable error. A fetch of one raises 0x09
with the word index, whatever the word holds; a load, a store of less than a word and a move raise it with the address where they
would read one of the local store; and the executing tensor or vector instruction that meets one raises it at that instruction's
word index. A faulted core's pc stays. (The model's own readings in it: logs 34 and 35.) -/
def Obligations.CoreHaltsAndFaults : Prop :=
  (∀ (c : Core) (s : State) (code : W16), (coreAt s.mod c.val).halting = some code →
    ((coreAt s.mod c.val).tq = [] → (coreAt s.mod c.val).vq = [] → (coreAt s.mod c.val).mq = [] →
      (coreAt s.mod c.val).loads = [] → (∀ e ∈ s.mod.cores, ∀ u ∈ e.2.haloIn, u.sender ≠ c.val) →
      Gives (.coreHalted c) s (fun t =>
        coreAt t.mod c.val = { coreAt s.mod c.val with state := .halted, haltCode := code, halting := none, wait := none } ∧
        (∀ k, k ≠ c.val → coreAt t.mod k = coreAt s.mod k) ∧ t.mod.imem = s.mod.imem ∧ t.mod.lmem = s.mod.lmem)) ∧
    ((coreAt s.mod c.val).tq ≠ [] ∨ (coreAt s.mod c.val).vq ≠ [] ∨ (coreAt s.mod c.val).mq ≠ [] ∨
      (coreAt s.mod c.val).loads ≠ [] → Gives (.coreHalted c) s (fun t => t = s))) ∧
  (∀ (c : Core) (s : State), (coreAt s.mod c.val).pc.toNat ≤ 2047 → mayIssue s.mod c.val = true →
    fetchBad s.mod c.val (coreAt s.mod c.val).pc.toNat = false → decodeOctix (fetchWord s.mod c.val (coreAt s.mod c.val).pc.toNat) = none →
    guardFails (coreAt s.mod c.val) (fetchWord s.mod c.val (coreAt s.mod c.val).pc.toNat) = false →
    Gives (.illegalWord c) s (fun t => Faulted s t c.val 0x01 (coreAt s.mod c.val).pc.toNat
      (fetchWord s.mod c.val (coreAt s.mod c.val).pc.toNat).toNat)) ∧
  (∀ (c : Core) (s : State), 2047 < (coreAt s.mod c.val).pc.toNat → mayIssue s.mod c.val = true →
    Gives (.fetchOverrun c) s (fun t => Faulted s t c.val 0x04 ((coreAt s.mod c.val).pc.toNat % 2048) 2048)) ∧
  (∀ (c : Core) (s : State) (vec : Bool) (addr : W32),
    (addr.toNat < 2048 → Gives (.lsEccFault c .instr addr) s (fun t => fetchBad t.mod c.val addr.toNat = true ∧
      t = { s with mod := { s.mod with ecc := t.mod.ecc } })) ∧
    (coreCs ≤ addr.toNat → addr.toNat < coreCsTop → Gives (.lsEccFault c .cluster addr) s (fun t =>
      coreBad t.mod c.val false addr.toNat = true ∧ t = { s with mod := { s.mod with ecc := t.mod.ecc } })) ∧
    (addr.toNat < lsTop → (vec = false → (coreAt s.mod c.val).tq = []) → (vec = true → (coreAt s.mod c.val).vq = []) →
      Gives (.lsEccFault c (.localStore vec) addr) s (fun t => coreBad t.mod c.val (coreAt s.mod c.val).stageMap addr.toNat = true ∧
        t = { s with mod := { s.mod with ecc := t.mod.ecc } }))) ∧
  (∀ (c : Core) (s : State) (i : Instr), (coreAt s.mod c.val).pc.toNat ≤ 2047 → mayIssue s.mod c.val = true →
    fetchBad s.mod c.val (coreAt s.mod c.val).pc.toNat = true →
    (i = .illegalWord c ∨ ∃ o r, decodeOctix (fetchWord s.mod c.val (coreAt s.mod c.val).pc.toNat) = some o ∧ rowOf o = some r ∧ i = r c) →
    Gives i s (fun t => Faulted s t c.val 0x09 (coreAt s.mod c.val).pc.toNat (coreAt s.mod c.val).pc.toNat)) ∧
  (∀ r ∈ loadRows, ∀ (c : Core) (s : State) (d : SReg) (base : Base) (off : W32) (a : Nat),
    IssuesFree s.mod c.val (.ld r.2.1 r.2.2.1 d base off) (d :: baseRegs base) [] → a = memAddr (coreAt s.mod c.val) base off →
    a % r.2.2.2.1 = 0 → InLocal a r.2.2.2.1 → memBusy c.val (coreAt s.mod c.val) [(a, r.2.2.2.1)] [] = false →
    coreBad s.mod c.val (coreAt s.mod c.val).stageMap a = true →
    Gives (r.1 c) s (fun t => Faulted s t c.val 0x09 (coreAt s.mod c.val).pc.toNat a)) ∧
  (∀ r ∈ storeRows, ∀ (c : Core) (s : State) (d : SReg) (base : Base) (off : W32) (a : Nat),
    IssuesFree s.mod c.val (.st r.2.1 d base off) (d :: baseRegs base) [] → a = memAddr (coreAt s.mod c.val) base off →
    a % r.2.2 = 0 → r.2.2 ≠ 8 → InLocal a r.2.2 → memBusy c.val (coreAt s.mod c.val) [] [(a, r.2.2)] = false →
    coreBad s.mod c.val (coreAt s.mod c.val).stageMap a = true →
    Gives (r.1 c) s (fun t => Faulted s t c.val 0x09 (coreAt s.mod c.val).pc.toNat a)) ∧
  (∀ (c : Core) (s : State) (dst src : Base) (n : SReg) (q : MoveOp) (a : Nat),
    IssuesFree s.mod c.val (.cp dst src n) (n :: baseRegs dst ++ baseRegs src) [] →
    q = moveEntry (coreAt s.mod c.val) .copy (baseAddr (coreAt s.mod c.val) src) (baseAddr (coreAt s.mod c.val) dst)
      (rs32 (coreAt s.mod c.val) n) → Aligned64 [q.dst.toNat, q.src.toNat, q.len.toNat] → 0 < q.len.toNat →
    InLocal q.src.toNat q.len.toNat → InStore s.mod c.val q.dst.toNat q.len.toNat → moveBusy c.val (coreAt s.mod c.val) q = false →
    (coreAt s.mod c.val).mq.length < 4 → badOf s.mod c.val q.map (localSources q) = some a →
    Gives (.cp c) s (fun t => Faulted s t c.val 0x09 (coreAt s.mod c.val).pc.toNat a)) ∧
  (∀ (c : Core) (s : State) (addr : W32) (q : TensorOp) (rest : List TensorOp), (coreAt s.mod c.val).tq = q :: rest →
    (coreAt s.mod c.val).state ≠ .faulted → clRolling s.mod (clusterOf c.val) = true → addr.toNat < lsTop →
    meetsWord c.val q.map (tensorReads q) (coreKey c.val q.map addr.toNat) = true → q.pc.toNat ≤ 2047 →
    Gives (.lsEccFault c (.localStore false) addr) s (fun t => Faulted s t c.val 0x09 q.pc.toNat addr.toNat)) ∧
  (∀ (c : Core) (s : State) (addr : W32) (q : VecOp) (rest : List VecOp), (coreAt s.mod c.val).vq = q :: rest →
    (coreAt s.mod c.val).state ≠ .faulted → clRolling s.mod (clusterOf c.val) = true → addr.toNat < lsTop →
    meetsWord c.val q.map (vecReads q) (coreKey c.val q.map addr.toNat) = true → q.pc.toNat ≤ 2047 →
    Gives (.lsEccFault c (.localStore true) addr) s (fun t => Faulted s t c.val 0x09 q.pc.toNat addr.toNat))

/-- R140: tsetm, tsetn and tsetk set TX_M, TX_N and TX_K to the value of a register limited to 16, 32 and 32; tseth sets TX_H to 16 or
32. -/
def Obligations.TensorSetUp : Prop :=
  (∀ (c : Core) (s : State) (a : SReg), IssuesFree s.mod c.val (.tset .m a) [a] [] → Gives (.tsetm c) s (fun t => CoreStep s t c.val
    (advance { cycled (coreAt s.mod c.val) with txM := min (rs (coreAt s.mod c.val) a).toNat 16 }))) ∧
  (∀ (c : Core) (s : State) (a : SReg), IssuesFree s.mod c.val (.tset .n a) [a] [] → Gives (.tsetn c) s (fun t => CoreStep s t c.val
    (advance { cycled (coreAt s.mod c.val) with txN := min (rs (coreAt s.mod c.val) a).toNat 32 }))) ∧
  (∀ (c : Core) (s : State) (a : SReg), IssuesFree s.mod c.val (.tset .k a) [a] [] → Gives (.tsetk c) s (fun t => CoreStep s t c.val
    (advance { cycled (coreAt s.mod c.val) with txK := min (rs (coreAt s.mod c.val) a).toNat 32 }))) ∧
  (∀ (c : Core) (s : State) (h : Bool), Issues s.mod c.val (.tseth h) → Gives (.tseth c) s (fun t => CoreStep s t c.val
    (advance { cycled (coreAt s.mod c.val) with txH := if h then 32 else 16 })))

/-- R64, R74, R140, R142 to R147: a tensor instruction that meets no fault and no hazard enters the tensor queue with the addresses,
the stage map and the set-up state of its issue, and for tcvt its base and stream. -/
def Obligations.TensorInstructionsEnter : Prop :=
  (∀ (c : Core) (s : State) (tr : TReg) (q : TensorOp), Issues s.mod c.val (.tzero tr) →
    q = tensorEntry (coreAt s.mod c.val) (.tzero tr) 0 0 0 0 0 0 → TensorReady c.val (coreAt s.mod c.val) q →
    Gives (.tzero c) s (fun t => CoreStep s t c.val
      (advance { cycled (coreAt s.mod c.val) with tq := (coreAt s.mod c.val).tq ++ [q] }))) ∧
  (∀ (c : Core) (s : State) (tr : TReg) (ag : Gen) (q : TensorOp), Issues s.mod c.val (.tbias tr ag) →
    q = tensorEntry (coreAt s.mod c.val) (.tbias tr ag) (genAddr (coreAt s.mod c.val) ag) 0 0 0 0 0 →
    TensorReady c.val (coreAt s.mod c.val) q →
    Gives (.tbias c) s (fun t => CoreStep s t c.val
      (advance { cycled (coreAt s.mod c.val) with tq := (coreAt s.mod c.val).tq ++ [q] }))) ∧
  (∀ (c : Core) (s : State) (f : MmaFields) (q : TensorOp), Issues s.mod c.val (.tmma f) →
    (f.ro = 0 ∨ (coreAt s.mod c.val).txH ≠ 16) →
    q = tensorEntry (coreAt s.mod c.val) (.tmma f) (genAddr (coreAt s.mod c.val) f.aga) (genAddr (coreAt s.mod c.val) f.agw)
      (if f.sa then genAddr (coreAt s.mod c.val) f.ags else 0) (if f.sw then genAddr (coreAt s.mod c.val) f.agv else 0) 0 0 →
    TensorReady c.val (coreAt s.mod c.val) q →
    Gives (.tmma c) s (fun t => CoreStep s t c.val
      (advance { cycled (coreAt s.mod c.val) with tq := (coreAt s.mod c.val).tq ++ [q] }))) ∧
  (∀ (c : Core) (s : State) (f : CvtFields) (q : TensorOp), IssuesFree s.mod c.val (.tcvt f) [f.rb, f.rs] [] →
    q = tensorEntry (coreAt s.mod c.val) (.tcvt f) (genAddr (coreAt s.mod c.val) f.agd) 0
      (if f.s then genAddr (coreAt s.mod c.val) f.ags else 0) 0 (rs (coreAt s.mod c.val) f.rb)
      ((rs (coreAt s.mod c.val) f.rs).truncate 16) →
    TensorReady c.val (coreAt s.mod c.val) q →
    Gives (.tcvt c) s (fun t => CoreStep s t c.val
      (advance { cycled (coreAt s.mod c.val) with tq := (coreAt s.mod c.val).tq ++ [q] }))) ∧
  (∀ (c : Core) (s : State) (f : MmaFields), Issues s.mod c.val (.tmma f) → f.ro ≠ 0 → (coreAt s.mod c.val).txH = 16 →
    Gives (.tmma c) s (fun t => Faulted s t c.val 0x01 (coreAt s.mod c.val).pc.toNat
      (fetchWord s.mod c.val (coreAt s.mod c.val).pc.toNat).toNat))

/-- R60, R142, R145 to R149: what the executing tensor instruction does when it completes. tzero and tbias set every element, the
latter from one row of sixteen words. tmma adds its blocks to each element, in block order, each with one rounding, or leaves a
masked element. tcvt writes the converted rows and, with S, sixteen scale bytes, which lie above the rows. (The model's own
readings in it: log 35.) -/
def Obligations.TensorCompletes : Prop :=
  ∀ (c : Core) (s : State) (q : TensorOp) (rest : List TensorOp) (x : CoreSt), NextTensor s.mod c.val q rest →
    x = { coreAt s.mod c.val with tq := rest } →
    (∀ tr, q.op = .tzero tr → Gives (.tensorComplete c) s (fun t =>
      CoreStep s t c.val (coreAt t.mod c.val) ∧ UnitWrote x (coreAt t.mod c.val) [tr.val] [] false ∧
      ∀ i j, i < 16 → j < 16 → rt (coreAt t.mod c.val) tr.val i j = 0)) ∧
    (∀ tr ag, q.op = .tbias tr ag → InLocal q.a.toNat 64 → Gives (.tensorComplete c) s (fun t =>
      CoreStep s t c.val (coreAt t.mod c.val) ∧ UnitWrote x (coreAt t.mod c.val) [tr.val] [] false ∧
      ∀ i j, i < 16 → j < 16 → rt (coreAt t.mod c.val) tr.val i j =
        BitVec.ofNat 32 (leNat (localBytes s.mod c.val q.map (q.a.toNat + 4 * j) 4)))) ∧
    (∀ f masked, q.op = .tmma f →
      masked = (fun i j => f.m && (decide (q.txM ≤ i) || decide (q.txN ≤ 16 * (f.t.val % 2) + j))) →
      Gives (.tensorComplete c) s (fun t => CoreStep s t c.val (coreAt t.mod c.val) ∧
        UnitWrote x (coreAt t.mod c.val) [f.t.val] [] ((List.range 16).any (fun i => (List.range 16).any (fun j =>
          !masked i j && fpNonFinite (rt (coreAt t.mod c.val) f.t.val i j)))) ∧
        ∀ i j, i < 16 → j < 16 → rt (coreAt t.mod c.val) f.t.val i j =
          (if masked i j then (if f.z then 0 else rt x f.t.val i j)
           else (List.range (f.nb.val + 1)).foldl (fun acc k => addRoundOnce acc (mmaBlock s.mod c.val q f i j k))
             (if f.z then 0 else rt x f.t.val i j)))) ∧
    (∀ f, q.op = .tcvt f → (∀ r ∈ tensorWrites q, InLocal r.1 r.2) →
      Gives (.tensorComplete c) s (fun t => CoreMemStep s t c.val (coreAt t.mod c.val) ∧ t.mod.mem = s.mod.mem ∧
        UnitWrote x (coreAt t.mod c.val) [] [] ((List.range 16).any (fun i => (cvtRow x q f i).2.2)) ∧
        (f.s = true → ∀ i, i < 16 → sget memDefault t.mod.lmem (coreKey c.val q.map (q.sa.toNat + 16 * f.slot.val + i)) =
          BitVec.ofNat 8 (cvtRow x q f i).1) ∧
        (∀ i b, i < 16 → b < (packElems f.f (cvtRow x q f i).2.1).length →
          (f.s = true → ∀ j, j < 16 → q.a.toNat + i * rowBytes f.f + (if f.p then 0 else 16 * (f.t.val % 2)) * fmtStoreBits f.f / 8 + b
            ≠ q.sa.toNat + 16 * f.slot.val + j) →
          sget memDefault t.mod.lmem (coreKey c.val q.map (q.a.toNat + i * rowBytes f.f
            + (if f.p then 0 else 16 * (f.t.val % 2)) * fmtStoreBits f.f / 8 + b)) =
            (packElems f.f (cvtRow x q f i).2.1).getD b 0) ∧
        (∀ k, (f.s = true → ∀ i, i < 16 → k ≠ coreKey c.val q.map (q.sa.toNat + 16 * f.slot.val + i)) →
          (∀ i b, i < 16 → b < (packElems f.f (cvtRow x q f i).2.1).length → k ≠ coreKey c.val q.map (q.a.toNat + i * rowBytes f.f
            + (if f.p then 0 else 16 * (f.t.val % 2)) * fmtStoreBits f.f / 8 + b)) →
          sget memDefault t.mod.lmem k = sget memDefault s.mod.lmem k)))

/-- R64, R84, R156, R159, R163, R176: a vector instruction that meets no fault and no hazard enters the vector queue with the register
values, the stage map, the set-up state and the address of its issue. -/
def Obligations.VectorInstructionsEnter : Prop :=
  ∀ r ∈ vecRows, ∀ (c : Core) (s : State) (f : VFields) (q : VecOp), IssuesFree s.mod c.val (.vec r.2 f) [f.s, f.rs] (vecNames r.2 f) →
    q = vecEntry (coreAt s.mod c.val) r.2 f → VecReady c.val (coreAt s.mod c.val) q →
    Gives (r.1 c) s (fun t => CoreStep s t c.val
      (advance { cycled (coreAt s.mod c.val) with vq := (coreAt s.mod c.val).vq ++ [q] }))

/-- R157, R159 to R168: a vector instruction on registers, when it completes, writes its 32 lanes and nothing else; a result of FP kind
that is not finite sets the flag. -/
def Obligations.VectorLanesComplete : Prop :=
  ∀ (c : Core) (s : State) (q : VecOp) (rest : List VecOp) (x : CoreSt), NextVec s.mod c.val q rest →
    x = { coreAt s.mod c.val with vq := rest } →
    (∀ r ∈ laneRows, q.op = r.1 → Gives (.vectorComplete c) s (fun t => CoreStep s t c.val (coreAt t.mod c.val) ∧
      UnitWrote x (coreAt t.mod c.val) [] [q.x.vd]
        (r.2.1 && (List.range 32).any (fun l => fpNonFinite (vLane (coreAt t.mod c.val) q.x.vd l))) ∧
      ∀ l, l < 32 → vLane (coreAt t.mod c.val) q.x.vd l = r.2.2 q.s l (q.va.getD l 0) (q.vb.getD l 0) (q.vc.getD l 0))) ∧
    (∀ r ∈ [(VOp.vrsum, treeSum q.va), (.vrmax, (q.va.drop 1).foldl fpMax (fpCanon (q.va.getD 0 0))),
        (.vrmin, (q.va.drop 1).foldl fpMin (fpCanon (q.va.getD 0 0)))], q.op = r.1 → q.va.length = 32 →
      Gives (.vectorComplete c) s (fun t => CoreStep s t c.val (coreAt t.mod c.val) ∧
        UnitWrote x (coreAt t.mod c.val) [] [q.x.vd] (fpNonFinite r.2) ∧
        ∀ l, l < 32 → vLane (coreAt t.mod c.val) q.x.vd l = r.2)) ∧
    (∀ ctl, ctl = (⟨q.x.f, q.x.rnd, q.x.sat, x.seed, x.slate, q.stream.toNat, q.s⟩ : ConvCtl) → q.va.length = 32 →
      (q.op = .vq → Gives (.vectorComplete c) s (fun t => CoreStep s t c.val (coreAt t.mod c.val) ∧
        UnitWrote x (coreAt t.mod c.val) [] [q.x.vd] ((List.range 32).any (fun l =>
          (convElem ctl l (q.va.getD l 0)).2 || fpNonFinite (vLane (coreAt t.mod c.val) q.x.vd l))) ∧
        ∀ l, l < 32 → vLane (coreAt t.mod c.val) q.x.vd l = xvRound (decodeF q.x.f (convElem ctl l (q.va.getD l 0)).1))) ∧
      (q.op = .vpk → q.x.sb = false → Gives (.vectorComplete c) s (fun t => CoreStep s t c.val (coreAt t.mod c.val) ∧
        UnitWrote x (coreAt t.mod c.val) [] [q.x.vd] ((List.range 32).any (fun l => (convElem ctl l (q.va.getD l 0)).2)) ∧
        ∀ b, b < 128 → (vLane (coreAt t.mod c.val) q.x.vd (b / 4)).extractLsb' (8 * (b % 4)) 8 =
          (packElems q.x.f ((List.range 32).map (fun l => (convElem ctl l (q.va.getD l 0)).1))).getD b 0)) ∧
      (q.op = .vpk → q.x.sb = true → Gives (.vectorComplete c) s (fun t => CoreStep s t c.val (coreAt t.mod c.val) ∧
        UnitWrote x (coreAt t.mod c.val) [] [q.x.vd] (convBlock ctl (List.range 32) q.va).2.2 ∧
        ∀ b, b < 128 → (vLane (coreAt t.mod c.val) q.x.vd (b / 4)).extractLsb' (8 * (b % 4)) 8 =
          (if b = 124 then BitVec.ofNat 8 (convBlock ctl (List.range 32) q.va).1
           else (packElems q.x.f (convBlock ctl (List.range 32) q.va).2.1).getD b 0))))

/-- R169 to R175: the tile steps, when they complete. Each element of the pair, or accumulator, and each lane written has the
value the rule gives; every other accumulator and vector register is as it was. (The model's own readings in it: log 35.) -/
def Obligations.TileStepsComplete : Prop :=
  ∀ (c : Core) (s : State) (q : VecOp) (rest : List VecOp) (x : CoreSt) (ta : Nat), NextVec s.mod c.val q rest →
    x = { coreAt s.mod c.val with vq := rest } → ta = q.x.ta.val →
    (q.op = .vtdec → (∀ r ∈ vecReads q, InLocal r.1 r.2) → ∀ row scale,
      row = (fun i => unpackElems q.x.f (localBytes s.mod c.val q.map (q.addr.toNat + i * rowBytes q.x.f) (rowBytes q.x.f))) →
      scale = (fun i => if q.x.sc then some (leNat (localBytes s.mod c.val q.map (bits q.s 31 0 + 16 * q.x.slot.val + i) 1)) else none) →
      Gives (.vectorComplete c) s (fun t => CoreStep s t c.val (coreAt t.mod c.val) ∧
        UnitWrote x (coreAt t.mod c.val) [ta, ta + 1] [] ((List.range 16).any (fun i => (List.range 32).any (fun j =>
          (decodeScaled q.x.f ((row i).getD j 0) (scale i) q.x.rnd q.x.sat).2 || fpNonFinite (pairAt (coreAt t.mod c.val) ta i j)))) ∧
        ∀ i j, i < 16 → j < 32 → pairAt (coreAt t.mod c.val) ta i j =
          BitVec.ofNat 32 (decodeScaled q.x.f ((row i).getD j 0) (scale i) q.x.rnd q.x.sat).1)) ∧
    (q.op = .vsmax → Gives (.vectorComplete c) s (fun t => CoreStep s t c.val (coreAt t.mod c.val) ∧
      UnitWrote x (coreAt t.mod c.val) [ta, ta + 1] [q.x.vd, q.x.vc] ((List.range 16).any (fun i =>
        fpNonFinite (smaxRow x q i).1 || fpNonFinite (smaxRow x q i).2.1 || fpNonFinite (smaxRow x q i).2.2.1
          || (smaxRow x q i).2.2.2.any fpNonFinite)) ∧
      (∀ i j, i < 16 → j < 32 → pairAt (coreAt t.mod c.val) ta i j = (smaxRow x q i).2.2.2.getD j 0) ∧
      (∀ i, i < 16 → (q.x.vd ≠ q.x.vc → vLane (coreAt t.mod c.val) q.x.vd i = (smaxRow x q i).1 ∧
          vLane (coreAt t.mod c.val) q.x.vc (16 + i) = vLane x q.x.vc (16 + i)) ∧
        vLane (coreAt t.mod c.val) q.x.vd (16 + i) = (smaxRow x q i).2.1 ∧
        vLane (coreAt t.mod c.val) q.x.vc i = (smaxRow x q i).2.2.1))) ∧
    (q.op = .vrscale → ∀ accs, accs = (if q.x.p then [ta, ta + 1] else [ta]) →
      Gives (.vectorComplete c) s (fun t => CoreStep s t c.val (coreAt t.mod c.val) ∧
        UnitWrote x (coreAt t.mod c.val) accs [] (accs.any (fun a => (List.range 16).any (fun i => (List.range 16).any (fun j =>
          fpNonFinite (rt (coreAt t.mod c.val) a i j))))) ∧
        ∀ a i j, a ∈ accs → i < 16 → j < 16 → rt (coreAt t.mod c.val) a i j =
          fpMul (rt x a i j) (q.va.getD (i + (if q.x.h then 16 else 0)) 0))) ∧
    (q.op = .vrowk → Gives (.vectorComplete c) s (fun t => CoreStep s t c.val (coreAt t.mod c.val) ∧
      UnitWrote x (coreAt t.mod c.val) [] [q.x.vd] ((List.range 16).any (fun i => fpNonFinite (rt x ta i 0))) ∧
      ∀ l, l < 32 → vLane (coreAt t.mod c.val) q.x.vd l = (if l < 16 then fpCanon (rt x ta l 0) else 0))) ∧
    (q.op = .vnsum → ∀ masked, masked = (fun i => q.x.mask && decide (q.txM ≤ i)) → ∀ d, d = (fun i => (List.range 32).map (fun j =>
        if q.x.mask && decide (q.txN ≤ j) then (0 : W32) else fpSub (pairAt x ta i j) (q.va.getD i 0))) →
      Gives (.vectorComplete c) s (fun t => CoreStep s t c.val (coreAt t.mod c.val) ∧
        UnitWrote x (coreAt t.mod c.val) [] [q.x.vd] ((List.range 16).any (fun i => !masked i &&
          (fpNonFinite (vLane (coreAt t.mod c.val) q.x.vd i) || fpNonFinite (vLane (coreAt t.mod c.val) q.x.vd (16 + i))))) ∧
        ∀ i, i < 16 →
          vLane (coreAt t.mod c.val) q.x.vd i = (if masked i then q.vd.getD i 0 else fpAdd (q.vd.getD i 0) (treeSum (d i))) ∧
          vLane (coreAt t.mod c.val) q.x.vd (16 + i) = (if masked i then q.vd.getD (16 + i) 0
            else fpAdd (q.vd.getD (16 + i) 0) (treeSum ((d i).map (fun v => fpMul v v)))))) ∧
    (q.op = .vnstat → ∀ mean var, mean = (fun i => fpDiv (q.va.getD i 0) (fpOfNat q.s.toNat)) →
      var = (fun i => fpSub (fpDiv (q.va.getD (16 + i) 0) (fpOfNat q.s.toNat)) (fpMul (mean i) (mean i))) →
      Gives (.vectorComplete c) s (fun t => CoreStep s t c.val (coreAt t.mod c.val) ∧
        UnitWrote { x with cancel := BitVec.ofNat 32 (min (x.cancel.toNat + ((List.range 16).filter (fun i => fpLt (var i) 0)).length)
            (2 ^ 32 - 1)) } (coreAt t.mod c.val) [] [q.x.vd] ((List.range 32).any (fun l => fpNonFinite (vLane (coreAt t.mod c.val) q.x.vd l))) ∧
        ∀ i, i < 16 → vLane (coreAt t.mod c.val) q.x.vd i = fpAdd (q.vb.getD i 0) (mean i) ∧
          vLane (coreAt t.mod c.val) q.x.vd (16 + i) = (if fpLt (var i) 0 || fpEq (var i) 0 then 0 else var i))) ∧
    (q.op = .vnapply → Gives (.vectorComplete c) s (fun t => CoreStep s t c.val (coreAt t.mod c.val) ∧
      UnitWrote x (coreAt t.mod c.val) [ta, ta + 1] [] ((List.range 16).any (fun i => (List.range 32).any (fun j =>
        fpNonFinite (pairAt (coreAt t.mod c.val) ta i j)))) ∧
      ∀ i j, i < 16 → j < 32 → pairAt (coreAt t.mod c.val) ta i j =
        fpFma (fpMul (fpSub (pairAt x ta i j) (q.va.getD i 0)) (q.va.getD (16 + i) 0)) (q.vb.getD j 0) (q.vc.getD j 0)))

/-- R224, R225, R227, R228 and Tables 8.8, 8.9: arm, stop, disable and resume, given by an instruction or through DOLLY_CH_CMD, and a
write of DOLLY_CH_CTL, whose ctx field changes only while the channel is Off. -/
def Obligations.DollyCommands : Prop :=
  (∀ (c : Core) (s : State) (ch : VReg),
    (Issues s.mod c.val (.darm ch) → Gives (.darm c) s (fun t => CoreDid s t c.val (fun m m' => Armed m m' (clusterOf c.val) ch.val))) ∧
    (Issues s.mod c.val (.dstop ch) → Gives (.dstop c) s (fun t => CoreDid s t c.val (fun m m' => Stopped m m' (clusterOf c.val) ch.val))) ∧
    (Issues s.mod c.val (.ddis ch) → Gives (.ddis c) s (fun t => CoreDid s t c.val (fun m m' => Disabled m m' (clusterOf c.val) ch.val)))) ∧
  (∀ (fn : Fn) (k : Cluster) (ch : Fin 16) (s : State), Reaches s.mod fn (rChCmd k.val ch.val) →
    Gives (.dollyCmdArm fn k ch) s (fun t => t = { s with mod := t.mod } ∧ Armed s.mod t.mod k.val ch.val) ∧
    Gives (.dollyCmdStop fn k ch) s (fun t => t = { s with mod := t.mod } ∧ Stopped s.mod t.mod k.val ch.val) ∧
    Gives (.dollyCmdDisable fn k ch) s (fun t => t = { s with mod := t.mod } ∧ Disabled s.mod t.mod k.val ch.val) ∧
    Gives (.dollyCmdResume fn k ch) s (fun t => t = { s with mod := t.mod } ∧
      if chState s.mod k.val ch.val = 4 then RegsFrom s.mod t.mod [(rChStat k.val ch.val, put (rd s.mod (rChStat k.val ch.val)) 31 28 2)]
      else ChanIgnores s.mod t.mod k.val ch.val)) ∧
  (∀ (fn : Fn) (k : Cluster) (ch : Fin 16) (val : W32) (s : State), Reaches s.mod fn (rChCtl k.val ch.val) →
    Gives (.dollyChCtlWrite fn k ch val) s (fun t =>
      fld t.mod (rChCtl k.val ch.val) 15 2 = bits val 15 2 ∧
      fld t.mod (rChCtl k.val ch.val) 27 16 =
        (if chState s.mod k.val ch.val = 0 then bits val 27 16 else fld s.mod (rChCtl k.val ch.val) 27 16) ∧
      fld t.mod (rChErr k.val ch.val) 1 1 = (if chState s.mod k.val ch.val = 0 then fld s.mod (rChErr k.val ch.val) 1 1 else 1) ∧
      KeepsRegs s.mod t.mod [rChCtl k.val ch.val, rChErr k.val ch.val] ∧ t = { s with mod := { s.mod with regs := t.mod.regs } }))

/-- R228 to R230: dlaunch gives a descriptor of a range that meets no fault and no hazard a place and a sequence number, or finds the
channel Off or Disabling; dwait goes on once the channel's count has come to its number, or the channel is Off; dq reads the
channel's status, or its counts. -/
def Obligations.DollyLaunchWaitQuery : Prop :=
  (∀ (c : Core) (s : State) (b : SReg) (ch : VReg) (a : SReg) (k : Nat), IssuesFree s.mod c.val (.dlaunch b ch a) [a, b] [] →
    k = clusterOf c.val → fenceMet s.mod c.val (coreAt s.mod c.val) = true → (rs32 (coreAt s.mod c.val) a).toNat % 64 = 0 →
    InStore s.mod c.val (rs32 (coreAt s.mod c.val) a).toNat 64 →
    memBusy c.val (coreAt s.mod c.val) [((rs32 (coreAt s.mod c.val) a).toNat, 64)] [] = false →
    Sound s.mod c.val (coreAt s.mod c.val).stageMap [((rs32 (coreAt s.mod c.val) a).toNat, 64)] →
    ((chState s.mod k ch.val = 0 ∨ chState s.mod k ch.val = 6) → Gives (.dlaunch c) s (fun t =>
      coreAt t.mod c.val = advance (setS (cycled (coreAt s.mod c.val)) b (BitVec.allOnes 64)) ∧
      rd t.mod (rChErr k ch.val) = put (rd s.mod (rChErr k ch.val)) 0 0 1 ∧ KeepsRegs s.mod t.mod [rChErr k ch.val] ∧
      t.mod = { s.mod with cores := t.mod.cores, regs := t.mod.regs, free := s.mod.free + 1 })) ∧
    (chState s.mod k ch.val ≠ 0 → chState s.mod k ch.val ≠ 6 →
      (chanAt s.mod k ch.val).queue.length + (chanAt s.mod k ch.val).kept.length < 4 →
      ∀ d, d = (⟨(List.range 8).map (fun i => BitVec.ofNat 64 (leNat (storeBytes s.mod c.val (coreAt s.mod c.val).stageMap
        ((rs32 (coreAt s.mod c.val) a).toNat + 8 * i) 8))), (chanAt s.mod k ch.val).seqCount, false⟩ : QDesc) →
      Gives (.dlaunch c) s (fun t =>
        coreAt t.mod c.val = advance (setS (cycled (coreAt s.mod c.val)) b (BitVec.ofNat 64 (chanAt s.mod k ch.val).seqCount.toNat)) ∧
        chanAt t.mod k ch.val = (if chState s.mod k ch.val = 5 then
            { chanAt s.mod k ch.val with seqCount := (chanAt s.mod k ch.val).seqCount + 1, kept := (chanAt s.mod k ch.val).kept ++ [d] }
          else { chanAt s.mod k ch.val with seqCount := (chanAt s.mod k ch.val).seqCount + 1, queue := (chanAt s.mod k ch.val).queue ++ [d] }) ∧
        fld t.mod (rChStat k ch.val) 26 24 = (chanAt s.mod k ch.val).queue.length + (chanAt s.mod k ch.val).kept.length + 1 ∧
        KeepsRegs s.mod t.mod [rChStat k ch.val, rDollyOut k, rGafClStat k, rGafClWakes k] ∧
        t.mod = { s.mod with cores := t.mod.cores, regs := t.mod.regs, chans := t.mod.chans, clusters := t.mod.clusters, free := s.mod.free + 1 }))) ∧
  (∀ (c : Core) (s : State) (ch : VReg) (a : SReg), IssuesFree s.mod c.val (.dwait ch a) [a] [] →
    (chState s.mod (clusterOf c.val) ch.val = 0 ∨
      ((rd s.mod (rChDone (clusterOf c.val) ch.val)).truncate 32 - rs32 (coreAt s.mod c.val) a).toNat < 2 ^ 31) →
    Gives (.dwait c) s (fun t => CoreStep s t c.val (advance (cycled (coreAt s.mod c.val))))) ∧
  (∀ (c : Core) (s : State) (a : SReg) (ch : VReg), 
    (IssuesFree s.mod c.val (.dq true a ch) [a] [] → Gives (.dq c) s (fun t => CoreStep s t c.val (advance
      (setS (cycled (coreAt s.mod c.val)) a (rd s.mod (rChStat (clusterOf c.val) ch.val)))))) ∧
    (IssuesFree s.mod c.val (.dq false a ch) [a] [] → Gives (.dq c) s (fun t => CoreStep s t c.val (advance
      (setS (cycled (coreAt s.mod c.val)) a (BitVec.ofNat 64 ((rd s.mod (rChAbandon (clusterOf c.val) ch.val)).toNat * 2 ^ 32
        + (rd s.mod (rChDone (clusterOf c.val) ch.val)).toNat)))))))

/-- R198, R203, R207, R211, R213, R215, R221, R222, R224, R225: the events of a channel. A queued descriptor becomes active and is
checked; its gate opens; its lowest row is delivered and gives each core of its credit mask one credit; once its read-backs have
returned its writes to space 3 are visible and it is done; a refused request may issue again; a request that fails ends the
descriptor, and every queued one, in Error; a stop ends in Idle with the descriptors that came during it, and a disable in Off.
(The model's own readings in it: logs 15 and 38.) -/
def Obligations.DollyChannelEvents : Prop :=
  ∀ (k : Cluster) (ch : Fin 16) (s : State) (x : ChanSt), x = chanAt s.mod k.val ch.val →
    (∀ d rest, x.queue = d :: rest → x.active = none → chState s.mod k.val ch.val = 1 → clRolling s.mod k.val = true →
      (dCheck s.mod k.val ch.val d = 0 → Gives (.dollyDescActive k ch) s (fun t => t = { s with mod := t.mod } ∧
        ChanStep s.mod t.mod k.val ch.val [rChStat k.val ch.val] ∧
        chState t.mod k.val ch.val = (if dGate d && !gateOpen s.mod d then 3 else 2) ∧
        chanAt t.mod k.val ch.val = { x with active := some d, queue := rest, row := 0, wrRow := 0, wrGran := 0
                                             maxOut := min 128 (max 1 (fld s.mod (rChCtl k.val ch.val) 15 8))
                                             lead := min 8 (max 1 (fld s.mod (rChCtl k.val ch.val) 7 4))
                                             prio := fld s.mod (rChCtl k.val ch.val) 3 2 })) ∧
      (dCheck s.mod k.val ch.val d ≠ 0 → Gives (.dollyDescActive k ch) s (fun t => chState t.mod k.val ch.val = 7 ∧
        fld t.mod (rChStat k.val ch.val) 23 16 = dCheck s.mod k.val ch.val d ∧ (chanAt t.mod k.val ch.val).active = none ∧
        (chanAt t.mod k.val ch.val).queue = []))) ∧
    (∀ d, x.active = some d → chState s.mod k.val ch.val = 3 → gateOpen s.mod d = true →
      Gives (.dollyGateOpen k ch) s (fun t => RegStep s t [(rChStat k.val ch.val, put (rd s.mod (rChStat k.val ch.val)) 31 28 2)])) ∧
    (∀ d, x.active = some d → x.row < x.wrRow → (chState s.mod k.val ch.val = 2 ∨ chState s.mod k.val ch.val = 5) → x.row + 1 ≠ dRows d →
      (∀ c, clusterOf c = k.val → (coreAt s.mod c).wait = none) →
      Gives (.dollyRowDelivered k ch) s (fun t =>
        chanAt t.mod k.val ch.val = { x with row := x.row + 1, flight := 0, credited := x.credited ||| dCredMask d } ∧
        (∀ c, coreAt t.mod c = if clusterOf c = k.val ∧ (dCredMask d).testBit (c % 16) then addCredit (coreAt s.mod c) ch.val
          else coreAt s.mod c) ∧ KeepsRegs s.mod t.mod [rChStat k.val ch.val, rDollyOut k.val])) ∧
    (∀ d, x.active = some d → x.awaiting = true → x.refused = false → ownDrain s.mod k.val = false →
      (∀ b ∈ x.backs, meetHeld (memMeet s.mod k.val b.addr) = false) → Gives (.dollyReadbackDone k ch) s (fun t =>
      (rd t.mod (rChDone k.val ch.val)).toNat = ((rd s.mod (rChDone k.val ch.val)).toNat + 1) % 2 ^ 32 ∧
      (chanAt t.mod k.val ch.val).active = none ∧ (chanAt t.mod k.val ch.val).queue = x.queue ∧
      (chanAt t.mod k.val ch.val).awaiting = false ∧ (chanAt t.mod k.val ch.val).backs = [] ∧
      chState t.mod k.val ch.val = (if chState s.mod k.val ch.val = 5 then 5 else 1) ∧
      (dTap d = true → (reelAt t.mod (dReel d)).tapMsgs = (reelAt s.mod (dReel d)).tapMsgs ++ [dSeg d]) ∧
      (dEv d = true → evFlag t.mod k.val (dfld d 7 52 48) = true) ∧
      t.mod.mem = (farApply s.mod x.writes).mem ∧ t.mod.lmem = s.mod.lmem)) ∧
    Gives (.dollyRetryReissue k ch) s (fun t => t = { s with mod := t.mod } ∧ ChanStep s.mod t.mod k.val ch.val [rChStat k.val ch.val] ∧
      chanAt t.mod k.val ch.val = { x with refused := false } ∧ chState t.mod k.val ch.val = chState s.mod k.val ch.val) ∧
    (∀ d (row : W32) uncorr, x.active = some d → (chState s.mod k.val ch.val = 2 ∨ chState s.mod k.val ch.val = 5) → x.row = row.toNat →
      row.toNat ≤ (if x.rdDesc = 0 then x.rdRow else dRows d - 1) → row.toNat < dRows d →
      Gives (.dollyRequestError k ch row uncorr) s (fun t =>
        chState t.mod k.val ch.val = (if chState s.mod k.val ch.val = 5 then 5 else 7) ∧
        fld t.mod (rChStat k.val ch.val) 23 16 = (if uncorr then 4 else 2) ∧
        (rd t.mod (rChFseq k.val ch.val)).toNat = d.seq.toNat ∧ (rd t.mod (rChFrow k.val ch.val)).toNat = row.toNat ∧
        fld t.mod (rChErr k.val ch.val) 2 2 = 1 ∧
        (∀ o ∈ [rChDone k.val ch.val, rChAbandon k.val ch.val], (rd t.mod o).toNat = ((rd s.mod o).toNat + 1 + x.queue.length) % 2 ^ 32) ∧
        (chanAt t.mod k.val ch.val).active = none ∧ (chanAt t.mod k.val ch.val).queue = [])) ∧
    (chState s.mod k.val ch.val = 5 → x.active = none → Gives (.dollyStopDone k ch) s (fun t => t = { s with mod := t.mod } ∧
      ChanStep s.mod t.mod k.val ch.val [rChStat k.val ch.val] ∧ chState t.mod k.val ch.val = 1 ∧
      chanAt t.mod k.val ch.val = { x with queue := x.kept, kept := [], flight := 0, refused := false })) ∧
    (chState s.mod k.val ch.val = 6 → Gives (.dollyDisableDone k ch) s (fun t => t = { s with mod := t.mod } ∧
      ChanStep s.mod t.mod k.val ch.val [rChStat k.val ch.val] ∧ chState t.mod k.val ch.val = 0 ∧
      chanAt t.mod k.val ch.val = { x with flight := 0, refused := false }))

/-- R206, R207, R209, R213, R214, R218, R221, R286: a burst of the channel that a decision grants, once the responses of the
bursts before have come. A burst lets out at most four lines, and no more than the limits allow. An index line, or the last line
of a row that is read, joins what the channel holds; the last line of a row is written, into memory at once or, in space 3, into
the writes that wait for the descriptor's completion, and the row leaves the buffers; a refused request keeps its place and is
counted. A read that page-faults at the lowest row leaves the channel Faulted with the fault recorded, and fails no take. With no
channel ready a decision takes no more than those responses. (The model's own readings in it: logs 15 and 38.) -/
def Obligations.DollyBurstsAndFaults : Prop :=
  (∀ (k : Cluster) (ch : Fin 16) (w : Bool) (s : State) (r n : Mod) (x : ChanSt), clRolling s.mod k.val = true →
    r = dollyRespond s.mod k.val → chGrant r k.val w = some ch.val → n = chServed r k.val w ch.val → x = chanAt n k.val ch.val →
    (∀ q pa, w = false → rdNext n k.val ch.val = some (q, .ok pa) →
      Gives (.dollyBurstGrant k w) s (fun t => 1 ≤ (chanAt t.mod k.val ch.val).flight ∧
        (chanAt t.mod k.val ch.val).flight ≤ min 4 (chRoom n k.val ch.val) ∧
        t = { s with mod := { n with regs := t.mod.regs, chans := t.mod.chans } } ∧
        KeepsRegs n t.mod [rDollyRbytes k.val, rChStat k.val ch.val, rDollyOut k.val] ∧
        (q.index = true → chanAt t.mod k.val ch.val = { x with index := x.index ++ idxLine n k.val q.d q.desc q.row, flight := 1
                                                               issued := x.issued || q.desc == 0
                                                               rdDesc := q.desc, rdRow := q.row, rdGran := q.gran } ∧
          (rd t.mod (rDollyRbytes k.val)).toNat = min ((rd s.mod (rDollyRbytes k.val)).toNat + 64) (2 ^ 48 - 1)) ∧
        (q.index = false → q.gran + q.n = dLen q.d →
          chanAt t.mod k.val ch.val = { x with flight := 1, issued := x.issued || q.desc == 0
                                               bufs := bufAdd q.desc q.row ((List.range q.n).map (fun j =>
                                                 granRead n k.val q.d (q.addr + 16 * j) (pa + 16 * j))) x.bufs
                                               rdDesc := q.desc, rdRow := q.row + 1, rdGran := 0 } ∧
          (rd t.mod (rDollyRbytes k.val)).toNat = min ((rd s.mod (rDollyRbytes k.val)).toNat + 16 * q.n) (2 ^ 48 - 1)))) ∧
    (∀ q pa y, w = true → wrNext n k.val ch.val = some (q, .ok pa) → x.wrGran + q.n = dLen q.d →
      y = (if dDstSpace q.d = 3 then n else
        ((List.range q.n).zip q.data).foldl (fun m p => granWrite m k.val q.d (q.addr + 16 * p.1) pa p.2) n) →
      Gives (.dollyBurstGrant k w) s (fun t =>
        chanAt t.mod k.val ch.val = { (if dDstSpace q.d = 3 then farWrite n k.val q pa x else x) with
          flight := 1, wrRow := x.wrRow + 1, wrGran := 0, bufs := x.bufs.filter (fun b => !(b.desc == 0 && b.row == x.wrRow))
          index := x.index.filter (fun e => e.1 != x.wrRow) } ∧
        t.mod.mem = y.mem ∧ t.mod.lmem = y.lmem ∧ t.mod.imem = y.imem ∧
        (rd t.mod (rDollyWbytes k.val)).toNat = min ((rd s.mod (rDollyWbytes k.val)).toNat + 16 * q.n) (2 ^ 48 - 1))) ∧
    (∀ first, (w = false → ∃ q, rdNext n k.val ch.val = some (q, .retry) ∧ first = (q.desc == 0)) →
      (w = true → first = false ∧ ∃ q, wrNext n k.val ch.val = some (q, .retry)) → Gives (.dollyBurstGrant k w) s (fun t =>
        chanAt t.mod k.val ch.val = { x with refused := true, issued := x.issued || first } ∧
        fld t.mod (rChStat k.val ch.val) 7 0 = chOut (chanAt t.mod k.val ch.val) % 2 ^ 8 ∧
        (rd t.mod (rDollyRetry k.val)).toNat = min ((rd s.mod (rDollyRetry k.val)).toNat + 1) (2 ^ 48 - 1) ∧
        KeepsRegs n t.mod [rDollyRetry k.val, rChStat k.val ch.val, rDollyOut k.val] ∧
        t = { s with mod := { n with regs := t.mod.regs, chans := t.mod.chans } }))) ∧
  (∀ (k : Cluster) (ch : Fin 16) (s : State) (x : ChanSt), x = chanAt s.mod k.val ch.val →
    ∀ q kind0 d va side kind, rdNext s.mod k.val ch.val = some (q, .fault kind0) → q.desc = 0 → x.row = q.row → x.bufs = [] →
      x.active = some d → rowFault s.mod k.val ch.val d q.row ((idxOf s.mod k.val ch.val 0 d q.row).getD 0) = some (va, side, kind) →
      chState s.mod k.val ch.val = 2 →
      Gives (.dollyPageFault k ch) s (fun t => chState t.mod k.val ch.val = 4 ∧ fld t.mod (rChStat k.val ch.val) 15 12 = kind % 16 ∧
        (rd t.mod (rChFseq k.val ch.val)).toNat = d.seq.toNat ∧ (rd t.mod (rChFrow k.val ch.val)).toNat = q.row % 2 ^ 64 ∧
        (rd t.mod (rChFaddr k.val ch.val)).toNat = va % 2 ^ 57 + side * 2 ^ 57 ∧ fld t.mod (rChErr k.val ch.val) 3 3 = 1 ∧
        (chanAt t.mod k.val ch.val).active = some d ∧ (chanAt t.mod k.val ch.val).row = q.row ∧ t.mod.prints = s.mod.prints)) ∧
  (∀ (k : Cluster) (w : Bool) (s : State),
    (clRolling s.mod k.val = false → Gives (.dollyBurstGrant k w) s (fun t => t = s)) ∧
    (clRolling s.mod k.val = true → chGrant (dollyRespond s.mod k.val) k.val w = none →
      Gives (.dollyBurstGrant k w) s (fun t => t = { s with mod := dollyRespond s.mod k.val })))

/-- R264 to R267, R269, R278: a decision, in the beat that ends a running grant, in the next beat of an arbiter without one, or in
a beat that a cancel has reached. It grants the chosen request, which leaves the list and runs, and the pointer advances one
entry, to a new period past the last. A masked request is not chosen; the period's pre-emption budget goes to a privileged
requester; otherwise a request of the entry's owner that the entry can carry comes before every other, an entry carries what it
grants, and among the requests of one standing the longest ready is chosen. (The model's own readings in it: log 36.) -/
def Obligations.ArbiterDecisions : Prop :=
  ∀ (a : ArbId) (n : Nat) (ready : List ArbReq) (s : State) (x y : ArbSt) (j : Mod), x = arbAt s.mod a →
    j = arbMet s.mod a n ready → y = arbAt j a →
    ((x.run = none ∧ x.due = false ∧ (n = 1 ∨ 1 ≤ n ∧ x.reqs = [])) ∨ (∃ g, x.run = some g ∧ x.due = false ∧ n = arbLeft x) ∨
      (x.due = true ∧ n = 0)) →
    (∀ q priv tie, arbChoose j a y = some (q, priv, tie) →
      q ∈ y.reqs ∧ arbMasked j a y q.rq = false ∧
      (priv = true → arbPriv j a q.rq = true ∧ y.spent = false ∧ ∀ p ∈ arbUrgent j a y, p.age ≤ q.age) ∧
      (priv = false → arbCarry a (arbEntry j a y.ptr) q = true ∧
        (∀ p ∈ arbEligible j a y, arbCarry a (arbEntry j a y.ptr) p = true → p.owner = q.owner → p.age ≤ q.age) ∧
        (y.again = false → (∃ p ∈ arbEligible j a y, p.owner = (arbEntry j a y.ptr).1 ∧ arbCarry a (arbEntry j a y.ptr) p = true) →
          q.owner = (arbEntry j a y.ptr).1)) ∧
      Gives (.arbDecision a n ready) s (fun t =>
        (arbAt t.mod a).run = some (arbRunOf q) ∧ (arbAt t.mod a).reqs = y.reqs.erase q ∧
        (arbAt t.mod a).ptr = (y.ptr + 1) % arbLen j a ∧
        (arbAt t.mod a).spent = (decide (y.ptr + 1 < arbLen j a) && (y.spent || priv)) ∧
        (arbAt t.mod a).tieFrom = (if tie then q.rq + 1 else y.tieFrom) ∧
        (∀ b ch, a = .block b ch → q.rq < arbReqs a →
          (rd t.mod (rArbCnt b.val q.rq 0)).toNat = ((rd j (rArbCnt b.val q.rq 0)).toNat + 1) % 2 ^ 32) ∧
        t = { s with mod := t.mod } ∧ ArbOnly s.mod t.mod a)) ∧
    (arbChoose j a y = none → Gives (.arbDecision a n ready) s (fun t =>
      (arbAt t.mod a).run = none ∧ (arbAt t.mod a).reqs = y.reqs ∧ (arbAt t.mod a).ptr = (y.ptr + 1) % arbLen j a ∧
      t = { s with mod := { s.mod with regs := t.mod.regs, arbs := t.mod.arbs } }))

/-- R270, R271, R275, R277, R280: a cancel takes a waiting request away, in a decision beat with the decision left to background
ranking if it was the chosen one, or ends a grant that runs or was interrupted at its next burst boundary; a privileged request
pre-empts a running grant once in a period; a request that has waited too long is flagged and counted; the counters of a block are
zeroed, and its registers locked. (The model's own readings in it: log 36.) -/
def Obligations.ArbiterEvents : Prop :=
  (∀ (a : ArbId) (r id n : Nat) (ready : List ArbReq) (s : State) (x y : ArbSt) (last : Bool) (j : Mod), x = arbAt s.mod a →
    (x.due = true ∧ n = 0) ∨ (x.due = false ∧ x.run = none ∧ n = 1) ∨ (x.due = false ∧ x.run ≠ none ∧ n ≤ arbLeft x) →
    last = (x.due || x.run.isNone || n == arbLeft x) → j = arbStopped s.mod a n ready last → y = arbAt j a →
    (∀ q, y.reqs.find? (fun p => p.rq == r && p.id == id) = some q → Gives (.arbCancel a ⟨r, id⟩ n ready) s (fun t =>
      (arbAt t.mod a).reqs = y.reqs.erase q ∧ (arbAt t.mod a).due = last ∧ (arbAt t.mod a).run = y.run ∧ (arbAt t.mod a).ptr = y.ptr ∧
      (last = true → (∃ priv tie, arbChoose j a y = some (q, priv, tie)) → (arbAt t.mod a).again = true) ∧
      t = { s with mod := { s.mod with regs := t.mod.regs, arbs := t.mod.arbs } })) ∧
    (∀ g, y.reqs.find? (fun p => p.rq == r && p.id == id) = none → y.run = some g → g.rq = r → g.id = id → g.late = false →
      Gives (.arbCancel a ⟨r, id⟩ n ready) s (fun t => (arbAt t.mod a).reqs = y.reqs ∧ (arbAt t.mod a).due = false ∧
        (arbAt t.mod a).run = some { g with stop := min g.stop ((max 1 g.own + 3) / 4 * 4), late := true } ∧
        (arbAt t.mod a).cut = y.cut ∧ (arbAt t.mod a).ptr = y.ptr)) ∧
    (∀ g, y.reqs.find? (fun p => p.rq == r && p.id == id) = none → (∀ h, y.run = some h → h.rq ≠ r ∨ h.id ≠ id) → y.cut = some g →
      g.rq = r → g.id = id → g.late = false → Gives (.arbCancel a ⟨r, id⟩ n ready) s (fun t => (arbAt t.mod a).reqs = y.reqs ∧
        (arbAt t.mod a).cut = some { g with stop := min g.stop (g.own / 4 * 4 + 4), late := true } ∧ (arbAt t.mod a).run = y.run))) ∧
  (∀ (a : ArbId) (req : ArbReq) (n : Nat) (s : State) (x y : ArbSt) (g : ArbRun) (q : ArbPend) (tie : Bool) (j : Mod), x = arbAt s.mod a →
    j = arbJoined s.mod a n [req] → y = arbAt j a → x.run ≠ none → x.cut = none → x.due = false → x.spent = false → 0 < n → n < arbLeft x →
    y.run = some g → arbPick a y (arbUrgent j a y) = some (q, tie) →
    Gives (.arbPreempt a req n) s (fun t => (arbAt t.mod a).spent = true ∧ (arbAt t.mod a).ptr = y.ptr ∧
      (arbAt t.mod a).run = some (arbRunOf q) ∧ (arbAt t.mod a).reqs = y.reqs.erase q ∧
      (arbAt t.mod a).cut = some { g with own := if g.locked then 0 else g.own } ∧ t = { s with mod := t.mod } ∧ ArbOnly s.mod t.mod a)) ∧
  (∀ (b : Fin 64) (ch : Fin 32) (r n : Nat) (s : State) (x : ArbSt) (q : ArbPend), x = arbAt s.mod (.block b ch) →
    x.reqs.find? (fun q => q.rq == r && !q.starved && decide (fld s.mod (rArbCtl b.val) 31 24 * arbPeriod s.mod (.block b ch) < q.age + n)) = some q →
    arbPhase s.mod (.block b ch) = 1 → fld s.mod (rArbCtl b.val) 31 24 ≠ 0 → r < 32 →
    Gives (.arbStarveTimeout (.block b ch) r n) s (fun t =>
      (arbAt t.mod (.block b ch)).reqs = x.reqs.map (fun p => if p = q then { p with starved := true } else p) ∧
      fld t.mod (rArbStarved b.val) r r = 1 ∧
      (rd t.mod (rArbCnt b.val r 4)).toNat = min ((rd s.mod (rArbCnt b.val r 4)).toNat + 1) (2 ^ 32 - 1))) ∧
  (∀ (fn : Fn) (b : Fin 64) (ch : Fin 32) (s : State), Reaches s.mod fn (rArbCmd b.val) → Gives (.arbCmdZero fn (.block b ch)) s (fun t =>
    (∀ r i, r < (arbKind b.val).nreq → i < 8 → rd t.mod (rArbCnt b.val r i) = 0) ∧
    (∀ o, (∀ r i, r < (arbKind b.val).nreq → i < 8 → o ≠ rArbCnt b.val r i) → rd t.mod o = rd s.mod o) ∧
    t = { s with mod := { s.mod with regs := t.mod.regs } })) ∧
  (∀ (fn : Fn) (b : Fin 64) (ch : Fin 32) (s : State), Reaches s.mod fn (rArbLock b.val) → Gives (.arbLockWrite fn (.block b ch)) s (fun t =>
    fld t.mod (rArbLock b.val) 0 0 = 1 ∧ KeepsRegs s.mod t.mod [rArbLock b.val] ∧ t = { s with mod := { s.mod with regs := t.mod.regs } }))

/-- R181, R184, R189, R190: a reel pass starts, is refused or aborts; a credit grant of the current pass adds to the credits held;
a pass without progress is stalled. (The model's own readings in it: log 39.) -/
def Obligations.ReelPasses : Prop :=
  (∀ (fn : Fn) (r : Fin 16) (s : State), Reaches s.mod fn (rRlGo r.val) →
    (reelRuns s.mod r.val = true → Gives (.reelGoStart fn r) s (fun t => t = s)) ∧
    (reelRuns s.mod r.val = false → reelBad s.mod r.val → Gives (.reelGoStart fn r) s (fun t =>
      reelStatus t.mod r.val = 3 ∧ fld t.mod (rRlErr r.val) 0 0 = 1 ∧ KeepsRegs s.mod t.mod [rRlGo r.val, rRlErr r.val] ∧
      t = { s with mod := { s.mod with regs := t.mod.regs } })) ∧
    (reelRuns s.mod r.val = false → ¬ reelBad s.mod r.val → ∀ ok, ok =
        (ctxOf s.mod (reelCtx s.mod r.val) (fld s.mod (rRlCtl r.val) 7 4) && rangeMapped s.mod (reelCtx s.mod r.val) (fld s.mod (rRlSrc r.val) 56 6 * 64) (reelSegBytes s.mod r.val * reelB s.mod r.val) &&
         rangeMapped s.mod (reelCtx s.mod r.val) (reelBuf s.mod r.val) (65536 * reelZ s.mod r.val)) →
      (ok = false → Gives (.reelGoStart fn r) s (fun t => reelStatus t.mod r.val = 4 ∧ fld t.mod (rRlErr r.val) 0 0 = 1 ∧
        KeepsRegs s.mod t.mod [rRlGo r.val, rRlErr r.val] ∧ t = { s with mod := { s.mod with regs := t.mod.regs } })) ∧
      (ok = true → Gives (.reelGoStart fn r) s (fun t => reelStatus t.mod r.val = 1 ∧ fld t.mod (rRlGo r.val) 0 0 = 1 ∧
        fld t.mod (rRlGo r.val) 15 8 = (fld s.mod (rRlGo r.val) 15 8 + 1) % 256 ∧
        (∀ o ∈ [rRlLanded r.val, rRlSent r.val, rRlFreed r.val, rRlCredit r.val], rd t.mod o = 0) ∧
        reelAt t.mod r.val = { ReelSt.reset with
          tapMsgs := (reelAt s.mod r.val).tapMsgs, sending := (reelAt s.mod r.val).sending.map (fun g => { g with old := true })
          dead := (reelAt s.mod r.val).dead.filter (· != (reelPass s.mod r.val + 1) % 256) } ∧
        (portUsable s.mod (fld s.mod (rRlRing r.val) 14 12) = true → Sent s t (fld s.mod (rRlRing r.val) 14 12) [] 2) ∧
        (portUsable s.mod (fld s.mod (rRlRing r.val) 14 12) = false → t.mod.tx = s.mod.tx ∧ Counted s.mod t.mod (rZwDrop 1)) ∧
        t.mod.mem = s.mod.mem))) ∧
    Gives (.reelGoAbort fn r) s (fun t => if reelRuns s.mod r.val = true then reelStatus t.mod r.val = 5 ∧ fld t.mod (rRlGo r.val) 0 0 = 0 ∧
      reelAt t.mod r.val = { reelAt s.mod r.val with
        dead := reelPass s.mod r.val :: (reelAt s.mod r.val).dead.filter (· != reelPass s.mod r.val) } ∧
      KeepsRegs s.mod t.mod [rRlGo r.val] ∧ t = { s with mod := { s.mod with regs := t.mod.regs, reels := t.mod.reels } } else t = s)) ∧
  (∀ (r : Fin 16) (pass : Byte) (n : Nat) (s : State), Gives (.reelCreditGrant r pass n) s (fun t =>
    if reelRuns s.mod r.val = true ∧ pass.toNat = fld s.mod (rRlGo r.val) 15 8 then RegStep s t
      [(rRlCredit r.val, put (rd s.mod (rRlCredit r.val)) 15 0 (min (fld s.mod (rRlCredit r.val) 15 0 + n) 65535))] else t = s)) ∧
  (∀ (r : Fin 16) (s : State), reelStatus s.mod r.val = 1 → fld s.mod (rRlStall r.val) 23 0 ≠ 0 →
    Gives (.reelStallTimeout r) s (fun t => reelStatus t.mod r.val = 6 ∧ fld t.mod (rRlErr r.val) 4 4 = 1 ∧
      t.mod.reels = s.mod.reels ∧ t.mod.mem = s.mod.mem))

/-- R180, R182 to R189: a segment of the current pass that is the next of its stream is held until it has landed, and any other is
refused with an error or dropped; landing writes it into its slot of the ring and counts it; a tap for a landed segment is
counted; a segment that is ready leaves when a credit is held, and takes it; its last flit counts it as sent. (The model's own
readings in it: log 39.) -/
def Obligations.ReelSegments : Prop :=
  (∀ (q : Port) (h : Head) (data : List Byte) (s : State) (found : Option Nat), found = (List.range 16).find? (fun r =>
      fld s.mod (rRlCtl r) 0 0 == 1 && fld s.mod (rRlRing r) 31 16 == bits (h.getD 1 0) 15 0 && fld s.mod (rRlRing r) 14 12 == q.val) →
    (found = none → Gives (.reelSegment q h data) s (fun t =>
      (rd t.mod (rZwDrop 2)).toNat = min ((rd s.mod (rZwDrop 2)).toNat + 1) (2 ^ 32 - 1) ∧ t.mod.reels = s.mod.reels ∧ t.mod.mem = s.mod.mem)) ∧
    (∀ r n, found = some r → n = fld s.mod (rRlLanded r) 31 0 + (reelAt s.mod r).arrived.length →
      (bits (h.getD 1 0) 23 16 ∉ (reelAt s.mod r).dead → reelRuns s.mod r = true ∧ bits (h.getD 1 0) 23 16 = fld s.mod (rRlGo r) 15 8 ∧
          bits (h.getD 1 0) 63 32 = n ∧ n < reelLen s.mod r →
        Gives (.reelSegment q h data) s (fun t => reelAt t.mod r = { reelAt s.mod r with arrived := (reelAt s.mod r).arrived ++ [(n, data)] } ∧
          t = { s with mod := { s.mod with reels := t.mod.reels } })) ∧
      (bits (h.getD 1 0) 23 16 ∈ (reelAt s.mod r).dead → Gives (.reelSegment q h data) s (fun t =>
        RegStep s t [(rRlErr r, put (rd s.mod (rRlErr r)) 5 5 1)])) ∧
      (bits (h.getD 1 0) 23 16 ∉ (reelAt s.mod r).dead → (reelRuns s.mod r = false ∨
          bits (h.getD 1 0) 23 16 ≠ fld s.mod (rRlGo r) 15 8 ∨ bits (h.getD 1 0) 63 32 ≠ n ∨ reelLen s.mod r ≤ n) →
        Gives (.reelSegment q h data) s (fun t => RegStep s t [(rRlErr r, put (rd s.mod (rRlErr r)) 3 3 1)])))) ∧
  (∀ (r : Fin 16) (s : State) (n : Nat) (data : List Byte) (rest : List (Nat × List Byte)), (reelAt s.mod r.val).arrived = (n, data) :: rest →
    reelRuns s.mod r.val = true →
    rangeBusy s.mod (reelCtx s.mod r.val) (reelBuf s.mod r.val + 65536 * (n % reelZ s.mod r.val)) data.length true = false →
    Gives (.reelSegmentLanded r) s (fun t => (reelAt t.mod r.val).arrived = rest ∧
      (rd t.mod (rRlLanded r.val)).toNat = ((rd s.mod (rRlLanded r.val)).toNat + 1) % 2 ^ 32 ∧
      t.mod.mem = (vaPuts s.mod (reelCtx s.mod r.val) (reelBuf s.mod r.val + 65536 * (n % reelZ s.mod r.val)) data).mem)) ∧
  (∀ (r : Fin 16) (n : Nat) (s : State), n ∈ (reelAt s.mod r.val).tapMsgs →
    (reelDead s.mod r.val = true → Gives (.reelTap r n) s (fun t =>
      reelAt t.mod r.val = { reelAt s.mod r.val with tapMsgs := (reelAt s.mod r.val).tapMsgs.erase n } ∧
      t = { s with mod := { s.mod with reels := t.mod.reels } })) ∧
    (reelDead s.mod r.val = false → n < fld s.mod (rRlLanded r.val) 31 0 → tapsDone s.mod r.val n = false → Gives (.reelTap r n) s (fun t =>
      reelTaps t.mod r.val n = reelTaps s.mod r.val n + 1 ∧ (reelAt t.mod r.val).tapMsgs = (reelAt s.mod r.val).tapMsgs.erase n ∧
      (∀ k, k ≠ n → reelTaps t.mod r.val k = reelTaps s.mod r.val k) ∧ t.mod.mem = s.mod.mem)) ∧
    (reelDead s.mod r.val = false → fld s.mod (rRlLanded r.val) 31 0 ≤ n → Gives (.reelTap r n) s (fun t =>
      fld t.mod (rRlErr r.val) 1 1 = 1 ∧ (∀ k, reelTaps t.mod r.val k = reelTaps s.mod r.val k)))) ∧
  (∀ (r : Fin 16) (s : State) (j va : Nat), j = (reelAt s.mod r.val).next → reelRuns s.mod r.val = true → (reelAt s.mod r.val).sending = none →
    0 < fld s.mod (rRlCredit r.val) 15 0 → j < reelLen s.mod r.val →
    (j < reelB s.mod r.val ∨ (j - reelB s.mod r.val < fld s.mod (rRlLanded r.val) 31 0 ∧
      (reelAccum s.mod r.val = false ∨ tapsDone s.mod r.val (j - reelB s.mod r.val) = true))) →
    va = (if j < reelB s.mod r.val then fld s.mod (rRlSrc r.val) 56 6 * 64 + reelSegBytes s.mod r.val * j
      else reelBuf s.mod r.val + 65536 * ((j - reelB s.mod r.val) % reelZ s.mod r.val)) →
    rangeBusy s.mod (reelCtx s.mod r.val) va (reelSegBytes s.mod r.val) false = false →
    Gives (.reelSend r) s (fun t => fld t.mod (rRlCredit r.val) 15 0 = fld s.mod (rRlCredit r.val) 15 0 - 1 ∧
      reelAt t.mod r.val = { reelAt s.mod r.val with
        sending := some ⟨reelSegBytes s.mod r.val, false⟩, next := j + 1 } ∧
      (eccRead s.mod (reelCtx s.mod r.val) va (reelSegBytes s.mod r.val) none = s.mod → t.mod.mem = s.mod.mem ∧
        (portUsable s.mod (fld s.mod (rRlRing r.val) 10 8) = true →
          Sent s t (fld s.mod (rRlRing r.val) 10 8) (vaBytes s.mod (reelCtx s.mod r.val) va (reelSegBytes s.mod r.val)) 1)))) ∧
  (∀ (r : Fin 16) (s : State) (g : RlSending), (reelAt s.mod r.val).sending = some g → Gives (.reelSegmentSent r) s (fun t =>
    reelAt t.mod r.val = { reelAt s.mod r.val with sending := none } ∧
    (rd t.mod (rRlSent r.val)).toNat = (if g.old then (rd s.mod (rRlSent r.val)).toNat
      else ((rd s.mod (rRlSent r.val)).toNat + 1) % 2 ^ 32) ∧
    (rd t.mod (rRlBytes r.val)).toNat = min ((rd s.mod (rRlBytes r.val)).toNat + g.bytes) (2 ^ 48 - 1) ∧ t.mod.mem = s.mod.mem))

/-- R327, R332, R334 to R337, R341, R342, R386: a collective stream starts, is refused or aborts; what arrives of another group or
epoch, or of a run that is not running, is dropped and counted; a partial goes to the landing area, a result to its lines of the
result buffer and exchange rows to their region, and then the stream goes on as far as its operands and credits allow; a credit is
held for its dimension and direction, or lets the partial leave that waits for it; a stream without progress is stalled. (The
model's own readings in it: logs 20 and 41.) -/
def Obligations.CollectiveStreams : Prop :=
  (∀ (fn : Fn) (i : Stream) (s : State) (ok : Bool), Reaches s.mod fn (rCsGo i.val) →
    ok = (fld s.mod (rCsCtl i.val) 0 0 == 1 && decide (csPart s.mod i.val ≤ 11) && grpState s.mod (csPart s.mod i.val) == 2 &&
      csAllowed s.mod i.val && ctxOf s.mod (csCtx s.mod i.val) (csPart s.mod i.val) && csMapped s.mod i.val) →
    (ok = true → Gives (.csGoStart fn i) s (fun t => csStatus t.mod i.val = 1 ∧ fld t.mod (rCsGo i.val) 0 0 = 1 ∧
      csRun t.mod i.val = (csRun s.mod i.val + 1) % 256 ∧ fld t.mod (rCsGo i.val) 20 20 = 0 ∧
      (∀ o ∈ [rCsDrop i.val, rCsWaitP i.val, rCsWaitL i.val], rd t.mod o = 0) ∧
      csAt t.mod i.val = StreamSt.reset ∧ fld t.mod rSwNf (csPart s.mod i.val) (csPart s.mod i.val) = 0 ∧
      KeepsRegs s.mod t.mod [rCsGo i.val, rCsDrop i.val, rCsWaitP i.val, rCsWaitL i.val, rSwNf, rCsOwn i.val] ∧ t.mod.mem = s.mod.mem)) ∧
    (ok = false → Gives (.csGoStart fn i) s (fun t => csStatus t.mod i.val = 3 ∧ fld t.mod (rCsErr i.val) 0 0 = 1 ∧
      KeepsRegs s.mod t.mod [rCsGo i.val, rCsErr i.val] ∧ t = { s with mod := { s.mod with regs := t.mod.regs } })) ∧
    Gives (.csGoAbort fn i) s (fun t => if csRuns s.mod i.val = true then csStatus t.mod i.val = 4 ∧ fld t.mod (rCsGo i.val) 0 0 = 0 ∧
      KeepsRegs s.mod t.mod [rCsGo i.val] ∧ t = { s with mod := { s.mod with regs := t.mod.regs } } else t = s)) ∧
  (∀ (i : Stream) (key : MsgKey) (run : Byte) (s : State) (cmd : Instr) (drop : Nat),
    ((∃ c : CollMsg, cmd = .collPartial i c ∧ key = ⟨c.tag, c.epoch⟩ ∧ run = c.run) ∨ (∃ d asc, cmd = .collSlotCredit i ⟨key, run, d, asc⟩) ∨
      (∃ src first rows count, cmd = .exchangeRows i ⟨key, run, src, first⟩ rows count)) →
    (grpMatch s.mod (csPart s.mod i.val) key = false ∧ drop = 3 ∨
      grpMatch s.mod (csPart s.mod i.val) key = true ∧ (csRuns s.mod i.val = false ∨ run.toNat ≠ csRun s.mod i.val) ∧ drop = 6) →
    Gives cmd s (fun t => Counted s.mod t.mod (rZwDrop drop) ∧ t.mod.streams = s.mod.streams ∧ t.mod.mem = s.mod.mem)) ∧
  (∀ (i : Stream) (c : CollMsg) (s : State), grpMatch s.mod (csPart s.mod i.val) ⟨c.tag, c.epoch⟩ = true → csRuns s.mod i.val = true →
    c.run.toNat = csRun s.mod i.val →
    (c.result = false → Gives (.collPartial i c) s (fun t =>
      ∃ m', t = { s with mod := csAdvance m' i.val } ∧ csStatus m' i.val = 1 ∧
        csAt m' i.val = { csAt s.mod i.val with arrived := (csAt s.mod i.val).arrived ++ [⟨c.dim.val, c.asc, false, c.q, c.lo, c.data⟩] })) ∧
    (∀ bs, bs = c.data.flatMap (fun w => leBytes 4 w.toNat) → c.result = true →
      rangeBusy s.mod (csCtx s.mod i.val) (csRbuf s.mod i.val + 64 * c.lo) bs.length true = false → Gives (.collPartial i c) s (fun t =>
      ∃ m', t = { s with mod := csAdvance m' i.val } ∧ csStatus m' i.val = 1 ∧
        m'.mem = (vaPuts s.mod (csCtx s.mod i.val) (csRbuf s.mod i.val + 64 * c.lo) bs).mem ∧
        ∀ l, sget (fun _ => false) (csAt m' i.val).landed l = (sget (fun _ => false) (csAt s.mod i.val).landed l ||
          decide (c.lo ≤ l ∧ l < c.lo + (c.data.length + 15) / 16))))) ∧
  (∀ (i : Stream) (key : MsgKey) (run : Byte) (d : Fin 3) (asc : Bool) (s : State), grpMatch s.mod (csPart s.mod i.val) key = true →
    csRuns s.mod i.val = true → run.toNat = csRun s.mod i.val →
    ((csAt s.mod i.val).waiting.find? (fun c => c.dim == d.val && c.asc == asc) = none →
      Gives (.collSlotCredit i ⟨key, run, d, asc⟩) s (fun t => csAt t.mod i.val = { csAt s.mod i.val with
          credits := (csAt s.mod i.val).credits.set (2 * d.val + b2n asc)
            (min 8 ((csAt s.mod i.val).credits.getD (2 * d.val + b2n asc) 0 + 1)) } ∧
        t = { s with mod := { s.mod with streams := t.mod.streams } })) ∧
    (∀ c, (csAt s.mod i.val).waiting.find? (fun c => c.dim == d.val && c.asc == asc) = some c →
      Gives (.collSlotCredit i ⟨key, run, d, asc⟩) s (fun t => t = { s with mod := csAdvance (csProgress
        (csSend (setCs s.mod i.val { csAt s.mod i.val with waiting := (csAt s.mod i.val).waiting.erase c }) i.val c) i.val) i.val }))) ∧
  (∀ (i : Stream) (key : MsgKey) (run : Byte) (src first : Nat) (rows : List Byte) (count w va : Nat) (s : State),
    grpMatch s.mod (csPart s.mod i.val) key = true → csRuns s.mod i.val = true → run.toNat = csRun s.mod i.val → w = csRowBytes s.mod i.val →
    va = csRbuf s.mod i.val + (w * csCap s.mod i.val * src + w * first) →
    ((csKind s.mod i.val ≠ 3 ∨ csMembers s.mod i.val ≤ src ∨ csCap s.mod i.val < count) →
      Gives (.exchangeRows i ⟨key, run, src, first⟩ rows count) s (fun t =>
        Counted s.mod t.mod (rZwDrop 6) ∧ t.mod.streams = s.mod.streams ∧ t.mod.mem = s.mod.mem)) ∧
    (csKind s.mod i.val = 3 → src < csMembers s.mod i.val → count ≤ csCap s.mod i.val →
      rangeBusy s.mod (csCtx s.mod i.val) va (rows.take (w * (csCap s.mod i.val - first))).length true = false →
      Gives (.exchangeRows i ⟨key, run, src, first⟩ rows count) s (fun t => ∃ m', t = { s with mod := csAdvance m' i.val } ∧ csStatus m' i.val = 1 ∧
        sget (fun _ => 0) (csAt m' i.val).rowsIn src = sget (fun _ => 0) (csAt s.mod i.val).rowsIn src + rows.length / w ∧
        (count ≤ sget (fun _ => 0) (csAt s.mod i.val).rowsIn src + rows.length / w → src ∈ (csAt m' i.val).sources) ∧
        (sget (fun _ => 0) (csAt s.mod i.val).rowsIn src + rows.length / w < count →
          m'.mem = (vaPuts s.mod (csCtx s.mod i.val) va (rows.take (w * (csCap s.mod i.val - first)))).mem)))) ∧
  (∀ (i : Stream) (s : State), csStatus s.mod i.val = 1 → fld s.mod (rCsStall i.val) 23 0 ≠ 0 → Gives (.csStallTimeout i) s (fun t =>
    csStatus t.mod i.val = 5 ∧ fld t.mod (rCsErr i.val) 2 2 = 1 ∧ t.mod.streams = s.mod.streams ∧ t.mod.mem = s.mod.mem))

/-- R318, R319, R323, R346: the states of a port. It goes Down when its signal or its frames fail, in training and Miswired too, and from
Up on a retrain; every entry into Down is counted; it trains from Down; training ends Up with the peer that the torus gives it, and otherwise Down or Miswired. -/
def Obligations.PortStates : Prop :=
  ∀ (q : Port) (s : State), NoCensusOver s.mod q.val →
    (portState s.mod q.val = 3 → Gives (.portSignalLoss q) s (fun t => WentDown s.mod t.mod q.val) ∧
      Gives (.portFrameTimeout q) s (fun t => WentDown s.mod t.mod q.val) ∧
      ((portAt s.mod q.val).committed = false → Gives (.retrain q) s (fun t => WentDown s.mod t.mod q.val) ∧
        ∀ fn, Reaches s.mod fn (rPortCmd q.val) → Gives (.portCmdRetrain fn q) s (fun t => WentDown s.mod t.mod q.val)) ∧
      ((portAt s.mod q.val).committed = true → Gives (.retrain q) s (fun t => PortStep s t q.val { portAt s.mod q.val with latched := true }))) ∧
    (portState s.mod q.val = 5 →
      Gives (.portSignalLoss q) s (fun t => portState t.mod q.val = 1 ∧ fld t.mod (rPortErr q.val) 0 0 = 1 ∧ Counted s.mod t.mod (rPortRetrain q.val)) ∧
      Gives (.portFrameTimeout q) s (fun t => portState t.mod q.val = 1 ∧ fld t.mod (rPortErr q.val) 0 0 = 1 ∧
        Counted s.mod t.mod (rPortRetrain q.val))) ∧
    (portState s.mod q.val = 2 → Gives (.portSignalLoss q) s (fun t => EntersDown s t q.val)) ∧
    (portState s.mod q.val = 1 → Gives (.portRetrainTimer q) s (fun t =>
      RegStep s t [(rPortStat q.val, put (rd s.mod (rPortStat q.val)) 2 0 2)])) ∧
    (portState s.mod q.val = 1 ∨ portState s.mod q.val = 5 →
      Gives (.retrain q) s (fun t => RegStep s t [(rPortStat q.val, put (rd s.mod (rPortStat q.val)) 2 0 2)]) ∧
      ∀ fn, Reaches s.mod fn (rPortCmd q.val) → Gives (.portCmdRetrain fn q) s (fun t =>
        RegStep s t [(rPortStat q.val, put (rd s.mod (rPortStat q.val)) 2 0 2)])) ∧
    (∀ (lanes : Nat) (peer : BitVec 15) (peerPort : Port), portState s.mod q.val = 1 ∨ portState s.mod q.val = 2 →
      (lanes ≠ 4 → Gives (.linkTrainDone q lanes peer peerPort) s (fun t => EntersDown s t q.val)) ∧
      (lanes = 4 → peerOk s.mod q.val peer.toNat peerPort.val = true → Gives (.linkTrainDone q lanes peer peerPort) s (fun t =>
        portState t.mod q.val = 3 ∧ fld t.mod (rPortStat q.val) 22 8 = peer.toNat ∧ (portAt t.mod q.val).credits = linkCredits ∧
        bit (rd t.mod (rLinemap (q.val / 2))) (linkBit s.mod q.val) = false)) ∧
      (lanes = 4 → peerOk s.mod q.val peer.toNat peerPort.val = false → Gives (.linkTrainDone q lanes peer peerPort) s (fun t =>
        portState t.mod q.val = 5 ∧ fld t.mod (rPortErr q.val) 1 1 = 1 ∧ fld t.mod (rPortStat q.val) 22 8 = peer.toNat ∧
        KeepsRegs s.mod t.mod [rPortStat q.val, rPortErr q.val] ∧ t = { s with mod := { s.mod with regs := t.mod.regs } })))

/-- R179, R315 to R317, R320 to R325, R327, R421: frames and messages. A frame that cannot be corrected is counted; the next frame
in order is accepted, with its acknowledgement and its credits, and any other asks for a replay; a request for a replay sends the
frames after the acknowledged one again as they were. A message is dropped when it is malformed, when its partition is not enabled
and when there is no route; one for another module leaves by its route, but for a reel segment that came over a link, and one for
a module in standby wakes it; a message that leaves the input buffer owes its flits as credits. (The model's own readings in it:
logs 28, 29 and 39.) -/
def Obligations.FramesAndRoutes : Prop :=
  (∀ (q : Port) (bs : List Byte) (s : State) (x : PortSt), portState s.mod q.val = 3 → x = portAt s.mod q.val →
    (frameData bs = none → x.rejects + 1 < 16 → Gives (.linkFrame q bs) s (fun t =>
      Counted s.mod t.mod (rPortUncorr q.val) ∧ fld t.mod (rPortErr q.val) 3 3 = 1 ∧
      portAt t.mod q.val = { x with symbols := x.symbols + 1344, rejects := x.rejects + 1, nakOut := true } ∧
      portState t.mod q.val = 3 ∧ KeepsRegs s.mod t.mod [rPortUncorr q.val, rPortErr q.val])) ∧
    (∀ d n ctl, frameData bs = some (d, n) → ctl = leNat (d.drop 1280) → nbits ctl 155 152 ≠ 5 →
      (nbits ctl 125 125 = 0 → nbits ctl 111 100 = x.rxSeq → Gives (.linkFrame q bs) s (fun t =>
        (portAt t.mod q.val).rxSeq = (if (List.range 20).any (fun i => nbits ctl (5 * i + 1) (5 * i) != 0)
          then (x.rxSeq + 1) % 4096 else x.rxSeq) ∧
        (portAt t.mod q.val).kept = (if nbits ctl 124 124 = 1 then keptAfter x (nbits ctl 123 112) else x.kept) ∧
        (portAt t.mod q.val).credits = (creditReturn (creditReturn x (nbits ctl 138 126)) (nbits ctl 151 139)).credits ∧
        (portAt t.mod q.val).rejects = 0 ∧
        (rd t.mod (rPortCorr q.val)).toNat = min ((rd s.mod (rPortCorr q.val)).toNat + n) (2 ^ 48 - 1))) ∧
      (nbits ctl 125 125 = 0 → nbits ctl 155 152 = 0 → nbits ctl 111 100 ≠ x.rxSeq → Gives (.linkFrame q bs) s (fun t =>
        portAt t.mod q.val = { x with symbols := x.symbols + 1344, rejects := 0, nakOut := true
                                      kept := if nbits ctl 124 124 = 1 then keptAfter x (nbits ctl 123 112) else x.kept })) ∧
      (nbits ctl 125 125 = 1 → keptAfter x (nbits ctl 123 112) ≠ [] → (x.nakAt = nbits ctl 123 112 → x.nakCount + 1 < 8) →
        Gives (.linkFrame q bs) s (fun t => (portAt t.mod q.val).again = (keptAfter x (nbits ctl 123 112)).map (·.2) ∧
          Counted s.mod t.mod (rPortReplay q.val) ∧ fld t.mod (rPortErr q.val) 2 2 = 1)))) ∧
  (∀ (q : ArrivePort) (h : Head) (body : List Byte) (s : State) (typ p dst : Nat), typ = bits (h.getD 0 0) 39 32 → p = bits (h.getD 0 0) 54 51 →
    dst = bits (h.getD 0 0) 14 0 →
    (malformed h body → Gives (.messageRoute q h body) s (fun t => Counted s.mod t.mod (rZwDrop 0) ∧ t.mod.tx = s.mod.tx)) ∧
    (∀ off : Prop, off = (if p = 12 then (0x10 ≤ typ ∧ typ ≤ 0x12) ∨ (0x20 ≤ typ ∧ typ ≤ 0x22) ∨ typ = 0x30 else notEnabled s.mod typ p = true) →
      ¬ malformed h body → nextDim s.mod dst = none → modState s.mod = 0 →
      (off → Gives (.messageRoute q h body) s (fun t => Counted s.mod t.mod (rZwDrop 4) ∧ t.mod.tx = s.mod.tx)) ∧
      (¬ off → Gives (.messageRoute q h body) s (fun t => (q = .own → t = s) ∧ ∀ r cls, q = .port r cls →
        t.mod = bufferOut s.mod r.val (2 * bits (h.getD 0 0) 31 30 + b2n cls) (1 + (body.length + 63) / 64)))) ∧
    (¬ malformed h body → nextDim s.mod dst = none → modState s.mod ≠ 0 → Gives (.messageRoute q h body) s (fun t =>
      t = { s with mod := modWake s.mod })) ∧
    (∀ d, ¬ malformed h body → nextDim s.mod dst = some d →
      (∀ r cls, (typ = 1 → q = .own) → outputOf s.mod q dst d = some (r, cls) → Gives (.messageRoute q h body) s (fun t =>
        t.mod.tx = s.mod.tx ++ [⟨r, cls, h, body, 0, false⟩] ∧ KeepsRegs s.mod t.mod [])) ∧
      ((typ = 1 ∧ q ≠ .own ∨ outputOf s.mod q dst d = none) → Gives (.messageRoute q h body) s (fun t =>
        Counted s.mod t.mod (rZwDrop 1) ∧ t.mod.tx = s.mod.tx)))) ∧
  (∀ (m : Mod) (q ch n k : Nat), k = min n ((portAt m q).held.getD ch 0) → portAt (bufferOut m q ch n) q = { portAt m q with
    held := (portAt m q).held.set ch ((portAt m q).held.getD ch 0 - k), owed := (portAt m q).owed.set ch ((portAt m q).owed.getD ch 0 + k) }) ∧
  (∀ (q : Port) (dim : Fin 3) (coord : Fin 32) (down : Bool) (s : State),
    (q.val / 2 ≠ dim.val ∨ bit (rd s.mod (rLinemap dim.val)) coord.val = down → Gives (.lineStateAnnounce q dim coord down) s (fun t => t = s)) ∧
    (q.val / 2 = dim.val → bit (rd s.mod (rLinemap dim.val)) coord.val ≠ down → ∀ r, r = (if q.val % 2 = 0 then q.val + 1 else q.val - 1) →
      Gives (.lineStateAnnounce q dim coord down) s (fun t => bit (rd t.mod (rLinemap dim.val)) coord.val = down ∧
        (portUsable s.mod r = true → Sent s t r [] 0x24) ∧ (portUsable s.mod r = false → t.mod.tx = s.mod.tx) ∧
        KeepsRegs s.mod t.mod [rLinemap dim.val])))

/-- R343, R344, R346: link sleep. A port whose queue is empty asks to sleep when it has been idle or is told to; the peer's next
frame answers, and commits it unless traffic is on its way; a refusal keeps the port Up; a cancel, or traffic, after the
commitment is a wake, which begins the exit as soon as the port sleeps. (The model's own readings in it: log 28.) -/
def Obligations.LinkSleep : Prop :=
  ∀ (q : Port) (s : State) (x : PortSt), x = portAt s.mod q.val →
    (portState s.mod q.val = 3 → x.requested = false → x.committed = false → x.asked = false → portQuiet s.mod q.val = true →
      (fld s.mod (rPortCtl q.val) 1 1 = 1 → fld s.mod (rPortCtl q.val) 23 8 ≠ 0 →
        Gives (.linkSleepIdle q) s (fun t => PortStep s t q.val { x with requested := true, busy := false, cmds := x.cmds ++ [1] })) ∧
      (∀ fn, Reaches s.mod fn (rPortCmd q.val) →
        Gives (.portCmdSleepNow fn q) s (fun t => PortStep s t q.val { x with requested := true, busy := false, cmds := x.cmds ++ [1] }))) ∧
    (portQuiet s.mod q.val = false → Gives (.linkSleepIdle q) s (fun t => t = s)) ∧
    (portState s.mod q.val = 3 → x.committed = false →
      Gives (.sleepReq q) s (fun t => PortStep s t q.val { x with asked := true, headSeen := false })) ∧
    (x.asked = true → x.committed = false → x.again = [] → ∀ y, y = portAt (portFrame s.mod q.val) q.val →
      y.asked = false ∧ y.committed = (portQuiet s.mod q.val && !x.headSeen)) ∧
    (portState s.mod q.val = 3 → x.requested = true →
      Gives (.sleepAck q) s (fun t => PortStep s t q.val
        { x with requested := false, committed := true, latched := x.latched || x.busy, busy := false }) ∧
      Gives (.sleepNak q) s (fun t => portAt t.mod q.val = { x with requested := false, busy := false } ∧ portState t.mod q.val = 3 ∧
        rd t.mod (rPortErr q.val) = put (rd s.mod (rPortErr q.val)) 5 5 1 ∧ KeepsRegs s.mod t.mod [rPortErr q.val] ∧
        t.mod = { s.mod with regs := t.mod.regs, ports := t.mod.ports })) ∧
    (x.committed = true → Gives (.cancel q) s (fun t => PortStep s t q.val { x with latched := true })) ∧
    (x.committed = false → Gives (.cancel q) s (fun t => if x.asked = true then PortStep s t q.val { x with headSeen := true } else t = s)) ∧
    (portState s.mod q.val = 3 → x.committed = true → Gives (.linkSleepEntryDone q) s (fun t => portState t.mod q.val = 4 ∧
      portAt t.mod q.val = { x with committed := false, sleepFrom := s.mod.hclk, exiting := x.exiting || x.latched, latched := false } ∧
      KeepsRegs s.mod t.mod [rPortStat q.val] ∧ t.mod = { s.mod with regs := t.mod.regs, ports := t.mod.ports })) ∧
    (portState s.mod q.val = 4 → x.exiting = false → Gives (.linkWake q) s (fun t => PortStep s t q.val { x with exiting := true, latched := false }) ∧
      Gives (.retrain q) s (fun t => PortStep s t q.val { x with exiting := true, latched := false }) ∧
      ∀ fn, Reaches s.mod fn (rPortCmd q.val) →
        Gives (.portCmdWake fn q) s (fun t => PortStep s t q.val { x with exiting := true, latched := false })) ∧
    (portState s.mod q.val = 4 → x.exiting = true → Gives (.linkSleepExitDone q) s (fun t => portState t.mod q.val = 3 ∧
      portAt t.mod q.val = { x with exiting := false } ∧ KeepsRegs s.mod t.mod [rPortStat q.val, rPortSlept q.val] ∧
      (rd t.mod (rPortSlept q.val)).toNat = min ((rd s.mod (rPortSlept q.val)).toNat + (s.mod.hclk - x.sleepFrom)) (2 ^ 48 - 1) ∧
      t.mod = { s.mod with regs := t.mod.regs, ports := t.mod.ports }))

/-- R327 to R333, R485: what a census, its replies and the control messages do. A census for no group, or of another group or
epoch, is dropped; one that is known, or that reaches the anchor or a Held member, changes nothing; any other goes on, from the
anchor to every port into the box and from a member to the member-facing ones, which then owe an answer. A reply to the census in
progress is counted; an acknowledged message is not sent again. (The model's own readings in it: logs 20 and 43.) -/
def Obligations.GroupCensus : Prop :=
  (∀ (p : Part) (q : Port) (tag : W16) (epoch wave : W32) (s : State) (g : GroupSt) (other : Prop), g = grpAt s.mod p.val →
    other = (tag.toNat ≠ grpId s.mod p.val ∨ (grpState s.mod p.val = 2 ∨ grpState s.mod p.val = 3) ∧ epoch.toNat ≠ grpEpoch s.mod p.val) →
    (fld s.mod (rGrpCtl p.val) 0 0 = 0 → Gives (.census p q ⟨tag, epoch, wave⟩) s (fun t =>
      Counted s.mod t.mod (rZwDrop 4) ∧ grpAt t.mod p.val = g ∧ GroupOnly s t)) ∧
    (fld s.mod (rGrpCtl p.val) 0 0 = 1 → other →
      Gives (.census p q ⟨tag, epoch, wave⟩) s (fun t => Counted s.mod t.mod (rZwDrop 3) ∧
        (tag.toNat = grpId s.mod p.val → fld t.mod (rGrpErr p.val) 1 1 = 1) ∧ grpAt t.mod p.val = g ∧ GroupOnly s t)) ∧
    (fld s.mod (rGrpCtl p.val) 0 0 = 1 → ¬ other → grpState s.mod p.val = 4 ∨ grpAnchorHere s.mod p.val = true ∨
        (g.wave = wave.toNat ∧ g.parent.any (portUsable s.mod) = true) →
      Gives (.census p q ⟨tag, epoch, wave⟩) s (fun t => grpAt t.mod p.val = g ∧ grpState t.mod p.val = grpState s.mod p.val ∧ GroupOnly s t)) ∧
    (fld s.mod (rGrpCtl p.val) 0 0 = 1 → ¬ other → grpState s.mod p.val ≠ 4 → grpAnchorHere s.mod p.val = false →
      (g.wave = wave.toNat → g.parent.any (portUsable s.mod) = false) → censusPorts s.mod p.val (some q.val) ≠ [] →
      Gives (.census p q ⟨tag, epoch, wave⟩) s (fun t => grpAt t.mod p.val = censusOpened s.mod p.val (some q.val) wave.toNat false g ∧
        grpState t.mod p.val = grpState s.mod p.val ∧ s.mod.tx.length < t.mod.tx.length ∧ GroupOnly s t))) ∧
  (∀ (p : Part) (q : Port) (child : Bool) (tag : W16) (epoch wave : W32) (members : List Nat) (s : State) (g : GroupSt) (other : Prop),
    g = grpAt s.mod p.val →
    other = (tag.toNat ≠ grpId s.mod p.val ∨ (grpState s.mod p.val = 2 ∨ grpState s.mod p.val = 3) ∧ epoch.toNat ≠ grpEpoch s.mod p.val) →
    (g.warm = false → other → Gives (.censusReply p q child ⟨tag, epoch, wave⟩ members) s (fun t => Counted s.mod t.mod (rZwDrop 3) ∧
        (tag.toNat = grpId s.mod p.val → fld t.mod (rGrpErr p.val) 1 1 = 1) ∧ grpAt t.mod p.val = g ∧ GroupOnly s t)) ∧
    (g.warm = false → ¬ other → g.wave ≠ wave.toNat → Gives (.censusReply p q child ⟨tag, epoch, wave⟩ members) s (fun t =>
      grpAt t.mod p.val = g ∧ GroupOnly s t)) ∧
    (g.warm = false → ¬ other → g.wave = wave.toNat → g.censusOpen = true → q.val ∈ g.awaiting →
      g.awaiting.erase q.val ≠ [] → Gives (.censusReply p q child ⟨tag, epoch, wave⟩ members) s (fun t =>
        grpAt t.mod p.val = (if child then { g with awaiting := g.awaiting.erase q.val, children := g.children ++ [q.val]
                                                    reached := g.reached ++ members.filter (fun c => !g.reached.contains c) }
          else { g with awaiting := g.awaiting.erase q.val }) ∧ GroupOnly s t)) ∧
    (g.warm = true → grpState s.mod p.val = 2 → tag.toNat = grpId s.mod p.val → epoch.toNat ≤ grpEpoch s.mod p.val →
      Gives (.censusReply p q child ⟨tag, epoch, wave⟩ members) s (fun t =>
        grpAt t.mod p.val = { g with warm := false } ∧ grpState t.mod p.val = 2 ∧ GroupOnly s t))) ∧
  (∀ (p : Part) (s : State), grpState s.mod p.val = 1 → grpAnchorHere s.mod p.val = true → boxPorts s.mod p.val ≠ [] →
    Gives (.anchorCensusRepeat p) s (fun t =>
      grpAt t.mod p.val = censusOpened s.mod p.val none (((grpAt s.mod p.val).wave + 1) % 2 ^ 32) false (grpAt s.mod p.val) ∧
      s.mod.tx.length < t.mod.tx.length ∧ GroupOnly s t)) ∧
  (∀ (q : Port) (key : Nat) (s : State) (u : Nat × TxMsg), s.mod.unacked.find? (fun u => u.1 == key && u.2.port == q.val) = some u →
    portUsable s.mod q.val = true → Gives (.controlResend q key) s (fun t =>
      t.mod.tx = s.mod.tx ++ [⟨q.val, u.2.cls, u.2.head, u.2.body, 0, false⟩] ∧ t.mod.unacked = s.mod.unacked ∧ GroupOnly s t)) ∧
  (∀ (q : Port) (key : Nat) (s : State), Gives (.controlAck q key) s (fun t => t = { s with mod := { s.mod with
    unacked := s.mod.unacked.filter (fun u => !(u.1 == key && u.2.port == q.val)) } }))

/-- R330, R331, R345: formation, re-formation and holds. Form reads the map; NEW_GROUP makes a member Formed with the epoch, the
members in rank order and its rank; a lost link, a request, or a reform command makes it Reforming; HOLD or silence holds it;
leave puts it out of every group. A command in a state that does not take it is ignored. (The model's own readings in it: logs 20
and 43.) -/
def Obligations.GroupFormation : Prop :=
  (∀ (fn : Fn) (p : Part) (s : State), Reaches s.mod fn (rGrpCmd p.val) → ∀ ok, ok = (grpState s.mod p.val == 0 && fld s.mod (rGrpCtl p.val) 0 0 == 1 &&
      ctxOf s.mod (fld s.mod (rGrpCtl p.val) 15 4) p.val && rangeMapped s.mod (fld s.mod (rGrpCtl p.val) 15 4) (fld s.mod (rGrpMap p.val) 56 12 * 4096) 4096) →
    (ok = false → Gives (.groupForm fn p) s (fun t => RegStep s t [(rGrpErr p.val, put (rd s.mod (rGrpErr p.val)) 0 0 1)])) ∧
    (ok = true → rangeBusy s.mod (fld s.mod (rGrpCtl p.val) 15 4) (fld s.mod (rGrpMap p.val) 56 12 * 4096) 4096 false = false →
      (grpAnchorHere s.mod p.val = false → Gives (.groupForm fn p) s (fun t => rd t.mod (rGrpStat p.val) = 1 ∧ rd t.mod (rGrpEpoch p.val) = 0 ∧
      grpAt t.mod p.val = { GroupSt.reset with members := readMap s.mod p.val, wave := (grpAt s.mod p.val).wave } ∧ KeepsRegs s.mod t.mod [rGrpStat p.val, rGrpEpoch p.val] ∧ GroupOnly s t)) ∧
      (grpAnchorHere s.mod p.val = true → boxPorts s.mod p.val ≠ [] → Gives (.groupForm fn p) s (fun t =>
      rd t.mod (rGrpStat p.val) = 9 ∧ rd t.mod (rGrpEpoch p.val) = 0 ∧
      grpAt t.mod p.val = censusOpened s.mod p.val none (((grpAt s.mod p.val).wave + 1) % 2 ^ 32) false
        { GroupSt.reset with members := readMap s.mod p.val } ∧ GroupOnly s t))) ∧
    (grpState s.mod p.val = 2 → grpAnchorHere s.mod p.val = true → boxPorts s.mod p.val ≠ [] → Gives (.groupReform fn p) s (fun t =>
      grpState t.mod p.val = 3 ∧ (grpAt t.mod p.val).censusOpen = true ∧ (grpAt t.mod p.val).parent = none ∧ GroupOnly s t)) ∧
    ((grpState s.mod p.val ≠ 2 ∨ grpAnchorHere s.mod p.val = false) → Gives (.groupReform fn p) s (fun t =>
      RegStep s t [(rGrpErr p.val, put (rd s.mod (rGrpErr p.val)) 0 0 1)])) ∧
    (grpState s.mod p.val = 4 → grpAnchorHere s.mod p.val = true → boxPorts s.mod p.val ≠ [] → Gives (.groupForcedReform fn p) s (fun t =>
      grpAt t.mod p.val = censusOpened s.mod p.val none (((grpAt s.mod p.val).wave + 1) % 2 ^ 32) true (grpAt s.mod p.val) ∧ grpState t.mod p.val = 4 ∧ GroupOnly s t)) ∧
    ((grpState s.mod p.val ≠ 4 ∨ grpAnchorHere s.mod p.val = false) → Gives (.groupForcedReform fn p) s (fun t =>
      RegStep s t [(rGrpErr p.val, put (rd s.mod (rGrpErr p.val)) 0 0 1)])) ∧
    (grpState s.mod p.val ≠ 0 → Gives (.groupLeave fn p) s (fun t => rd t.mod (rGrpStat p.val) = 0 ∧ grpAt t.mod p.val = { GroupSt.reset with wave := (grpAt s.mod p.val).wave } ∧
      (∀ i, i < 64 → csPart s.mod i = p.val → csRuns t.mod i = false) ∧ GroupOnly s t)) ∧
    (grpState s.mod p.val = 0 → Gives (.groupLeave fn p) s (fun t => RegStep s t [(rGrpErr p.val, put (rd s.mod (rGrpErr p.val)) 0 0 1)]))) ∧
  (∀ (p : Part) (q : Port) (tag : W16) (epoch : W32) (members : List Nat) (s : State), fld s.mod (rGrpCtl p.val) 0 0 = 1 →
    grpState s.mod p.val = 0 ∨ grpState s.mod p.val = 1 → tag.toNat = grpId s.mod p.val → epochOld s.mod p.val epoch = false → (grpAt s.mod p.val).parent = some q.val → grpAnchorHere s.mod p.val = false → prPhase s.mod p.val ≠ 3 → (prAt s.mod p.val).joined = false →
    Gives (.newGroup p q ⟨tag, epoch⟩ members) s (fun t => grpState t.mod p.val = 2 ∧ grpEpoch t.mod p.val = epoch.toNat ∧
      (grpAt t.mod p.val).members = sortRank s.mod p.val members ∧ (grpAt t.mod p.val).censusOpen = false ∧
      (rd t.mod (rGrpRank p.val)).toNat = indexOf (myCoord s.mod) (sortRank s.mod p.val members) % 2 ^ 64 ∧
      fld t.mod (rGrpStat p.val) 31 16 = (sortRank s.mod p.val members).length % 65536 ∧ GroupOnly s t)) ∧
  (∀ (p : Part) (q : Port) (s : State), grpAnchorHere s.mod p.val = false → grpState s.mod p.val = 2 →
    (∀ key, fld s.mod (rGrpCtl p.val) 0 0 = 1 → grpMatch s.mod p.val key = true → Gives (.reformReq p ⟨q, key⟩) s (fun t => grpState t.mod p.val = 3 ∧ (grpAt t.mod p.val).censusOpen = false ∧ GroupOnly s t)) ∧
    (neighbour s.mod q.val ∈ (grpAt s.mod p.val).members → portUsable s.mod q.val = false → Gives (.grpLinkTimeout p q) s (fun t =>
      grpState t.mod p.val = 3 ∧ (grpAt t.mod p.val).censusOpen = false ∧ GroupOnly s t))) ∧
  (∀ (p : Part) (q : Port) (key : MsgKey) (s : State), fld s.mod (rGrpCtl p.val) 0 0 = 1 → grpMatch s.mod p.val key = false → ∀ c,
    (c = .reformReq p ⟨q, key⟩ ∨ c = .hold p ⟨q, key⟩) → Gives c s (fun t => Counted s.mod t.mod (rZwDrop 3) ∧
      (key.tag.toNat = grpId s.mod p.val → fld t.mod (rGrpErr p.val) 1 1 = 1) ∧ grpAt t.mod p.val = grpAt s.mod p.val ∧ GroupOnly s t)) ∧
  (∀ (p : Part) (q : Port) (s : State), grpState s.mod p.val = 3 →
    (∀ key, fld s.mod (rGrpCtl p.val) 0 0 = 1 → grpMatch s.mod p.val key = true → (grpAt s.mod p.val).parent = some q.val →
      Gives (.hold p ⟨q, key⟩) s (fun t => grpState t.mod p.val = 4 ∧
      (grpAt t.mod p.val).censusOpen = false ∧ GroupOnly s t)) ∧
    (prPhase s.mod p.val = 0 → Gives (.reformingTimeout p) s (fun t => grpState t.mod p.val = 4 ∧ fld t.mod (rGrpErr p.val) 3 3 = 1 ∧
      (grpAt t.mod p.val).censusOpen = false ∧ GroupOnly s t)))

/-- R283 to R286, R290, R291, R293, R297, R302, R486: the commands of a print engine and the writes that act as one. An open in
Idle or Scrapped whose conditions hold opens the take: the attempt of the slate, the time, and in every core of the partition the
slate, the seed and a clear non-finite flag; otherwise it is refused. Close, skip and release move the phase they are for, and any
other phase ignores them. A write of enable just after a warm reset with no valid journal holds the engine. (The model's own
readings in it: logs 25 and 42.) -/
def Obligations.PrintCommands : Prop :=
  (∀ (fn : Fn) (p : Part) (s : State), Reaches s.mod fn (rPrCmd p.val) →
    ((prPhase s.mod p.val = 0 ∨ prPhase s.mod p.val = 6) →
      (openRefused s.mod p.val = true → Gives (.printOpen fn p) s (fun t => RegStep s t [(rPrErr p.val, put (rd s.mod (rPrErr p.val)) 1 1 1)])) ∧
      (openRefused s.mod p.val = false → fld s.mod (rSbCtl p.val) 0 0 = 0 → fld s.mod (rStrCtl p.val) 0 0 = 0 →
        (∀ i, i < 64 → fld s.mod (rCsCtl i) 0 0 = 0 ∨ csPart s.mod i ≠ p.val) → Gives (.printOpen fn p) s (fun t =>
          rd t.mod (rPrStat p.val) = put (put (rd s.mod (rPrStat p.val)) 15 8
            (sget (fun _ => 0) (prAt s.mod p.val).opened (rd s.mod (rPrSlate p.val)).toNat + 1)) 3 0 1 ∧
          rd t.mod (rPrTOpen p.val) = BitVec.ofNat 64 s.mod.hclk ∧ fld t.mod rSwNf p.val p.val = 0 ∧
          sget (fun _ => 0) (prAt t.mod p.val).opened (rd s.mod (rPrSlate p.val)).toNat =
            sget (fun _ => 0) (prAt s.mod p.val).opened (rd s.mod (rPrSlate p.val)).toNat + 1 ∧
          (prAt t.mod p.val).contributed = false ∧ (prAt t.mod p.val).acted = none ∧ (prAt t.mod p.val).fail = 0 ∧
          (∀ c, c ∈ coresOfPart s.mod p.val → coreAt t.mod c = { coreAt s.mod c with
            slate := rd s.mod (rPrSlate p.val), seed := rd s.mod (rPrSeed p.val), nonfinite := false }) ∧
          (∀ c, c ∉ coresOfPart s.mod p.val → coreAt t.mod c = coreAt s.mod c) ∧
          KeepsRegs s.mod t.mod [rPrStat p.val, rPrTOpen p.val, rSwNf] ∧
          t = { s with mod := { s.mod with regs := t.mod.regs, cores := t.mod.cores, prints := t.mod.prints, chans := t.mod.chans } }))) ∧
    (prPhase s.mod p.val ≠ 0 → prPhase s.mod p.val ≠ 6 → Gives (.printOpen fn p) s (fun t =>
      RegStep s t [(rPrErr p.val, put (rd s.mod (rPrErr p.val)) 0 0 1)])) ∧
    Gives (.printClose fn p) s (fun t => RegStep s t (if prPhase s.mod p.val = 1 then [(rPrStat p.val, put (rd s.mod (rPrStat p.val)) 3 0 2)]
      else [(rPrErr p.val, put (rd s.mod (rPrErr p.val)) 0 0 1)])) ∧
    (prPhase s.mod p.val = 6 →
      Gives (.printSkip fn p) s (fun t => rd t.mod (rPrStat p.val) = put (rd s.mod (rPrStat p.val)) 3 0 5 ∧
        KeepsRegs s.mod t.mod [rPrStat p.val] ∧ prAt t.mod p.val = { prAt s.mod p.val with skip := true } ∧
        t = { s with mod := { s.mod with regs := t.mod.regs, prints := t.mod.prints } }) ∧
      Gives (.printRelease fn p) s (fun t => RegStep s t [(rPrStat p.val, put (rd s.mod (rPrStat p.val)) 3 0 0)])) ∧
    (prPhase s.mod p.val ≠ 6 → Gives (.printSkip fn p) s (fun t => RegStep s t [(rPrErr p.val, put (rd s.mod (rPrErr p.val)) 0 0 1)])) ∧
    (prPhase s.mod p.val = 7 → fld s.mod (rPrStat p.val) 23 20 ≠ 4 → Gives (.printRelease fn p) s (fun t => prPhase t.mod p.val = 0 ∧
      fld t.mod (rPrStat p.val) 23 20 = 0 ∧ prAt t.mod p.val = { prAt s.mod p.val with leftOut := false } ∧ KeepsRegs s.mod t.mod [rPrStat p.val] ∧
      t = { s with mod := { s.mod with regs := t.mod.regs, prints := t.mod.prints } })) ∧
    (prPhase s.mod p.val = 7 → fld s.mod (rPrStat p.val) 23 20 = 4 → Gives (.printRelease fn p) s (fun t =>
      (prPhase t.mod p.val = (if (rd s.mod (rPrStaged p.val)).toNat < (prAt s.mod p.val).stagedHi then 8 else 4) ∧
        fld t.mod (rPrStat p.val) 23 20 = 0) ∨ (prPhase t.mod p.val = 7 ∧ fld t.mod (rPrStat p.val) 23 20 = 4))) ∧
    (prPhase s.mod p.val ≠ 6 → prPhase s.mod p.val ≠ 7 → Gives (.printRelease fn p) s (fun t =>
      RegStep s t [(rPrErr p.val, put (rd s.mod (rPrErr p.val)) 0 0 1)]))) ∧
  (∀ (fn : Fn) (p : Part) (val : W32) (s : State), Reaches s.mod fn (rPrCtl p.val) → ∀ v,
    v = BitVec.ofNat 64 (mixBits (rd s.mod (rPrCtl p.val)).toNat (nput val.toNat 0 0 1) 0xFFFFFFFB) →
    ((prAt s.mod p.val).warm = false → Gives (.printEnableWrite fn p val) s (fun t => RegStep s t [(rPrCtl p.val, v)])) ∧
    (∀ m', (prAt s.mod p.val).warm = true → rangeBusy s.mod (prCtx s.mod p.val) (jBase s.mod p.val) 256 false = false →
      m' = onPr (wr s.mod (rPrCtl p.val) v) p.val (fun x => { x with warm := false }) → journalRead m' p.val = none →
      eccRead m' (prCtx m' p.val) (jBase m' p.val) 256 (some 1) = m' → Gives (.printEnableWrite fn p val) s (fun t => rd t.mod (rPrCtl p.val) = v ∧ prPhase t.mod p.val = 7 ∧
        fld t.mod (rPrStat p.val) 23 20 = 6 ∧ fld t.mod (rPrErr p.val) 4 4 = 1 ∧ prAt t.mod p.val = { prAt s.mod p.val with warm := false } ∧
        KeepsRegs s.mod t.mod [rPrCtl p.val, rPrStat p.val, rPrErr p.val] ∧
        t = { s with mod := { s.mod with regs := t.mod.regs, prints := t.mod.prints } }))) ∧
  (∀ (fn : Fn) (p : Part) (val : W32) (s : State), Reaches s.mod fn (rPrLscaleP p.val) →
    Gives (.printLscalePWrite fn p val) s (fun t => RegStep s t (if prPhase s.mod p.val = 0 then
      [(rPrLscaleP p.val, put (rd s.mod (rPrLscaleP p.val)) 7 0 val.toNat), (rPrLscale p.val, put (rd s.mod (rPrLscale p.val)) 7 0 val.toNat)]
      else [(rPrErr p.val, put (rd s.mod (rPrErr p.val)) 0 0 1)]))) ∧
  (∀ (fn : Fn) (p : Part) (n : W32) (s : State) (ctl : W64) (k : Nat), Reaches s.mod fn (rPrModeCtl p.val) →
    ctl = (if modeState s.mod p.val = 1 then rd s.mod (rPrModeCtl p.val) else put (rd s.mod (rPrModeCtl p.val)) 4 0 n.toNat) →
    k = bits ctl 4 0 →
    (modeState s.mod p.val = 2 →
      Gives (.modeStage fn p n) s (fun t => RegStep s t [(rPrErr p.val, put (rd s.mod (rPrErr p.val)) 0 0 1)]) ∧
      Gives (.modeWithdraw fn p n) s (fun t => RegStep s t [(rPrErr p.val, put (rd s.mod (rPrErr p.val)) 0 0 1)])) ∧
    (modeState s.mod p.val ≠ 2 →
      ((1 ≤ k ∧ k ≤ 16 ∧ (∀ j, j < k → modeOffOk s.mod p.val (rd s.mod (rPrMeOff p.val j)).toNat = true) ∧
          (rd s.mod (rPrSlate p.val)).toNat ≤ (rd s.mod (rPrModeSlate p.val)).toNat) →
        Gives (.modeStage fn p n) s (fun t => RegStep s t [(rPrModeCtl p.val, put ctl 18 16 1)])) ∧
      (¬ (1 ≤ k ∧ k ≤ 16 ∧ (∀ j, j < k → modeOffOk s.mod p.val (rd s.mod (rPrMeOff p.val j)).toNat = true) ∧
          (rd s.mod (rPrSlate p.val)).toNat ≤ (rd s.mod (rPrModeSlate p.val)).toNat) →
        Gives (.modeStage fn p n) s (fun t => RegStep s t [(rPrModeCtl p.val, put ctl 18 16 6)])) ∧
      Gives (.modeWithdraw fn p n) s (fun t => RegStep s t [(rPrModeCtl p.val, put ctl 18 16 5)])))

/-- R286 to R292, R305, R339: contributions and verdicts. A module whose close condition holds contributes and enters Verdict, and
so it does when the take times out, with fail code 4 unless a lower one is held; a module of no group forms the verdict at once. A
finite verdict begins Apply with nothing staged; one that is not finite lowers the dynamic scale and lets the slate be tried
again, scrapped or skipped; a failed one scraps the take. (The model's own readings in it: logs 20 and 25.) -/
def Obligations.PrintVerdicts : Prop :=
  (∀ (p : Part) (s : State) (c : Contribution), prPhase s.mod p.val = 2 → closeMet s.mod p.val = true → (prAt s.mod p.val).formed = none →
    grpState s.mod p.val = 0 → c = ownContribution s.mod p.val (prAt s.mod p.val).fail →
    Gives (.printContribute p) s (fun t => rd t.mod (rPrStat p.val) = put (rd s.mod (rPrStat p.val)) 3 0 3 ∧ KeepsRegs s.mod t.mod [rPrStat p.val] ∧
      prAt t.mod p.val = { prAt s.mod p.val with contributed := true, parts := (7, c) :: (prAt s.mod p.val).parts, formed := some (verdictOf c) } ∧
      t = { s with mod := { s.mod with regs := t.mod.regs, prints := t.mod.prints } })) ∧
  (∀ (p : Part) (s : State) (f : Nat) (c : Contribution), (prPhase s.mod p.val = 1 ∨ prPhase s.mod p.val = 2 ∧ closeMet s.mod p.val = false) →
    rd s.mod (rPrTmo p.val) ≠ 0 → (prAt s.mod p.val).formed = none → grpState s.mod p.val = 0 →
    f = (if (prAt s.mod p.val).fail = 0 then 4 else min (prAt s.mod p.val).fail 4) → c = ownContribution s.mod p.val f →
    Gives (.printTakeTimeout p) s (fun t => rd t.mod (rPrStat p.val) = put (rd s.mod (rPrStat p.val)) 3 0 3 ∧ KeepsRegs s.mod t.mod [rPrStat p.val] ∧
      prAt t.mod p.val = { prAt s.mod p.val with
        fail := f, contributed := true, parts := (7, c) :: (prAt s.mod p.val).parts, formed := some (verdictOf c) } ∧
      t = { s with mod := { s.mod with regs := t.mod.regs, prints := t.mod.prints } })) ∧
  (∀ (p : Part) (q : Port) (x : Contribution) (s : State),
    (q.val ∈ treeChildren s.mod p.val → treeOther s.mod p.val x.tag x.epoch = false → x.slate = rd s.mod (rPrSlate p.val) →
      x.attempt.toNat = fld s.mod (rPrStat p.val) 15 8 → prPhase s.mod p.val ≠ 3 → (∀ e ∈ (prAt s.mod p.val).parts, e.1 ≠ q.val) →
      Gives (.contribution p q x) s (fun t => prAt t.mod p.val = { prAt s.mod p.val with parts := (prAt s.mod p.val).parts ++ [(q.val, x)] } ∧
        (portUsable s.mod q.val = true → Sent s t q.val [] 0x23 ∧ KeepsRegs s.mod t.mod []) ∧ t.mod.mem = s.mod.mem ∧
        t.mod.cores = s.mod.cores)) ∧
    ((q.val ∉ treeChildren s.mod p.val ∨ treeOther s.mod p.val x.tag x.epoch = true ∨ x.slate ≠ rd s.mod (rPrSlate p.val) ∨
        x.attempt.toNat ≠ fld s.mod (rPrStat p.val) 15 8) →
      Gives (.contribution p q x) s (fun t => Counted s.mod t.mod (rZwDrop 3) ∧ t.mod.prints = s.mod.prints ∧ t.mod.mem = s.mod.mem ∧
        (x.tag.toNat = grpId s.mod p.val → x.epoch.toNat ≠ grpEpoch s.mod p.val → fld t.mod (rGrpErr p.val) 1 1 = 1)))) ∧
  (∀ (p : Part) (v : VerdictMsg) (s : State), grpState s.mod p.val = 0 → prPhase s.mod p.val = 3 → (prAt s.mod p.val).formed = some v →
    (∀ e ∈ s.mod.cores, ∀ pd, e.2.wait ≠ some (.verdict pd)) →
    (v.kind = .finite → Gives (.verdict p v) s (fun t => prPhase t.mod p.val = 4 ∧ fld t.mod (rPrStat p.val) 5 4 = 1 ∧
      rd t.mod (rPrStaged p.val) = 0 ∧ rd t.mod (rPrApplied p.val) = 0 ∧ (prAt t.mod p.val).stagedHi = 0 ∧
      (prAt t.mod p.val).crc = 0xFFFFFFFFFFFFFFFF ∧ (prAt t.mod p.val).acted = some v ∧
      (prAt t.mod p.val).verdict = some (v.slate, v.attempt.toNat, true) ∧
      (∀ o, o ∉ [rPrStat p.val, rPrStaged p.val, rPrApplied p.val] → (∀ b w, b < 4 → w < 5 → o ≠ rPrBr p.val b (0x10 + 8 * w)) →
        rd t.mod o = rd s.mod o) ∧ t = { s with mod := { s.mod with regs := t.mod.regs, prints := t.mod.prints, free := t.mod.free } })) ∧
    (v.kind ≠ .finite → Gives (.verdict p v) s (fun t =>
      prPhase t.mod p.val = (if v.kind = .failed ∨ fld s.mod (rPrCtl p.val) 1 1 = 1 then 6
        else if fld s.mod (rPrStat p.val) 15 8 ≤ fld s.mod (rPrCtl p.val) 7 4 then 0 else 5) ∧
      fld t.mod (rPrStat p.val) 5 4 = (if v.kind = .failed then 3 else 2) ∧
      (prAt t.mod p.val).skip = decide (prPhase t.mod p.val = 5) ∧ (prAt t.mod p.val).acted = some v ∧
      (prAt t.mod p.val).verdict = some (v.slate, v.attempt.toNat, false) ∧
      (v.kind = .failed → fld t.mod (rPrStat p.val) 31 24 = v.fail.toNat) ∧
      (v.kind = .nonfinite → fld s.mod (rPrCtl p.val) 3 3 = 1 → prScale t.mod p.val = max (prScale s.mod p.val - 1) (-126) ∧
        fld t.mod (rPrLscale p.val) 31 16 = 0) ∧
      (v.kind = .failed ∨ fld s.mod (rPrCtl p.val) 3 3 = 0 → rd t.mod (rPrLscale p.val) = rd s.mod (rPrLscale p.val)) ∧
      fld t.mod (rPrCount p.val) 63 32 = (fld s.mod (rPrCount p.val) 63 32 + 1) % 2 ^ 32 ∧
      fld t.mod (rPrCount p.val) 31 0 = fld s.mod (rPrCount p.val) 31 0 ∧
      rd t.mod (rPrLast p.val 0) = rd s.mod (rPrSlate p.val) ∧ fld t.mod (rPrLast p.val 1) 7 0 = 2 ∧
      (∀ o, o ∉ [rPrStat p.val, rPrLscale p.val, rPrCount p.val] → (∀ w, w < 8 → o ≠ rPrLast p.val w) → rd t.mod o = rd s.mod o) ∧
      t.mod.cores = s.mod.cores ∧ t.mod.lmem = s.mod.lmem)))

/-- R293 to R296, R302, R340: apply, replay, vote and print. A staged group enters the journal; a chunk that has been applied is
counted, and the last leads to Vote; a replay ends in Apply or in Vote. A module joins the vote unless it waits for a staged
change, and one of no group forms the result, on which it prints: the next slate, its counts and its digest. (The model's own
readings in it: logs 20, 25 and 42.) -/
def Obligations.PrintApplyAndVote : Prop :=
  (∀ (p : Part) (s : State), prPhase s.mod p.val = 4 → (prAt s.mod p.val).copying = false →
    fld s.mod (rPrApplied p.val) 31 0 = (prAt s.mod p.val).stagedHi → (prAt s.mod p.val).stagedHi < fld s.mod (rPrAtabN p.val) 31 0 →
    rangeBusy s.mod (prCtx s.mod p.val) (fld s.mod (rPrAtab p.val) 56 5 * 32 + 32 * (prAt s.mod p.val).stagedHi)
      (32 * min (fld s.mod (rPrAtabN p.val) 31 0 - (prAt s.mod p.val).stagedHi) (rd s.mod (rPrStgN p.val)).toNat) false = false →
    (groupEnd s.mod p.val (rd s.mod (rPrStgN p.val)).toNat (prAt s.mod p.val).stagedHi = none →
      Gives (.applyGroupStaged p) s (fun t => prPhase t.mod p.val = 7 ∧ fld t.mod (rPrStat p.val) 23 20 = 4 ∧
        KeepsRegs s.mod t.mod [rPrStat p.val] ∧ t = { s with mod := { s.mod with regs := t.mod.regs } })) ∧
    (∀ g, groupEnd s.mod p.val (rd s.mod (rPrStgN p.val)).toNat (prAt s.mod p.val).stagedHi = some g → g < (rd s.mod (rPrStaged p.val)).toNat →
      ∀ m', journalWrite (onPr s.mod p.val (fun x => { x with stagedHi := g + 1 })) p.val 1 (rd s.mod (rPrSlate p.val)) = some m' →
      Gives (.applyGroupStaged p) s (fun t => (prAt t.mod p.val).stagedHi = g + 1 ∧ (prAt t.mod p.val).seq = (prAt s.mod p.val).seq + 1 ∧
        (s.mod.ecc = [] → t.mod.mem = m'.mem ∧ KeepsRegs m' t.mod [rPrStat p.val]) ∧ t.mod.cores = s.mod.cores))) ∧
  (∀ (p : Part) (s : State) (i : Nat) (j : MoverJob), prPhase s.mod p.val = 4 → prMover s.mod p.val = some (i, j) → j.refused = false →
    (jobFault s.mod j ≠ none → Gives (.applyChunkDone p) s (fun t => prPhase t.mod p.val = 7 ∧ fld t.mod (rPrStat p.val) 23 20 = 5 ∧
      fld t.mod (rPrErr p.val) 6 6 = 1 ∧ moverAt t.mod i = none ∧ KeepsRegs s.mod t.mod [rPrStat p.val, rPrErr p.val] ∧ t.mod.mem = s.mod.mem)) ∧
    (jobFault s.mod j = none → (∀ l ∈ moverTodo j, lineHeld s.mod j l = false) → s.mod.ecc = [] → fld s.mod (rPrAtabN p.val) 31 0 ≤ fld s.mod (rPrApplied p.val) 31 0 + 1 → (prAt s.mod p.val).leftOut = false →
      Gives (.applyChunkDone p) s (fun t => moverAt t.mod i = none ∧ (prAt t.mod p.val).copying = false ∧
        ((rd t.mod (rPrApplied p.val) = BitVec.ofNat 64 (fld s.mod (rPrApplied p.val) 31 0 + 1) ∧ prPhase t.mod p.val = 5) ∨
         (prPhase t.mod p.val = 7 ∧ fld t.mod (rPrStat p.val) 23 20 = 5 ∧ fld t.mod (rPrErr p.val) 6 6 = 1)) ∧
        (rd t.mod rMoveBytes).toNat = min ((rd s.mod rMoveBytes).toNat + 64 * (moverTodo j).length) (2 ^ 48 - 1) ∧
        KeepsButRungs s.mod t.mod [rPrStat p.val, rPrErr p.val, rPrApplied p.val, rMoveBytes]))) ∧
  (∀ (p : Part) (s : State), prPhase s.mod p.val = 8 → (prAt s.mod p.val).copying = false →
    (prAt s.mod p.val).stagedHi ≤ fld s.mod (rPrApplied p.val) 31 0 → (prAt s.mod p.val).leftOut = false →
    Gives (.replayDone p) s (fun t => prPhase t.mod p.val = (if fld s.mod (rPrAtabN p.val) 31 0 ≤ (prAt s.mod p.val).stagedHi then 5 else 4) ∧
      rd t.mod (rPrStaged p.val) = BitVec.ofNat 64 (prAt s.mod p.val).stagedHi ∧
      t.mod.prints = s.mod.prints ∧ t.mod.cores = s.mod.cores ∧
      ∀ o, o ∉ [rPrStat p.val, rPrStaged p.val] → (∀ b ∈ recoveryBlocks, o ≠ rArbCtl b) → rd t.mod o = rd s.mod o)) ∧
  (∀ (p : Part) (s : State) (x : PrintSt) (i : Instr), x = prAt s.mod p.val → prPhase s.mod p.val = 5 → x.joined = false → x.voteFormed = none →
    grpState s.mod p.val = 0 → (i = .voteJoin p ∧ (prStagedOr s.mod p.val = false ∨ modeFor s.mod p.val = true ∨ x.holdDone = true) ∨
      i = .printHoldTimeout p ∧ x.acted ≠ none) →
    Gives i s (fun t => prAt t.mod p.val = { x with
        joined := true, staged := modeFor s.mod p.val,
        holdDone := x.holdDone || decide (i = .printHoldTimeout p),
        voteFormed := some { ownVote s.mod p.val with stagedAnd := modeFor s.mod p.val } } ∧
      modeState t.mod p.val = (if modeFor s.mod p.val then 2 else modeState s.mod p.val) ∧ KeepsRegs s.mod t.mod [rPrModeCtl p.val] ∧
      t = { s with mod := { s.mod with regs := t.mod.regs, prints := t.mod.prints } })) ∧
  (∀ (p : Part) (q : Port) (x : VoteMsg) (s : State), q.val ∈ treeChildren s.mod p.val → treeOther s.mod p.val x.tag x.epoch = false →
    x.slate = rd s.mod (rPrSlate p.val) → (prAt s.mod p.val).joined = false →
    (∀ e ∈ (prAt s.mod p.val).votes, e.1 ≠ q.val) → Gives (.vote p q x) s (fun t =>
      prAt t.mod p.val = { prAt s.mod p.val with votes := (prAt s.mod p.val).votes ++ [(q.val, x)] } ∧
      (portUsable s.mod q.val = true → Sent s t q.val [] 0x23 ∧ KeepsRegs s.mod t.mod []) ∧ t.mod.mem = s.mod.mem ∧ t.mod.cores = s.mod.cores)) ∧
  (∀ (p : Part) (x : VoteMsg) (s : State) (v : VerdictMsg), grpState s.mod p.val = 0 → prPhase s.mod p.val = 5 → (prAt s.mod p.val).joined = true →
    (prAt s.mod p.val).voteFormed = some x → (prAt s.mod p.val).acted = some v → v.stagedOr = false → modeState s.mod p.val ≠ 2 →
    fld s.mod (rStrCtl p.val) 0 0 = 0 → (∀ e ∈ x.entries, e.equal = true) → Gives (.voteResult p x) s (fun t =>
      rd t.mod (rPrSlate p.val) = rd s.mod (rPrSlate p.val) + 1 ∧ fld t.mod (rPrStat p.val) 15 8 = 0 ∧
      fld t.mod (rPrCount p.val) 31 0 = (fld s.mod (rPrCount p.val) 31 0 + 1) % 2 ^ 32 ∧
      (rd t.mod (rPrCur p.val)).toNat = ((rd s.mod (rPrCur p.val)).toNat + fld s.mod (rStrStep p.val) 24 0) % 2 ^ 64 ∧
      rd t.mod (rPrDigest p.val) = (if (prAt s.mod p.val).skip then rd s.mod (rPrDigest p.val) else (prAt s.mod p.val).crc ^^^ 0xFFFFFFFFFFFFFFFF) ∧
      (((∃ e ∈ x.entries, e.count = 0) → prPhase t.mod p.val = 7 ∧ fld t.mod (rPrStat p.val) 23 20 = 3) ∧
       ((∀ e ∈ x.entries, e.count ≠ 0) → prPhase t.mod p.val = 0 ∨ prPhase t.mod p.val = 7 ∧ fld t.mod (rPrStat p.val) 23 20 = 5)) ∧
      rd t.mod (rPrLast p.val 0) = rd s.mod (rPrSlate p.val) ∧ fld t.mod (rPrLast p.val 1) 7 0 = 1 ∧
      (prAt t.mod p.val).acted = none ∧ (prAt t.mod p.val).joined = false ∧ (prAt t.mod p.val).opened = [] ∧ modeState t.mod p.val = modeState s.mod p.val ∧
      (∀ o, o ∉ [rPrSlate p.val, rPrStat p.val, rPrCount p.val, rPrCur p.val, rPrDigest p.val, rPrErr p.val, rPrLscale p.val, rPrLscaleP p.val,
        rStrStat p.val] → (∀ w, w < 8 → o ≠ rPrLast p.val w) → (∀ k, o ≠ rGafClStat k ∧ o ≠ rGafClWakes k) → rd t.mod o = rd s.mod o) ∧ t.mod.cores = s.mod.cores))

/-- R250 to R258: storyboard engines. Start, stop and resume; an entry is offered once its cue is reached, waits for those it
depends on, and fails its check with the code; a LAUNCH gives a descriptor a place in its channel, a MOVE takes the free mover of
lowest number, a PIN takes the free slot of lowest number or is refused, an UNPIN is a job, REST and SCREEN reach their clusters
and END ends the run. A fetch that faults leaves the engine Faulted. (The model's own readings in it: logs 18 and 40.) -/
def Obligations.StoryboardEngine : Prop :=
  (∀ (fn : Fn) (p : Part) (s : State), Reaches s.mod fn (rSbCmd p.val) →
    (fld s.mod (rSbCtl p.val) 0 0 = 1 → fld s.mod (rSbCtl p.val) 13 8 < 48 →
      (sbState s.mod p.val ≠ 1 ∨ SbIdle s.mod p.val → Gives (.sbStart fn p) s (fun t =>
        sbState t.mod p.val = 1 ∧ sbIndex t.mod p.val = 0 ∧ rd t.mod (rSbCue p.val) = 0 ∧ rd t.mod (rSbDisp p.val) = 0 ∧
        sbAt t.mod p.val = { SbSt.reset with run := (sbAt s.mod p.val).run + 1 } ∧ NoWindows s.mod t.mod p.val ∧
        KeepsButRungs s.mod t.mod [rSbCue p.val, rSbDisp p.val, rSbStat p.val] ∧
        t = { s with mod := { s.mod with regs := t.mod.regs, sbs := t.mod.sbs, clusters := t.mod.clusters } })) ∧
      (sbState s.mod p.val = 1 → ¬ SbIdle s.mod p.val → Gives (.sbStart fn p) s (fun t =>
        sbAt t.mod p.val = { sbAt s.mod p.val with stopping := true, restart := true } ∧
        t = { s with mod := { s.mod with sbs := t.mod.sbs } }))) ∧
    ((fld s.mod (rSbCtl p.val) 0 0 = 0 ∨ 48 ≤ fld s.mod (rSbCtl p.val) 13 8) → Gives (.sbStart fn p) s (fun t =>
      RegStep s t [(rSbErr p.val, put (rd s.mod (rSbErr p.val)) 0 0 1)])) ∧
    (sbState s.mod p.val = 1 → SbIdle s.mod p.val → Gives (.sbStop fn p) s (fun t =>
      rd t.mod (rSbStat p.val) = put (rd s.mod (rSbStat p.val)) 31 28 3 ∧ NoWindows s.mod t.mod p.val ∧
      sbAt t.mod p.val = { sbAt s.mod p.val with stopping := false, restart := false } ∧ KeepsButRungs s.mod t.mod [rSbStat p.val] ∧
      t = { s with mod := { s.mod with regs := t.mod.regs, sbs := t.mod.sbs, clusters := t.mod.clusters } })) ∧
    (sbState s.mod p.val = 1 → ¬ SbIdle s.mod p.val → Gives (.sbStop fn p) s (fun t =>
      sbAt t.mod p.val = { sbAt s.mod p.val with stopping := true, restart := false } ∧ t = { s with mod := { s.mod with sbs := t.mod.sbs } })) ∧
    (sbState s.mod p.val ≠ 1 → Gives (.sbStop fn p) s (fun t => RegStep s t [(rSbErr p.val, put (rd s.mod (rSbErr p.val)) 1 1 1)])) ∧
    ((strAt s.mod p.val).held = false → Gives (.sbResume fn p) s (fun t => RegStep s t (if sbState s.mod p.val = 5
      then [(rSbStat p.val, put (rd s.mod (rSbStat p.val)) 31 28 1)] else [(rSbErr p.val, put (rd s.mod (rSbErr p.val)) 1 1 1)]))) ∧
    ((strAt s.mod p.val).held = true → s.mod.ecc = [] → Gives (.sbResume fn p) s (fun t =>
      sbState t.mod p.val = (if sbState s.mod p.val = 5 then 1 else sbState s.mod p.val) ∧
      fld t.mod (rSbErr p.val) 1 1 = fld s.mod (rSbErr p.val) 1 1 ∧ t.mod.sbs = s.mod.sbs))) ∧
  (∀ r ∈ [(Instr.sbLaunch, 1), (.sbMove, 2), (.sbPin, 3), (.sbUnpin, 4), (.sbRest, 5), (.sbScreen, 6), (.sbEnd, 7)],
    ∀ (p : Part) (s : State) (ws : List W64), SbOffered s.mod p.val r.2 ws →
    (¬ SbFree s.mod p.val ws → Gives (r.1 p) s (fun t =>
      RegStep s t [(rSbHeld p.val, BitVec.ofNat 64 (min ((rd s.mod (rSbHeld p.val)).toNat + 1) (2 ^ 48 - 1)))])) ∧
    (SbFree s.mod p.val ws → sbCheck s.mod p.val ws ≠ 0 → Gives (r.1 p) s (fun t =>
      rd t.mod (rSbStat p.val) = put (put (rd s.mod (rSbStat p.val)) 31 28 4) 27 20 (sbCheck s.mod p.val ws) ∧
      rd t.mod (rSbErr p.val) = put (rd s.mod (rSbErr p.val)) 2 2 1 ∧ NoWindows s.mod t.mod p.val ∧
      KeepsButRungs s.mod t.mod [rSbStat p.val, rSbErr p.val] ∧ sbAt t.mod p.val = sbAt s.mod p.val ∧
      t = { s with mod := { s.mod with regs := t.mod.regs, sbs := t.mod.sbs, clusters := t.mod.clusters } }))) ∧
  (∀ (p : Part) (s : State) (ws : List W64) (sub k ch : Nat) (bs : List Byte) (d : QDesc), SbReady s.mod p.val 1 ws → sub = (sbAt s.mod p.val).sub →
    k = 625 * efld ws 4 3 0 + efld ws 4 13 4 + sub → ch = efld ws 4 27 24 →
    sbRead s.mod p.val ((ws.getD 1 0).toNat + 64 * sub) 64 = .ok bs → rangeBusy s.mod (sbCtx s.mod p.val) ((ws.getD 1 0).toNat + 64 * sub) 64 false = false →
    s.mod.ecc = [] → d = ⟨words8 bs, (chanAt s.mod k ch).seqCount, false⟩ →
    let moved := fun (m' : Mod) => if sub + 1 = efld ws 4 23 14 then SbNext s.mod m' p.val
      else (sbAt m' p.val).sub = sub + 1 ∧ rd m' (rSbStat p.val) = rd s.mod (rSbStat p.val)
    ((chState s.mod k ch = 0 ∨ chState s.mod k ch = 6) → Gives (.sbLaunch p) s (fun t => moved t.mod ∧ fld t.mod (rChErr k ch) 0 0 = 1 ∧
      t.mod.chans = s.mod.chans ∧ KeepsRegs s.mod t.mod [rChErr k ch, rSbDisp p.val, rSbStat p.val])) ∧
    (chState s.mod k ch ≠ 0 → chState s.mod k ch ≠ 6 → (chanAt s.mod k ch).queue.length + (chanAt s.mod k ch).kept.length < 4 →
      Gives (.sbLaunch p) s (fun t => moved t.mod ∧
        chanAt t.mod k ch = (if chState s.mod k ch = 5 then
            { chanAt s.mod k ch with seqCount := (chanAt s.mod k ch).seqCount + 1, kept := (chanAt s.mod k ch).kept ++ [d] }
          else { chanAt s.mod k ch with seqCount := (chanAt s.mod k ch).seqCount + 1, queue := (chanAt s.mod k ch).queue ++ [d] }) ∧
        KeepsRegs s.mod t.mod [rChStat k ch, rDollyOut k, rGafClStat k, rGafClWakes k, rSbDisp p.val, rSbStat p.val] ∧
        t.mod.mem = s.mod.mem ∧ t.mod.cores = s.mod.cores)) ∧
    (chState s.mod k ch ≠ 0 → chState s.mod k ch ≠ 6 → 4 ≤ (chanAt s.mod k ch).queue.length + (chanAt s.mod k ch).kept.length →
      Gives (.sbLaunch p) s (fun t =>
        RegStep s t [(rSbHeld p.val, BitVec.ofNat 64 (min ((rd s.mod (rSbHeld p.val)).toNat + 1) (2 ^ 48 - 1)))]))) ∧
  (∀ (p : Part) (s : State) (ws : List W64), SbReady s.mod p.val 2 ws →
    (∀ i, (List.range 8).find? (fun i => (moverAt s.mod i).isNone) = some i → Gives (.sbMove p) s (fun t => SbNext s.mod t.mod p.val ∧
      moverAt t.mod i = some ⟨.entry p.val (sbAt s.mod p.val).run (sbIndex s.mod p.val), sbCtx s.mod p.val, (ws.getD 1 0).toNat, (ws.getD 2 0).toNat,
        efld ws 3 31 0, none, false⟩ ∧
      (∀ j, j ≠ i → moverAt t.mod j = moverAt s.mod j) ∧ KeepsRegs s.mod t.mod [rSbDisp p.val, rSbStat p.val] ∧
      t = { s with mod := { s.mod with regs := t.mod.regs, sbs := t.mod.sbs, movers := t.mod.movers } })) ∧
    ((∀ i, i < 8 → moverAt s.mod i ≠ none) → Gives (.sbMove p) s (fun t =>
      RegStep s t [(rSbHeld p.val, BitVec.ofNat 64 (min ((rd s.mod (rSbHeld p.val)).toNat + 1) (2 ^ 48 - 1)))]))) ∧
  (∀ (p : Part) (s : State) (ws : List W64) (k pa : Nat), SbReady s.mod p.val 3 ws → k = 625 * efld ws 4 3 0 + efld ws 4 13 4 →
    efld ws 3 31 0 / 2048 = (sbAt s.mod p.val).sub + 1 →
    translate s.mod (sbCtx s.mod p.val) ((ws.getD 1 0).toNat + 2048 * (sbAt s.mod p.val).sub) false = .ok pa →
    (¬ (pa < hbmTop ∧ pa / 0x1800000000 = k / 625) → Gives (.sbPin p) s (fun t => sbState t.mod p.val = 4 ∧
      fld t.mod (rSbStat p.val) 27 20 = 5 ∧ t.mod.migQ = s.mod.migQ ∧ NoWindows s.mod t.mod p.val ∧
      KeepsButRungs s.mod t.mod [rSbStat p.val, rSbErr p.val])) ∧
    (pa < hbmTop → pa / 0x1800000000 = k / 625 → inDark s.mod k = true → Gives (.sbPin p) s (fun t => Woke s.mod t.mod k ∧
      t = { s with mod := t.mod })) ∧
    (pa < hbmTop → pa / 0x1800000000 = k / 625 → inDark s.mod k = false → sget (fun _ => none) s.mod.pins (pa / 2048) = none →
      (∀ j ∈ s.mod.migQ, j.pin = true → j.granule ≠ pa / 2048) → ∀ slot, slot = (List.range (carveSlots s.mod k)).find? (fun n => !(slotsUsed s.mod k).contains n) →
      (∀ n, slot = some n → Gives (.sbPin p) s (fun t => SbNext s.mod t.mod p.val ∧
        t.mod.migQ = s.mod.migQ ++ [⟨true, pa / 2048, k, n, p.val, (sbAt s.mod p.val).run, sbIndex s.mod p.val, false⟩] ∧
        rd t.mod (rGafClStat k) = (if clPhase s.mod k = 1 ∧ fld s.mod (rGafClStat k) 5 3 = 5 then put (rd s.mod (rGafClStat k)) 5 3 4
          else rd s.mod (rGafClStat k)) ∧
        rd t.mod (rMigUsed (k / 625)) = rd s.mod (rMigUsed (k / 625)) + 1 ∧
        fld t.mod (rClCarve k) 24 16 = ((slotsUsed s.mod k).length + 1) % 2 ^ 9 ∧
        KeepsRegs s.mod t.mod [rGafClStat k, rMigUsed (k / 625), rClCarve k, rSbDisp p.val, rSbStat p.val] ∧
        t = { s with mod := { s.mod with regs := t.mod.regs, sbs := t.mod.sbs, migQ := t.mod.migQ } })) ∧
      (slot = none → Gives (.sbPin p) s (fun t => SbNext s.mod t.mod p.val ∧ t.mod.migQ = s.mod.migQ ∧ fld t.mod (rMigErr (k / 625)) 0 0 = 1 ∧
        Counted s.mod t.mod (rMigRefused (k / 625)) ∧
        KeepsRegs s.mod t.mod [rMigErr (k / 625), rMigRefused (k / 625), rSbDisp p.val, rSbStat p.val])))) ∧
  (∀ (p : Part) (s : State) (ws : List W64) (pa : Nat) (n : Pin), SbReady s.mod p.val 4 ws →
    efld ws 3 31 0 / 2048 = (sbAt s.mod p.val).sub + 1 →
    translate s.mod (sbCtx s.mod p.val) ((ws.getD 1 0).toNat + 2048 * (sbAt s.mod p.val).sub) false = .ok pa → pa < hbmTop →
    sget (fun _ => none) s.mod.pins (pa / 2048) = some n → (∀ j ∈ s.mod.migQ, j.pin = false → j.granule ≠ pa / 2048) →
    (n.written = true → Gives (.sbUnpin p) s (fun t => SbNext s.mod t.mod p.val ∧
      t.mod.migQ = s.mod.migQ ++ [⟨false, pa / 2048, n.cluster, n.slot, p.val, (sbAt s.mod p.val).run, sbIndex s.mod p.val, false⟩] ∧
      t.mod.pins = s.mod.pins ∧ KeepsRegs s.mod t.mod [rSbDisp p.val, rSbStat p.val] ∧
      t = { s with mod := { s.mod with regs := t.mod.regs, sbs := t.mod.sbs, migQ := t.mod.migQ } })) ∧
    (n.written = false → Gives (.sbUnpin p) s (fun t => SbNext s.mod t.mod p.val ∧ sget (fun _ => none) t.mod.pins (pa / 2048) = none ∧
      (∀ g, g ≠ pa / 2048 → sget (fun _ => none) t.mod.pins g = sget (fun _ => none) s.mod.pins g) ∧
      fld t.mod (rClCarve n.cluster) 24 16 = (slotsUsed t.mod n.cluster).length % 2 ^ 9 ∧
      KeepsRegs s.mod t.mod [rMigUsed (n.cluster / 625), rClCarve n.cluster, rSbDisp p.val, rSbStat p.val] ∧
      t = { s with mod := { s.mod with regs := t.mod.regs, sbs := t.mod.sbs, pins := t.mod.pins } }))) ∧
  (∀ (p : Part) (s : State) (ws : List W64) (k r : Nat), SbReady s.mod p.val 5 ws → sbClusters ws = [k] → r = restRung s.mod (k / 625) (efld ws 3 31 0) →
    r ≠ 0 → rungBlocked s.mod k = false → clPhase s.mod k = 0 → clRung s.mod k = 0 → fld s.mod (rSbCue p.val) 31 0 < efld ws 3 63 32 → Gives (.sbRest p) s (fun t => SbNext s.mod t.mod p.val ∧
      clAt t.mod k = { clAt s.mod k with restCue := some (BitVec.ofNat 32 (efld ws 3 63 32)) } ∧ clPhase t.mod k = 1 ∧
      fld t.mod (rGafClStat k) 5 3 = r ∧ clRung t.mod k = 0 ∧ KeepsRegs s.mod t.mod [rGafClStat k, rSbDisp p.val, rSbStat p.val] ∧
      t = { s with mod := { s.mod with regs := t.mod.regs, sbs := t.mod.sbs, clusters := t.mod.clusters } })) ∧
  (∀ (p : Part) (s : State) (ws : List W64) (i : Instr), SbReady s.mod p.val 5 ws ∧ i = .sbRest p ∨ SbReady s.mod p.val 6 ws ∧ i = .sbScreen p →
    efld ws 3 63 32 ≤ fld s.mod (rSbCue p.val) 31 0 → Gives i s (fun t => SbNext s.mod t.mod p.val ∧
      KeepsRegs s.mod t.mod [rSbDisp p.val, rSbStat p.val] ∧ t = { s with mod := { s.mod with regs := t.mod.regs, sbs := t.mod.sbs } })) ∧
  (∀ (p : Part) (s : State) (ws : List W64), SbReady s.mod p.val 6 ws → fld s.mod (rSbCue p.val) 31 0 < efld ws 3 63 32 → Gives (.sbScreen p) s (fun t => SbNext s.mod t.mod p.val ∧
    (∀ k, clAt t.mod k = if k ∈ sbClusters ws then { clAt s.mod k with screenCue := some (BitVec.ofNat 32 (efld ws 3 63 32)) } else clAt s.mod k) ∧
    KeepsRegs s.mod t.mod [rSbDisp p.val, rSbStat p.val] ∧
    t = { s with mod := { s.mod with regs := t.mod.regs, sbs := t.mod.sbs, clusters := t.mod.clusters } })) ∧
  (∀ (p : Part) (s : State) (ws : List W64), SbOffered s.mod p.val 7 ws → SbFree s.mod p.val ws → sbCheck s.mod p.val ws = 0 →
    efld ws 0 7 0 = 7 → Gives (.sbEnd p) s (fun t => rd t.mod (rSbStat p.val) = put (rd s.mod (rSbStat p.val)) 31 28 2 ∧
      rd t.mod (rSbDisp p.val) = BitVec.ofNat 64 (((rd s.mod (rSbDisp p.val)).toNat + 1) % 2 ^ 32) ∧ NoWindows s.mod t.mod p.val ∧
      KeepsButRungs s.mod t.mod [rSbStat p.val, rSbDisp p.val] ∧
      t = { s with mod := { s.mod with regs := t.mod.regs, clusters := t.mod.clusters } })) ∧
  (∀ (p : Part) (s : State) (va kind : Nat), sbState s.mod p.val = 1 → (sbAt s.mod p.val).restart = false → sbRead s.mod p.val (sbAddr s.mod p.val (sbIndex s.mod p.val)) 64 = .error (va, kind) →
    Gives (.sbFetchFault p) s (fun t => sbState t.mod p.val = 5 ∧ sbIndex t.mod p.val = sbIndex s.mod p.val ∧
      (rd t.mod (rSbFaddr p.val)).toNat = va % 2 ^ 57 ∧ fld t.mod (rSbErr p.val) 3 3 = 1 ∧
      KeepsRegs s.mod t.mod [rSbStat p.val, rSbFaddr p.val, rSbErr p.val] ∧ t.mod.cores = s.mod.cores))

/-- R239, R243, R245, R247, R255: far-tier configuration, carve-outs, switches of pinned granules and movers. A switch leaves
every byte of the granule as it read before, whether it goes to a slot or, written since, comes back; the carve-out changes only
while no slot is in use; a far tier locked with a valid configuration has the size that gives, and otherwise none. (The model's
own readings in it: log 40.) -/
def Obligations.MemoryTiers : Prop :=
  (∀ (i : Fin 8) (s : State) (j : MoverJob), moverAt s.mod i.val = some j → Gives (.moverRetry i) s (fun t =>
    moverAt t.mod i.val = some { j with refused := false } ∧ (∀ n, n ≠ i.val → moverAt t.mod n = moverAt s.mod n) ∧
    t = { s with mod := { s.mod with movers := t.mod.movers } })) ∧
  (∀ (k : Cluster) (s : State) (j : MigJob) (i : Instr), i = .migPinSwitch k ∧ s.mod.migQ.find? (fun j => j.pin && j.cluster == k.val) = some j ∨
      i = .migUnpinSwitch k ∧ s.mod.migQ.find? (fun j => !j.pin && j.cluster == k.val) = some j →
    (granuleBusy s.mod (2048 * j.granule) = true ∨ nearMeet s.mod 5000 (nearAddr k.val) = .retry → Gives i s (fun t => t = s)) ∧
    (granuleBusy s.mod (2048 * j.granule) = false → nearMeet s.mod 5000 (nearAddr k.val) = .wait → Gives i s (fun t => Woke s.mod t.mod k.val ∧
      t = { s with mod := t.mod }))) ∧
  (∀ (k : Cluster) (s : State) (j : MigJob) (a : Nat), s.mod.migQ.find? (fun j => j.pin && j.cluster == k.val) = some j →
    2048 * j.granule + 2048 ≤ hbmTop → granuleBusy s.mod (2048 * j.granule) = false → nearMeet s.mod 5000 (nearAddr k.val) = .ok a →
    (sbAt s.mod j.engine).stopping = false →
    Gives (.migPinSwitch k) s (fun t => sget (fun _ => none) t.mod.pins j.granule = some ⟨k.val, j.slot, j.spoilt⟩ ∧
      (∀ g, g ≠ j.granule → sget (fun _ => none) t.mod.pins g = sget (fun _ => none) s.mod.pins g) ∧
      (j.spoilt = false → ∀ i, i < 2048 → memByte t.mod (2048 * j.granule + i) = memByte s.mod (2048 * j.granule + i)) ∧
      (∀ a, (∀ i, i < 2048 → a ≠ slotKey s.mod k.val j.slot + i) → sget memDefault t.mod.mem a = sget memDefault s.mod.mem a) ∧
      t.mod.migQ = s.mod.migQ.erase j ∧ KeepsRegs s.mod t.mod [rMigPins (k.val / 625)] ∧
      (rd t.mod (rMigPins (k.val / 625))).toNat = min ((rd s.mod (rMigPins (k.val / 625))).toNat + 1) (2 ^ 48 - 1) ∧
      t.mod = { s.mod with regs := t.mod.regs, mem := t.mod.mem, ecc := t.mod.ecc, migQ := t.mod.migQ, pins := t.mod.pins, sbs := t.mod.sbs })) ∧
  (∀ (k : Cluster) (s : State) (j : MigJob) (n : Pin) (a : Nat), s.mod.migQ.find? (fun j => !j.pin && j.cluster == k.val) = some j →
    sget (fun _ => none) s.mod.pins j.granule = some n → 2048 * j.granule + 2048 ≤ hbmTop →
    granuleBusy s.mod (2048 * j.granule) = false → nearMeet s.mod 5000 (nearAddr k.val) = .ok a → (sbAt s.mod j.engine).stopping = false →
    Gives (.migUnpinSwitch k) s (fun t => sget (fun _ => none) t.mod.pins j.granule = none ∧
      (∀ g, g ≠ j.granule → sget (fun _ => none) t.mod.pins g = sget (fun _ => none) s.mod.pins g) ∧
      (n.written = true → (∀ i, i < 2048 → memByte t.mod (2048 * j.granule + i) = memByte s.mod (2048 * j.granule + i)) ∧
        (∀ a, (∀ i, i < 2048 → a ≠ 2048 * j.granule + i) → sget memDefault t.mod.mem a = sget memDefault s.mod.mem a) ∧
        (rd t.mod (rMigWb (n.cluster / 625))).toNat = min ((rd s.mod (rMigWb (n.cluster / 625))).toNat + 2048) (2 ^ 48 - 1)) ∧
      (n.written = false → t.mod.mem = s.mod.mem ∧ rd t.mod (rMigWb (n.cluster / 625)) = rd s.mod (rMigWb (n.cluster / 625))) ∧
      t.mod.migQ = s.mod.migQ.erase j ∧ KeepsRegs s.mod t.mod [rMigWb (n.cluster / 625), rMigUsed (n.cluster / 625), rClCarve n.cluster] ∧
      t.mod = { s.mod with regs := t.mod.regs, mem := t.mod.mem, ecc := t.mod.ecc, migQ := t.mod.migQ, pins := t.mod.pins, sbs := t.mod.sbs })) ∧
  (∀ (fn : Fn) (k : Cluster) (val : W32) (s : State), Reaches s.mod fn (rClCarve k.val) → Gives (.memClCarveWrite fn k val) s (fun t =>
    RegStep s t (if slotsUsed s.mod k.val = [] then [(rClCarve k.val, put (rd s.mod (rClCarve k.val)) 3 0 val.toNat)]
      else [(rMigErr (k.val / 625), put (rd s.mod (rMigErr (k.val / 625))) 1 1 1)]))) ∧
  (∀ (fn : Fn) (val : W32) (s : State) (ps caps : List Nat) (size : Option Nat), Reaches s.mod fn rFarCfg →
    (fld s.mod rFarCfg 31 31 = 0 → ps = (List.range 4).filter (fun q => val.toNat.testBit (4 + q)) →
      caps = ps.map (fun q => fld s.mod (rCxlStat q) 31 16) →
      size = (match bits val 1 0 with
        | 0 => some 0
        | 1 => if (ps.length = 1 ∨ ps.length = 2 ∨ ps.length = 4) ∧ (∀ q ∈ ps, fld s.mod (rCxlStat q) 8 8 = 1)
          then some (min (4 * 2 ^ 40) (ps.length * caps.foldl min (caps.headD 0) * 2 ^ 30)) else none
        | 2 => if 0 < (rd s.mod rFarHsize).toNat ∧ (rd s.mod rFarHsize).toNat % 2 ^ 30 = 0 ∧ (rd s.mod rFarHsize).toNat ≤ 4 * 2 ^ 40
          then some (rd s.mod rFarHsize).toNat else none
        | _ => none) →
      Gives (.memFarCfgLock fn val) s (fun t => fld t.mod rFarCfg 1 0 = bits val 1 0 ∧ fld t.mod rFarCfg 7 4 = bits val 7 4 ∧
        fld t.mod rFarCfg 31 31 = 1 ∧ fld t.mod rFarCfg 30 30 = (if size = none then 1 else fld s.mod rFarCfg 30 30) ∧
        rd t.mod rFarSize = BitVec.ofNat 64 (size.getD 0) ∧ KeepsRegs s.mod t.mod [rFarCfg, rFarSize] ∧
        t = { s with mod := { s.mod with regs := t.mod.regs } })) ∧
    (fld s.mod rFarCfg 31 31 = 1 → Gives (.memFarCfgLock fn val) s (fun t => rd t.mod rFarCfg = rd s.mod rFarCfg ∧
      rd t.mod rFarSize = rd s.mod rFarSize ∧
      (bits val 1 0 ≠ fld s.mod rFarCfg 1 0 ∨ bits val 7 4 ≠ fld s.mod rFarCfg 7 4 → fld t.mod rModErr 0 0 = 1))))

/-- R349 to R351: NVMe ports. A write of enable begins the controller's initialisation, whose end makes the port Ready or Failed;
a Read that completes is counted with its bytes; one that fails or times out is issued again while tries are left, on the other
port for path 2, and otherwise gives its sample the cause. (The model's own readings in it: logs 24 and 46.) -/
def Obligations.NvmePorts : Prop :=
  (∀ (fn : Fn) (q : Fin 2) (val : W32) (s : State), Reaches s.mod fn (rNvCtl q.val) → Gives (.nvmeEnable fn q val) s (fun t =>
    RegStep s t [(rNvCtl q.val, BitVec.ofNat 64 (mixBits (rd s.mod (rNvCtl q.val)).toNat val.toNat 0xFFFF0001)),
      (rNvStat q.val, if val.toNat.testBit 0 then 0x10000000 else if fld s.mod (rNvCtl q.val) 0 0 = 1 then 0 else rd s.mod (rNvStat q.val))])) ∧
  (∀ (q : Fin 2) (ok : Bool) (pairs depth mdts : Nat) (nss : List NvNs) (width rate : BitVec 4) (s : State),
    (nvState s.mod q.val ≠ 1 → Gives (.nvmeInitDone q ok ⟨pairs, depth⟩ mdts nss width rate) s (fun t => t = s)) ∧
    (nvState s.mod q.val = 1 → ok = true → (∀ r ∈ s.mod.reads, r.issued = true) →
      Gives (.nvmeInitDone q ok ⟨pairs, depth⟩ mdts nss width rate) s (fun t =>
      rd t.mod (rNvStat q.val) = BitVec.ofNat 64 (2 * 2 ^ 28 + width.toNat * 2 ^ 24 + rate.toNat * 2 ^ 20 + min 16 pairs) ∧
      nvAt t.mod q.val = ⟨nss, mdts, min 256 depth⟩ ∧ KeepsRegs s.mod t.mod [rNvStat q.val] ∧ (∃ more, t.mod.reads = s.mod.reads ++ more) ∧
      t = { s with mod := { s.mod with regs := t.mod.regs, nvs := t.mod.nvs, reads := t.mod.reads, readId := t.mod.readId, strs := t.mod.strs } })) ∧
    (nvState s.mod q.val = 1 → ok = false → Gives (.nvmeInitDone q ok ⟨pairs, depth⟩ mdts nss width rate) s (fun t =>
      RegStep s t [(rNvStat q.val, BitVec.ofNat 64 (3 * 2 ^ 28 + width.toNat * 2 ^ 24 + rate.toNat * 2 ^ 20)),
        (rNvErr q.val, put (rd s.mod (rNvErr q.val)) 2 2 1)]))) ∧
  (∀ (q : Fin 2) (tag : Nat) (data : List Byte) (s : State) (r : DlyRead) (size : Nat), readOf s.mod q.val tag = some r →
    (∀ r ∈ s.mod.reads, r.issued = true) → size = ((nvNs s.mod q.val r.nsid).map (fun n => n.lba)).getD 0 →
    (data.length = r.n * size → Gives (.nvmeReadComplete q tag true data) s (fun t => (∃ more, t.mod.reads = s.mod.reads.erase r ++ more) ∧
      (r.live = true → ∀ b ∈ (strAt t.mod r.part).batches, b.start = r.start → ∀ x ∈ b.samples, x.pos = r.pos → (r.lba, data) ∈ x.data) ∧
      (rd t.mod (rNvCmds q.val)).toNat = min ((rd s.mod (rNvCmds q.val)).toNat + 1) (2 ^ 48 - 1) ∧
      (rd t.mod (rNvRbytes q.val)).toNat = min ((rd s.mod (rNvRbytes q.val)).toNat + data.length) (2 ^ 48 - 1) ∧
      KeepsRegs s.mod t.mod [rNvCmds q.val, rNvRbytes q.val] ∧
      t = { s with mod := { s.mod with regs := t.mod.regs, reads := t.mod.reads, readId := t.mod.readId, strs := t.mod.strs } })) ∧
    ∀ b sm, batchAt (strAt s.mod r.part) r.start = some b → b.samples.find? (fun x => x.pos == r.pos) = some sm →
      r.live = true → sampleFailed sm = false → ReadsQuiet s.mod →
      ∀ (i : Instr) (ok : Bool) (cause : Nat) (offs : List Nat) (q2 : Nat), q2 = (if r.either then 1 - r.port else r.port) →
        (i = .nvmeReadComplete q tag ok data ∧ (ok = false ∨ data.length ≠ r.n * size) ∧ cause = 1 ∧ offs = [rNvCmds q.val, rNvErr q.val]) ∨
        (i = .nvmeReadTimeout q tag ∧ cause = 2 ∧ offs = [rNvTmo q.val, rNvErr q.val]) →
      (r.tries < fld s.mod rDlyCfg 3 0 → q2 < 2 →
        (PortTakes { s.mod with reads := s.mod.reads.erase r } q2 r.nsid → Gives i s (fun t =>
          t.mod.reads = s.mod.reads.erase r ++ [{ r with id := s.mod.readId, tries := r.tries + 1, port := q2 }] ∧
          fld t.mod (rNvErr q.val) (cause - 1) (cause - 1) = 1 ∧ Counted s.mod t.mod (rNvRetry q2) ∧
          KeepsRegs s.mod t.mod (rNvRetry q2 :: offs) ∧ t.mod.strs = s.mod.strs ∧ t.mod.mem = s.mod.mem)) ∧
        (nvState s.mod q2 ≠ 2 → Gives i s (fun t =>
          t.mod.reads = s.mod.reads.erase r ++ [{ r with tries := r.tries + 1, port := q2, issued := false }] ∧
          fld t.mod (rNvErr q.val) (cause - 1) (cause - 1) = 1 ∧ KeepsRegs s.mod t.mod offs ∧ t.mod.strs = s.mod.strs ∧
          t.mod.mem = s.mod.mem))) ∧
      (fld s.mod rDlyCfg 3 0 ≤ r.tries → Gives i s (fun t =>
        (∀ b' ∈ (strAt t.mod r.part).batches, b'.start = r.start → ∀ x ∈ b'.samples, x.pos = r.pos → cause ∈ x.causes) ∧
        t.mod.reads = s.mod.reads.erase r ∧ fld t.mod (rNvErr q.val) (cause - 1) (cause - 1) = 1 ∧
        KeepsRegs s.mod t.mod offs ∧ t.mod.mem = s.mod.mem))) ∧
  (∀ (q : Fin 2) (s : State), (nvState s.mod q.val = 2 → Gives (.nvmeAsyncEvent q) s (fun t => RegStep s t [(rNvErr q.val, put (rd s.mod (rNvErr q.val)) 3 3 1)])) ∧
    (nvState s.mod q.val ≠ 2 → Gives (.nvmeAsyncEvent q) s (fun t => t = s)))

/-- R355 to R360, R366, R373, R376: ingest streams. An enable with an invalid configuration is refused, and one with a valid one
prepares the batches the cursor names; a disable drops every batch and leaves the decodes in progress to end; a configuration
written to an enabled stream drops what has not been launched and counts it; a projector takes the first sample without one; a
sample that is done is written and frees its projector; the first batch whose samples are all done is ready. (The model's own
readings in it: logs 24 and 46.) -/
def Obligations.IngestStreams : Prop :=
  (∀ (fn : Fn) (p : Part) (val : W32) (s : State) (m1 : Mod), Reaches s.mod fn (rStrCtl p.val) → fld s.mod (rStrCtl p.val) 0 0 = 0 →
    m1 = wr s.mod (rStrCtl p.val) (BitVec.ofNat 64 (mixBits (rd s.mod (rStrCtl p.val)).toNat (nput val.toNat 0 0 1) 0x0FFFFF81)) →
    (strValid m1 p.val = false → Gives (.dlyStrEnable fn p val) s (fun t => rd t.mod (rStrCtl p.val) = rd m1 (rStrCtl p.val) ∧
      fld t.mod (rStrStat p.val) 31 28 = 3 ∧ fld t.mod (rStrErr p.val) 0 0 = 1 ∧ strAt t.mod p.val = { strAt s.mod p.val with refused := true } ∧
      KeepsRegs s.mod t.mod [rStrCtl p.val, rStrStat p.val, rStrErr p.val] ∧
      t = { s with mod := { s.mod with regs := t.mod.regs, strs := t.mod.strs } })) ∧
    (strValid m1 p.val = true → (strAt s.mod p.val).batches = [] → (∀ c ∈ strNamed m1 p.val, recsFree m1 p.val c = true) → s.mod.ecc = [] →
      (∀ r ∈ s.mod.reads, r.issued = true) → Gives (.dlyStrEnable fn p val) s (fun t =>
      rd t.mod (rStrCtl p.val) = rd m1 (rStrCtl p.val) ∧ fld t.mod (rStrStat p.val) 31 28 = 1 ∧ (strAt t.mod p.val).refused = false ∧
      (∀ c ∈ strNamed m1 p.val, ∃ b ∈ (strAt t.mod p.val).batches, b.start = c ∧ b.ready = false ∧ b.launched = false) ∧
      KeepsRegs s.mod t.mod [rStrCtl p.val, rStrStat p.val] ∧ t.mod.mem = s.mod.mem ∧ t.mod.cores = s.mod.cores))) ∧
  (∀ (fn : Fn) (p : Part) (val : W32) (s : State) (v : W64), Reaches s.mod fn (rStrCtl p.val) →
    v = BitVec.ofNat 64 (mixBits (rd s.mod (rStrCtl p.val)).toNat (nput val.toNat 0 0 0) 0x0FFFFF81) →
    (fld s.mod (rStrCtl p.val) 0 0 = 0 → Gives (.dlyStrDisable fn p val) s (fun t => RegStep s t [(rStrCtl p.val, v)])) ∧
    (fld s.mod (rStrCtl p.val) 0 0 = 1 → Gives (.dlyStrDisable fn p val) s (fun t => rd t.mod (rStrCtl p.val) = v ∧
      (strAt t.mod p.val).batches = [] ∧ (strAt t.mod p.val).waiting = none ∧ (strAt t.mod p.val).list = none ∧
      fld t.mod (rStrStat p.val) 31 28 = 0 ∧ fld t.mod (rStrStat p.val) 19 16 = 0 ∧
      (∀ b ∈ (strAt s.mod p.val).batches, ∀ x ∈ b.samples, ∀ j, x.done = false → x.proj = some j → j ∈ (strAt t.mod p.val).dropped) ∧
      (∀ r ∈ t.mod.reads, r.part = p.val → (∃ b ∈ (strAt s.mod p.val).batches, b.start = r.start) → r.live = false) ∧
      (∀ e ∈ t.mod.ingest, partOfCluster s.mod (e / 16) ≠ some p.val) ∧ KeepsRegs s.mod t.mod [rStrCtl p.val, rStrStat p.val] ∧
      t = { s with mod := { s.mod with regs := t.mod.regs, strs := t.mod.strs, reads := t.mod.reads, ingest := t.mod.ingest } }))) ∧
  (∀ (fn : Fn) (p : Part) (val : W64) (s : State) (v : W64), Reaches s.mod fn (rStrN p.val) →
    v = BitVec.ofNat 64 (mixBits (rd s.mod (rStrN p.val)).toNat val.toNat (2 ^ 49 - 1)) →
    (fld s.mod (rStrCtl p.val) 0 0 = 0 → Gives (.dlyStrConfigWrite fn p 0x10 8 val) s (fun t => rd t.mod (rStrN p.val) = v ∧
      KeepsRegs s.mod t.mod [rStrN p.val] ∧ t = { s with mod := { s.mod with regs := t.mod.regs, fns := t.mod.fns } })) ∧
    (fld s.mod (rStrCtl p.val) 0 0 = 1 → s.mod.ecc = [] → (∀ r ∈ s.mod.reads, r.issued = true) → Gives (.dlyStrConfigWrite fn p 0x10 8 val) s (fun t => rd t.mod (rStrN p.val) = v ∧
      (rd t.mod (rStrRefetch p.val)).toNat = min ((rd s.mod (rStrRefetch p.val)).toNat +
        ((strAt s.mod p.val).batches.filter (fun b => !b.launched)).length) (2 ^ 32 - 1) ∧
      (∀ b ∈ (strAt s.mod p.val).batches, b.launched = true → ∃ b' ∈ (strAt t.mod p.val).batches, b'.start = b.start) ∧
      KeepsRegs s.mod t.mod [rStrN p.val, rStrRefetch p.val, rStrStat p.val, rStrErr p.val] ∧ t.mod.mem = s.mod.mem))) ∧
  (∀ (fn : Fn) (p : Part) (val : W64) (s : State), Reaches s.mod fn (rStrProj p.val) →
    (projOverlap s.mod p.val (val.toNat % 2 ^ 48) = true → Gives (.dlyProjWrite fn p val) s (fun t =>
      RegStep s t [(rStrErr p.val, put (rd s.mod (rStrErr p.val)) 2 2 1)])) ∧
    (projOverlap s.mod p.val (val.toNat % 2 ^ 48) = false → fld s.mod (rStrCtl p.val) 0 0 = 0 → Gives (.dlyProjWrite fn p val) s (fun t =>
      RegStep s t [(rStrProj p.val, BitVec.ofNat 64 (mixBits (rd s.mod (rStrProj p.val)).toNat val.toNat (2 ^ 48 - 1)))]))) ∧
  (∀ (p : Part) (s : State) (j : Nat) (st pos : Nat), strOn s.mod p.val = true →
    (List.range 48).find? (fun j => bit (rd s.mod (rStrProj p.val)) j && !bit (rd s.mod rDlyProjBusy) j) = some j →
    (strAt s.mod p.val).batches.findSome? (fun b => (b.samples.find? (fun x => x.proj.isNone && !x.done)).map (fun x => (b.start, x.pos))) = some (st, pos) →
    Gives (.dlySampleAssign p) s (fun t => rd t.mod rDlyProjBusy = put (rd s.mod rDlyProjBusy) j j 1 ∧ KeepsRegs s.mod t.mod [rDlyProjBusy] ∧
      strAt t.mod p.val = { strAt s.mod p.val with batches := (strAt s.mod p.val).batches.map (fun b => if b.start = st then
        { b with samples := b.samples.map (fun x => if x.pos = pos then { x with proj := some j } else x) } else b) } ∧
      t = { s with mod := { s.mod with regs := t.mod.regs, strs := t.mod.strs } })) ∧
  (∀ (p : Part) (j : Fin 48) (s : State),
    (∀ b sm, projSample s.mod p.val j.val = some (b, sm) → readsDone s.mod p.val b.start sm = true → wbOpen s.mod p.val = true →
        rangeBusy s.mod (strCtx s.mod p.val) (regionBase s.mod p.val b sm) (strStride s.mod p.val) true = false →
      Gives (.dlySampleDone p j) s (fun t =>
      t.mod.mem = (sampleWrite s.mod p.val b sm).mem ∧ fld t.mod rDlyProjBusy j.val j.val = 0 ∧
      (rd t.mod (rStrSamples p.val)).toNat = min ((rd s.mod (rStrSamples p.val)).toNat + 1) (2 ^ 48 - 1) ∧
      strAt t.mod p.val = { strAt s.mod p.val with batches := (strAt s.mod p.val).batches.map (fun b' => if b'.start = b.start then
        { b' with samples := b'.samples.map (fun x => if x.pos = sm.pos then { x with done := true, data := [] } else x) } else b') } ∧
      t.mod.cores = s.mod.cores ∧ t.mod.lmem = s.mod.lmem)) ∧
    (∀ b sm, projSample s.mod p.val j.val = some (b, sm) → readsDone s.mod p.val b.start sm = false ∨ wbOpen s.mod p.val = false →
      Gives (.dlySampleDone p j) s (fun t => t = s)) ∧
    (projSample s.mod p.val j.val = none → j.val ∉ (strAt s.mod p.val).dropped → Gives (.dlySampleDone p j) s (fun t => t = s)) ∧
    (projSample s.mod p.val j.val = none → j.val ∈ (strAt s.mod p.val).dropped → Gives (.dlySampleDone p j) s (fun t =>
        strAt t.mod p.val = { strAt s.mod p.val with dropped := (strAt s.mod p.val).dropped.erase j.val } ∧
        rd t.mod rDlyProjBusy = put (rd s.mod rDlyProjBusy) j.val j.val 0 ∧ KeepsRegs s.mod t.mod [rDlyProjBusy] ∧
        t = { s with mod := { s.mod with regs := t.mod.regs, strs := t.mod.strs } }))) ∧
  (∀ (p : Part) (s : State) (b : DlyBatch), (strAt s.mod p.val).batches.find? (fun b => !b.ready && b.samples.all (fun x => x.done)) = some b →
    (strAt s.mod p.val).waiting ≠ some b.start → Gives (.dlyBatchReady p) s (fun t =>
      strAt t.mod p.val = { strAt s.mod p.val with batches := (strAt s.mod p.val).batches.map (fun b' => if b'.start = b.start then
        { b' with ready := true } else b') } ∧
      fld t.mod (rStrStat p.val) 19 16 = ((strAt t.mod p.val).batches.filter (fun b' => b'.ready)).length % 16 ∧
      KeepsRegs s.mod t.mod [rStrStat p.val] ∧ t = { s with mod := { s.mod with regs := t.mod.regs, strs := t.mod.strs } }))

/-- R380 to R384: partitions and granules. Set-up needs bays that are good and free, and leaves scrubbed cores, channels at reset
and zero stores; release stops the cores and disables the channels, and then gives the bays up; a new owner clears clapper and
event state; a granule that changes hands is busy until every byte of it is zero. (The model's own readings in it: log 29.) -/
def Obligations.PartitionsAndGranules : Prop :=
  (∀ (fn : Fn) (p : Part) (s : State), Reaches s.mod fn (rPartCmd p.val) →
    (partState s.mod p.val = 0 →
      (BaysGood s.mod p.val → Gives (.partSetup fn p) s (fun t => partState t.mod p.val = 1 ∧
        (∀ o, o ≠ rPartStat p.val → (∀ k, k < 5000 → o ≠ rGafClStat k ∧ o ≠ rGafClWakes k) → rd t.mod o = rd s.mod o) ∧
        t = { s with mod := { s.mod with regs := t.mod.regs, clusters := t.mod.clusters } })) ∧
      (¬ BaysGood s.mod p.val → Gives (.partSetup fn p) s (fun t => RegStep s t [(rPartErr p.val, put (rd s.mod (rPartErr p.val)) 1 1 1)]))) ∧
    (partState s.mod p.val ≠ 0 → Gives (.partSetup fn p) s (fun t => RegStep s t [(rPartErr p.val, put (rd s.mod (rPartErr p.val)) 0 0 1)])) ∧
    (partState s.mod p.val = 2 → fld s.mod (rPartStat p.val) 12 0 = 0 → Gives (.partRelease fn p) s (fun t => partState t.mod p.val = 3 ∧
      (∀ c ∈ coresOfPart s.mod p.val, (coreAt s.mod c).state = .running ∨ (coreAt s.mod c).state = .waiting →
        (coreAt t.mod c).halting = some ((coreAt s.mod c).halting.getD 0) ∧ (coreAt t.mod c).wait = none) ∧
      (∀ k ∈ clustersOfPart s.mod p.val, ∀ ch, ch < 16 → chState t.mod k ch = 0 ∨ chState t.mod k ch = 6) ∧
      ((∀ k ∈ clustersOfPart s.mod p.val, ∀ ch, ch < 16 → (chanAt s.mod k ch).writes = []) → t.mod.mem = s.mod.mem) ∧
      t.mod.lmem = s.mod.lmem ∧ t.mod.imem = s.mod.imem)) ∧
    (partState s.mod p.val = 2 → fld s.mod (rPartStat p.val) 12 0 ≠ 0 → Gives (.partRelease fn p) s (fun t =>
      RegStep s t [(rPartErr p.val, put (rd s.mod (rPartErr p.val)) 2 2 1)])) ∧
    (partState s.mod p.val ≠ 2 → Gives (.partRelease fn p) s (fun t => RegStep s t [(rPartErr p.val, put (rd s.mod (rPartErr p.val)) 0 0 1)]))) ∧
  (∀ (p : Part) (s : State),
    (partState s.mod p.val = 1 → (∀ k ∈ clustersOfPart s.mod p.val, clRolling s.mod k = true) → Gives (.partSetupDone p) s (fun t =>
      partState t.mod p.val = 2 ∧ (∀ i, i < 12 → rd t.mod (rPstall p.val i) = 0) ∧
      (∀ c, coreAt t.mod c = if c ∈ coresOfPart s.mod p.val then scrubbed (coreAt s.mod c) else coreAt s.mod c) ∧
      (∀ k ∈ clustersOfPart s.mod p.val, fld t.mod (rClCarve k) 3 0 = 0 ∧ (∀ ch, ch < 16 → chanAt t.mod k ch = ChanSt.reset) ∧
        (∀ o, clBase k ≤ o → o < clBase k + 0x300 → rd t.mod o = regReset o) ∧
        (∀ i, i < 0x100000 → sget memDefault t.mod.mem (nearAddr k + i) = 0)) ∧
      (∀ a, (∀ k ∈ clustersOfPart s.mod p.val, a < nearAddr k ∨ nearAddr k + 0x100000 ≤ a) → sget memDefault t.mod.mem a = sget memDefault s.mod.mem a) ∧
      (∀ a, sget memDefault t.mod.lmem a = if a / lsTop ∈ coresOfPart s.mod p.val then 0 else sget memDefault s.mod.lmem a))) ∧
    (partState s.mod p.val ≠ 1 → Gives (.partSetupDone p) s (fun t => t = s)) ∧
    (partState s.mod p.val = 3 → (∀ k ∈ clustersOfPart s.mod p.val, (∀ c ∈ coresOf k, (coreAt s.mod c).state = .halted ∨ (coreAt s.mod c).state = .faulted) ∧
        ∀ ch, ch < 16 → chState s.mod k ch = 0) → Gives (.partReleaseDone p) s (fun t => partState t.mod p.val = 0 ∧ rd t.mod (rPartBays p.val) = 0 ∧
      (∀ g n, sget (fun _ => none) t.mod.pins g = some n → n.cluster ∉ clustersOfPart s.mod p.val) ∧ t.mod.cores = s.mod.cores)) ∧
    (partState s.mod p.val ≠ 3 → Gives (.partReleaseDone p) s (fun t => t = s))) ∧
  (∀ (fn : Fn) (p : Part) (val : W32) (s : State), Reaches s.mod fn (rPartOwner p.val) →
    (fld s.mod (rPartOwner p.val) 11 0 = val.toNat % 4096 → Gives (.partOwnerWrite fn p val) s (fun t => t = s)) ∧
    (fld s.mod (rPartOwner p.val) 11 0 ≠ val.toNat % 4096 →
      ((∃ c ∈ coresOfPart s.mod p.val, (coreAt s.mod c).state = .running ∨ (coreAt s.mod c).state = .waiting) →
        Gives (.partOwnerWrite fn p val) s (fun t => RegStep s t [(rPartErr p.val, put (rd s.mod (rPartErr p.val)) 0 0 1)])) ∧
      ((∀ c ∈ coresOfPart s.mod p.val, (coreAt s.mod c).state ≠ .running ∧ (coreAt s.mod c).state ≠ .waiting) →
        Gives (.partOwnerWrite fn p val) s (fun t => rd t.mod (rPartOwner p.val) = put (rd s.mod (rPartOwner p.val)) 11 0 val.toNat ∧
          KeepsRegs s.mod t.mod [rPartOwner p.val] ∧
          (∀ key ev, evFlag t.mod key ev = (decide (key ∉ clustersOfPart s.mod p.val ∧ key ≠ 5000 + p.val) && evFlag s.mod key ev)) ∧
          t = { s with mod := { s.mod with
            regs := t.mod.regs, claps := t.mod.claps, arrivals := t.mod.arrivals, evFlags := t.mod.evFlags } })))) ∧
  (∀ (fn : Fn) (far : Bool) (g : Fin 4096) (val : Byte) (s : State) (r : Nat), Reaches s.mod fn (rGranule far g.val) → r = rGranule far g.val →
    (far = true ∨ g.val < 768) →
    (far = false → s.mod.boot.dead.contains (g.val / 96) = true → Gives (.granuleOwnerWrite fn far g val) s (fun t => t = s)) ∧
    ((far = true ∨ s.mod.boot.dead.contains (g.val / 96) = false) →
      (fld s.mod r 7 7 = 0 → Gives (.granuleOwnerWrite fn far g val) s (fun t => RegStep s t [(r,
        if ownerOf (fld s.mod r 3 0) = ownerOf (val.toNat % 16) then put (rd s.mod r) 3 0 val.toNat
        else put (put (rd s.mod r) 3 0 val.toNat) 7 7 1)])) ∧
      (fld s.mod r 7 7 = 1 → Gives (.granuleOwnerWrite fn far g val) s (fun t => RegStep s t
        (match (ownerOf (fld s.mod r 3 0)).orElse (fun _ => ownerOf (val.toNat % 16)) with
          | some p => [(rPartErr p, put (rd s.mod (rPartErr p)) 0 0 1)]
          | none => []))))) ∧
  (∀ (far : Bool) (g : Fin 4096) (s : State) (r : Nat), r = rGranule far g.val → (far = true ∨ g.val < 768) →
    (fld s.mod r 7 7 = 0 → Gives (.granuleZeroDone far g) s (fun t => t = s)) ∧
    (fld s.mod r 7 7 = 1 → Gives (.granuleZeroDone far g) s (fun t => rd t.mod r = put (rd s.mod r) 7 7 0 ∧ KeepsRegs s.mod t.mod [r] ∧
      (∀ i, i < 2 ^ 30 → (far = false ∨ 2 ^ 30 * g.val + i < (rd s.mod rFarSize).toNat) → memByte t.mod (granuleBase far g.val + i) = 0) ∧ t.mod.cores = s.mod.cores ∧ t.mod.lmem = s.mod.lmem)))

/-- R387 to R389, R392, R395, R396, R400 to R402: contexts, rings and doorbells. CTX_CMD creates a context of the lowest free
number, destroys one that nothing uses and invalidates, each with its result; a ring register is taken while the queue is empty
and its size is in range; a doorbell moves an index of a ring that is the writer's, and is refused beyond the ring's size. (The
model's own readings in it: log 29.) -/
def Obligations.ContextsAndDoorbells : Prop :=
  (∀ (fn : Fn) (s : State) (f p held most : Nat), Reaches s.mod fn (ctxWin + 4) → f = fnKey fn → p = fnPart s.mod fn →
    held = fld s.mod (rPartStat p) 12 0 → most = (if fld s.mod (rPartCtl p) 27 16 = 0 then 4096 else fld s.mod (rPartCtl p) 27 16) →
    ((12 ≤ p ∨ partState s.mod p ≠ 2) → Gives (.ctxCreate fn) s (fun t =>
      t = { s with mod := setFn s.mod f { fnAt s.mod f with ctxRes := 0x80000005 } })) ∧
    (p < 12 → partState s.mod p = 2 → most ≤ held → Gives (.ctxCreate fn) s (fun t =>
      t = { s with mod := setFn s.mod f { fnAt s.mod f with ctxRes := 0x80000002 } })) ∧
    (∀ x, (h : p < 12) → partState s.mod p = 2 → held < most → (List.range 4096).find? (fun x => !(ctxAt s.mod x).active) = some x →
      Gives (.ctxCreate fn) s (fun t => ctxAt t.mod x = { CtxSt.reset with active := true, part := ⟨p, h⟩ } ∧
        (∀ y, y ≠ x → ctxAt t.mod y = ctxAt s.mod y) ∧ rd t.mod (rPartStat p) = put (rd s.mod (rPartStat p)) 12 0 (held + 1) ∧
        fnAt t.mod f = { fnAt s.mod f with ctxSel := BitVec.ofNat 32 x, ctxRes := 0x80000000 } ∧ (∀ g, g ≠ f → fnAt t.mod g = fnAt s.mod g) ∧
        KeepsRegs s.mod t.mod [rPartStat p] ∧ t = { s with mod := { s.mod with regs := t.mod.regs, ctxs := t.mod.ctxs, fns := t.mod.fns } }))) ∧
  (∀ (fn : Fn) (s : State) (f x : Nat), Reaches s.mod fn (ctxWin + 4) → f = fnKey fn → x = ctxSel s.mod f →
    (∀ r ∈ [(Instr.ctxDestroy), .ctxInvalidate], ∀ st, (ctxForeign s.mod fn x = true ∧ st = 5 ∨
        ctxForeign s.mod fn x = false ∧ (ctxAt s.mod x).active = false ∧ st = 4) →
      Gives (r fn) s (fun t => t = { s with mod := setFn s.mod f { fnAt s.mod f with ctxRes := BitVec.ofNat 32 (2 ^ 31 + st) } })) ∧
    (ctxForeign s.mod fn x = false → (ctxAt s.mod x).active = true →
      (ctxUser s.mod x ≠ 0 → Gives (.ctxDestroy fn) s (fun t =>
        t = { s with mod := setFn s.mod f { fnAt s.mod f with ctxRes := BitVec.ofNat 32 (2 ^ 31 + ctxUser s.mod x * 2 ^ 16 + 3) } })) ∧
      (ctxUser s.mod x = 0 → Gives (.ctxDestroy fn) s (fun t => ctxAt t.mod x = CtxSt.reset ∧ (∀ y, y ≠ x → ctxAt t.mod y = ctxAt s.mod y) ∧
        fnAt t.mod f = { fnAt s.mod f with ctxRes := 0x80000000 } ∧
        fld t.mod (rPartStat (ctxAt s.mod x).part.val) 12 0 = fld s.mod (rPartStat (ctxAt s.mod x).part.val) 12 0 - 1 ∧
        KeepsRegs s.mod t.mod [rPartStat (ctxAt s.mod x).part.val] ∧ t.mod.cores = s.mod.cores)) ∧
      Gives (.ctxInvalidate fn) s (fun t =>
        t = { s with mod := setFn s.mod f { fnAt s.mod f with ctxRes := 0, invalidating := some x } }))) ∧
  (∀ (fn : Fn) (s : State), ((fnAt s.mod (fnKey fn)).invalidating = none → Gives (.ctxInvalidateDone fn) s (fun t => t = s)) ∧
    ((fnAt s.mod (fnKey fn)).invalidating ≠ none → Gives (.ctxInvalidateDone fn) s (fun t =>
      fnAt t.mod (fnKey fn) = { fnAt s.mod (fnKey fn) with ctxRes := 0x80000000, invalidating := none } ∧
      (∀ g, g ≠ fnKey fn → fnAt t.mod g = fnAt s.mod g) ∧ t = { s with mod := { s.mod with fns := t.mod.fns } }))) ∧
  (∀ r ∈ [(RingReg.sq, 0x20), (.cq, 0x28), (.eq, 0x30)], ∀ (fn : Fn) (val : W64) (s : State) (x : Nat) (c : CtxSt), Reaches s.mod fn (ctxWin + r.2) →
    x = ctxSel s.mod (fnKey fn) → c = ctxAt s.mod x → c.active = true →
    (c.sq.head ≠ c.sq.tail → Gives (.ringRegisterWrite fn r.1 val) s (fun t => t = { s with mod := setCtx s.mod x { c with err := put c.err 2 2 1 } })) ∧
    (c.sq.head = c.sq.tail → (bits val 4 0 < 4 ∨ 16 < bits val 4 0) → Gives (.ringRegisterWrite fn r.1 val) s (fun t =>
      t = { s with mod := setCtx s.mod x { c with err := put c.err 0 0 1 } })) ∧
    (c.sq.head = c.sq.tail → 4 ≤ bits val 4 0 → bits val 4 0 ≤ 16 → c.waitingCpl = [] → s.mod.evWait = [] →
      Gives (.ringRegisterWrite fn r.1 val) s (fun t => t = { s with mod := setCtx s.mod x (match r.1 with
        | .sq => { c with sq := ⟨put val 11 5 0, 0, 0, true⟩ } | .cq => { c with cq := ⟨put val 11 5 0, 0, 0, true⟩ }
        | _ => { c with eq := ⟨put val 11 5 0, 0, 0, true⟩ }) }))) ∧
  (∀ (fn : Fn) (val : W64) (s : State), Reaches s.mod fn rModEq →
    ((bits val 4 0 < 4 ∨ 16 < bits val 4 0) → Gives (.ringRegisterWrite fn .modEq val) s (fun t => t = s)) ∧
    (4 ≤ bits val 4 0 → bits val 4 0 ≤ 16 → s.mod.evWait = [] → s.mod.alarmWait = [] → Gives (.ringRegisterWrite fn .modEq val) s (fun t =>
      t = { s with mod := { s.mod with modEq := ⟨put val 11 5 0, 0, 0, true⟩ } }))) ∧
  (∀ r ∈ [(Instr.dbSqTail, CtxSt.sq), (.dbCqHead, CtxSt.cq), (.dbEqHead, CtxSt.eq)], ∀ (fn : Fn) (x : Ctx) (val : W32) (s : State),
    fnThere s.mod fn = true →
    (modState s.mod ≠ 0 → Gives (r.1 fn x val) s (fun t => t = { s with mod := modWake s.mod })) ∧
    (modState s.mod = 0 → dbReach s.mod fn x.val = false → Gives (r.1 fn x val) s (fun t => fld t.mod rModErr 4 4 = 1 ∧
      Counted s.mod t.mod rModAuditN ∧ t.mod.ctxs = s.mod.ctxs ∧ KeepsRegs s.mod t.mod [rModErr, rModAuditN, rModEqLost] ∧ t.mod.cores = s.mod.cores)) ∧
    (modState s.mod = 0 → dbReach s.mod fn x.val = true → ringSize (r.2 (ctxAt s.mod x.val)) ≤ val.toNat → Gives (r.1 fn x val) s (fun t =>
      fld t.mod rModErr 4 4 = 1 ∧ ctxAt t.mod x.val = { ctxAt s.mod x.val with err := put (ctxAt s.mod x.val).err 1 1 1 } ∧
      (∀ y, y ≠ x.val → ctxAt t.mod y = ctxAt s.mod y) ∧ KeepsRegs s.mod t.mod [rModErr, rModAuditN, rModEqLost] ∧ t.mod.cores = s.mod.cores))) ∧
  (∀ (fn : Fn) (x : Ctx) (val : W32) (s : State) (c : CtxSt), c = ctxAt s.mod x.val → fnThere s.mod fn = true → modState s.mod = 0 →
    dbReach s.mod fn x.val = true →
    (val.toNat < ringSize c.sq → Gives (.dbSqTail fn x val) s (fun t =>
      t = { s with mod := setCtx s.mod x.val { c with sq := { c.sq with tail := val.toNat } } })) ∧
    (val.toNat < ringSize c.cq → c.waitingCpl = [] → Gives (.dbCqHead fn x val) s (fun t =>
      ctxAt t.mod x.val = { c with cq := { c.cq with head := val.toNat } } ∧ (∀ y, y ≠ x.val → ctxAt t.mod y = ctxAt s.mod y) ∧
      t.mod.msix = (if val.toNat = c.cq.tail then s.mod.msix else s.mod.msix ++ [(fnOfPart s.mod c.part.val, bits c.vec 7 0)]) ∧
      t = { s with mod := { s.mod with ctxs := t.mod.ctxs, msix := t.mod.msix } })) ∧
    (val.toNat < ringSize c.eq → s.mod.evWait = [] → Gives (.dbEqHead fn x val) s (fun t =>
      ctxAt t.mod x.val = { c with eq := { c.eq with head := val.toNat } } ∧ (∀ y, y ≠ x.val → ctxAt t.mod y = ctxAt s.mod y) ∧
      t.mod.msix = (if val.toNat = c.eq.tail then s.mod.msix else s.mod.msix ++ [(fnOfPart s.mod c.part.val, bits c.vec 15 8)]) ∧
      t = { s with mod := { s.mod with ctxs := t.mod.ctxs, msix := t.mod.msix } })))

/-- R80, R255, R258, R394, R395, R397 to R399: commands, movers, BAR4 and the reset of a function. A command with reserved bits,
or of no opcode, completes as BAD, and one whose range is outside the partition as DENIED; START starts or first scrubs every core
it names; STOP halts those that run; HEVENT writes the events of its mask; COPY takes the free mover of lowest number; PRINT is
the print engine's command. (The model's own readings in it: log 29.) -/
def Obligations.HostCommands : Prop :=
  (∀ r ∈ [(Instr.cmdNop, 0), (.cmdStart, 1), (.cmdStop, 2), (.cmdHevent, 3), (.cmdCopy, 4), (.cmdPrint, 5)], ∀ (x : Ctx) (s : State) (ws : List W64),
    (sqHead s.mod x.val = none → Gives (r.1 x) s (fun t => t = s)) ∧
    (sqHead s.mod x.val = some ws → (if 5 < cfld ws 0 7 0 then 0 else cfld ws 0 7 0) = r.2 → cmdBad ws = true → Gives (r.1 x) s (fun t =>
      CmdEnds s.mod t.mod x.val ws 3 0 0 ∧ t.mod.regs = s.mod.regs ∧ t.mod.cores = s.mod.cores)) ∧
    ((r.2 = 1 ∨ r.2 = 2) → SqReady s.mod x.val r.2 ws → ∀ st, cmdRange s.mod x.val ws = some st → Gives (r.1 x) s (fun t =>
      CmdEnds s.mod t.mod x.val ws st 0 0 ∧ t.mod.regs = s.mod.regs ∧ t.mod.cores = s.mod.cores))) ∧
  (∀ (x : Ctx) (s : State) (ws : List W64), SqReady s.mod x.val 0 ws → Gives (.cmdNop x) s (fun t =>
    CmdEnds s.mod t.mod x.val ws 0 0 0 ∧ t.mod.regs = s.mod.regs ∧ t.mod.cores = s.mod.cores)) ∧
  (∀ (x : Ctx) (s : State) (ws : List W64), SqReady s.mod x.val 1 ws → cmdRange s.mod x.val ws = none → cmdCores ws ≠ [] →
    toReclaim s.mod x.val ws = [] → x.val ∉ fillers s.mod (ctxAt s.mod x.val).part.val →
    (∀ c ∈ cmdCores ws, ((coreAt s.mod c).state = .halted ∨ (coreAt s.mod c).state = .faulted ∧ (coreAt s.mod c).reported = true) ∧
      (coreAt s.mod c).scrubbing = false) →
    ((∃ k ∈ cmdClusters ws, inDark s.mod k = true) → Gives (.cmdStart x) s (fun t => t.mod.ctxs = s.mod.ctxs ∧
      (∀ c, coreAt t.mod c = if c ∈ cmdCores ws ∧ inDark s.mod (clusterOf c) = true then { coreAt s.mod c with waking := true } else coreAt s.mod c) ∧
      KeepsButRungs s.mod t.mod [])) ∧
    ((∀ k ∈ cmdClusters ws, inDark s.mod k = false) → Gives (.cmdStart x) s (fun t => CmdBegins s.mod t.mod x.val ws (cmdCores ws) ∧
      (∀ c ∈ cmdCores ws, coreAt t.mod c = if (coreAt s.mod c).lastCtx = none ∨ (coreAt s.mod c).lastCtx = some x
        then started (coreAt s.mod c) x (ctxAt s.mod x.val).part.val (cfld ws 1 50 40)
        else { coreAt s.mod c with state := .halted, scrubbing := true, wait := none, reported := false }) ∧
      (∀ c, c ∉ cmdCores ws → coreAt t.mod c = coreAt s.mod c) ∧
      (∀ o, (∀ k ∈ cmdClusters ws, o ≠ rGafClStat k ∧ o ≠ rGafClWakes k) → rd t.mod o = rd s.mod o)))) ∧
  (∀ (c : Core) (s : State) (y : CoreSt), y = coreAt s.mod c.val →
    ((y.scrubbing = false ∨ clRolling s.mod (clusterOf c.val) = false) → Gives (.coreScrubDone c) s (fun t => t = s)) ∧
    (y.scrubbing = true → clRolling s.mod (clusterOf c.val) = true →
      (∀ e ∈ s.mod.ctxs, ∀ q ∈ e.2.cmds, cfld q.words 0 7 0 = 1 → c.val ∉ q.cores) → Gives (.coreScrubDone c) s (fun t =>
        coreAt t.mod c.val = scrubbed y ∧ (∀ k, k ≠ c.val → coreAt t.mod k = coreAt s.mod k) ∧
        (∀ a, sget memDefault t.mod.lmem a = if c.val * lsTop ≤ a ∧ a < c.val * lsTop + lsTop then 0 else sget memDefault s.mod.lmem a) ∧
        (∀ a, sget memDefault t.mod.imem a = if c.val * 0x4000 ≤ a ∧ a < c.val * 0x4000 + 0x4000 then 0 else sget memDefault s.mod.imem a) ∧
        t = { s with mod := { s.mod with cores := t.mod.cores, lmem := t.mod.lmem, imem := t.mod.imem, ecc := t.mod.ecc } })) ∧
    (∀ (x : Ctx) q, y.scrubbing = true → clRolling s.mod (clusterOf c.val) = true → s.mod.ctxs.findSome? (fun e =>
        (e.2.cmds.find? (fun q => cfld q.words 0 7 0 == 1 && q.cores.contains c.val)).map (fun q => (e.1, q))) = some (x.val, q) →
      Gives (.coreScrubDone c) s (fun t =>
        coreAt t.mod c.val = started (scrubbed y) x (ctxAt s.mod x.val).part.val (cfld q.words 1 50 40) ∧
        (∀ k, k ≠ c.val → coreAt t.mod k = coreAt s.mod k) ∧ t.mod.mem = s.mod.mem ∧ t.mod.regs = s.mod.regs))) ∧
  (∀ (x : Ctx) (s : State) (ws : List W64) (run : List Nat), SqReady s.mod x.val 2 ws → cmdRange s.mod x.val ws = none →
    (∀ c ∈ cmdCores ws, (coreAt s.mod c).scrubbing = false) →
    run = (cmdCores ws).filter (fun c => decide ((coreAt s.mod c).state = .running ∨ (coreAt s.mod c).state = .waiting)) →
    (run = [] → Gives (.cmdStop x) s (fun t => CmdEnds s.mod t.mod x.val ws 0 0 0 ∧ t.mod.regs = s.mod.regs ∧ t.mod.cores = s.mod.cores)) ∧
    (run ≠ [] → Gives (.cmdStop x) s (fun t => CmdBegins s.mod t.mod x.val ws run ∧
      (∀ c ∈ run, coreAt t.mod c = { coreAt s.mod c with
        state := .running, wait := none, wakeDone := false, halting := some ((coreAt s.mod c).halting.getD 0x3FFF) }) ∧
      (∀ c, c ∉ run → coreAt t.mod c = coreAt s.mod c) ∧ t.mod.regs = s.mod.regs))) ∧
  (∀ (x : Ctx) (s : State) (ws : List W64) (key : Nat), SqReady s.mod x.val 3 ws → key = 5000 + (ctxAt s.mod x.val).part.val →
    Gives (.cmdHevent x) s (fun t => CmdEnds s.mod t.mod x.val ws 0 0 0 ∧
      (∀ i, i < 16 → evFlag t.mod key (48 + i) = if (cfld ws 1 15 0).testBit i then (cfld ws 1 31 16).testBit i else evFlag s.mod key (48 + i)) ∧
      (∀ k e, e < 64 → (k ≠ key ∨ e < 48) → evFlag t.mod k e = evFlag s.mod k e) ∧ t.mod.regs = s.mod.regs)) ∧
  (∀ (x : Ctx) (s : State) (ws : List W64) (a b n : Nat), SqReady s.mod x.val 4 ws → a = cfld ws 1 63 0 → b = cfld ws 2 63 0 → n = cfld ws 3 31 0 →
    ((a % 64 ≠ 0 ∨ b % 64 ≠ 0 ∨ n % 64 ≠ 0 ∨ n = 0 ∨ (cfld ws 4 0 0 = 0 ∧ a < b + n ∧ b < a + n)) → Gives (.cmdCopy x) s (fun t =>
      CmdEnds s.mod t.mod x.val ws 3 0 0 ∧ t.mod.regs = s.mod.regs ∧ t.mod.movers = s.mod.movers)) ∧
    (a % 64 = 0 → b % 64 = 0 → n % 64 = 0 → n ≠ 0 → (cfld ws 4 0 0 = 1 ∨ b + n ≤ a ∨ a + n ≤ b) →
      ((∀ i, i < 8 → moverAt s.mod i ≠ none) → Gives (.cmdCopy x) s (fun t => t = s)) ∧
      (∀ i, (List.range 8).find? (fun i => (moverAt s.mod i).isNone) = some i → Gives (.cmdCopy x) s (fun t =>
        CmdBegins s.mod t.mod x.val ws [] ∧ moverAt t.mod i = some ⟨.command x.val ws, x.val, a, b, n, none, false⟩ ∧
        (∀ j, j ≠ i → moverAt t.mod j = moverAt s.mod j) ∧ t = { s with mod := { s.mod with ctxs := t.mod.ctxs, movers := t.mod.movers } })))) ∧
  (∀ (x : Ctx) (s : State) (ws : List W64) (p : Nat), SqReady s.mod x.val 5 ws → p = (ctxAt s.mod x.val).part.val → cfld ws 1 3 0 = 2 →
    (prPhase s.mod p = 1 → Gives (.cmdPrint x) s (fun t => CmdEnds s.mod t.mod x.val ws 0 0 0 ∧ prPhase t.mod p = 2 ∧
      KeepsRegs s.mod t.mod [rPrStat p] ∧ t.mod.cores = s.mod.cores)) ∧
    (prPhase s.mod p ≠ 1 → Gives (.cmdPrint x) s (fun t => CmdEnds s.mod t.mod x.val ws 7 0 0 ∧ fld t.mod (rPrErr p) 0 0 = 1 ∧
      KeepsRegs s.mod t.mod [rPrErr p] ∧ t.mod.cores = s.mod.cores)))

/-- R255, R257, R258, R399: movers and remote copies. A mover's job that translates is copied and ends its storyboard entry or its
COPY, or leaves the lines that are refused or held for later; a page fault leaves the storyboard engine Faulted at the entry, or ends the COPY with its fault; a remote COPY ends with its
acknowledgement or its timeout, and data that arrives for a context of the group id is written. (The model's own readings in it:
logs 29 and 40.) -/
def Obligations.MoversAndCopies : Prop :=
  (∀ (i : Fin 8) (s : State) (j : MoverJob), moverAt s.mod i.val = some j → j.refused = false →
    (∀ e run index, j.owner = .entry e run index → moverFault s.mod j = none → (∀ l ∈ moverTodo j, lineHeld s.mod j l = false) → s.mod.ecc = [] →
      (sbAt s.mod e).stopping = false → Gives (.moverComplete i) s (fun t =>
      moverAt t.mod i.val = none ∧ t.mod.mem = ((moverTodo j).foldl (fun m l =>
        vaPuts m j.ctx (j.dst + 64 * l) (vaBytes m j.ctx (j.src + 64 * l) 64)) s.mod).mem ∧
      sbAt t.mod e = { sbAt s.mod e with out := (sbAt s.mod e).out.map (fun o =>
        if o.index = index ∧ o.run = run then { o with mover := false } else o) } ∧
      (rd t.mod rMoveBytes).toNat = min ((rd s.mod rMoveBytes).toNat + 64 * (moverTodo j).length) (2 ^ 48 - 1) ∧
      KeepsRegs s.mod t.mod [rMoveBytes] ∧ t.mod.cores = s.mod.cores)) ∧
    (∀ left, left = (moverTodo j).filter (lineHeld s.mod j) → left ≠ [] → moverFault s.mod j = none → s.mod.ecc = [] →
      ((∃ e run index, j.owner = .entry e run index) ∨ (∃ x ws, j.owner = .command x ws ∧ copyRemote ws = false)) →
      Gives (.moverComplete i) s (fun t =>
        moverAt t.mod i.val = some { j with todo := some left, refused := true } ∧ (∀ n, n ≠ i.val → moverAt t.mod n = moverAt s.mod n) ∧
        t.mod.mem = (((moverTodo j).filter (fun l => !lineHeld s.mod j l)).foldl (fun m l =>
          vaPuts m j.ctx (j.dst + 64 * l) (vaBytes m j.ctx (j.src + 64 * l) 64)) s.mod).mem ∧
        (rd t.mod rMoveBytes).toNat = min ((rd s.mod rMoveBytes).toNat + 64 * ((moverTodo j).length - left.length)) (2 ^ 48 - 1) ∧
        KeepsButRungs s.mod t.mod [rMoveBytes] ∧ t.mod.cores = s.mod.cores ∧ t.mod.sbs = s.mod.sbs ∧ t.mod.ctxs = s.mod.ctxs)) ∧
    (∀ x ws q, j.owner = .command x ws → copyRemote ws = false → (ctxAt s.mod x).cmds.find? (fun q => q.words == ws) = some q → s.mod.ecc = [] →
      (moverFault s.mod j = none → (∀ l ∈ moverTodo j, lineHeld s.mod j l = false) → Gives (.moverComplete i) s (fun t => moverAt t.mod i.val = none ∧
        (ctxAt t.mod x).cmds = (ctxAt s.mod x).cmds.erase q ∧
        (rd t.mod rMoveBytes).toNat = min ((rd s.mod rMoveBytes).toNat + 64 * (moverTodo j).length) (2 ^ 48 - 1) ∧
        KeepsRegs s.mod t.mod [rMoveBytes] ∧ t.mod.cores = s.mod.cores)) ∧
      (moverFault s.mod j ≠ none → Gives (.moverPageFault i) s (fun t => moverAt t.mod i.val = none ∧
        (ctxAt t.mod x).cmds = (ctxAt s.mod x).cmds.erase q ∧ KeepsRegs s.mod t.mod [rMoveBytes] ∧ t.mod.cores = s.mod.cores))) ∧
    (∀ x ws, j.owner = .command x ws → copyRemote ws = true → s.mod.ecc = [] → moverFault s.mod j = none →
      (rangeBusy s.mod j.ctx j.src j.len false = false → Gives (.moverComplete i) s (fun t => moverAt t.mod i.val = none ∧
        (ctxAt t.mod x).cmds = (ctxAt s.mod x).cmds ∧
        (rd t.mod rMoveBytes).toNat = min ((rd s.mod rMoveBytes).toNat + j.len) (2 ^ 48 - 1) ∧ t.mod.cores = s.mod.cores)) ∧
      (rangeBusy s.mod j.ctx j.src j.len false = true → Gives (.moverComplete i) s (fun t => moverAt t.mod i.val = some { j with refused := true } ∧
        KeepsButRungs s.mod t.mod [] ∧ t.mod.mem = s.mod.mem ∧ t.mod.ctxs = s.mod.ctxs))) ∧
    (∀ e run index va kind, j.owner = .entry e run index → index < 2 ^ 20 → moverFault s.mod j = some (va, kind) → s.mod.ecc = [] →
      (sbAt s.mod e).restart = false →
      (run = (sbAt s.mod e).run → (sbAt s.mod e).resumeAt = none → Gives (.moverPageFault i) s (fun t =>
        moverAt t.mod i.val = none ∧ sbState t.mod e = 5 ∧ sbIndex t.mod e = index ∧ (rd t.mod (rSbFaddr e)).toNat = va % 2 ^ 57 ∧
        (sbAt t.mod e).resumeAt = some (sbIndex s.mod e, (sbAt s.mod e).sub, if sbState s.mod e = 5 then 1 else sbState s.mod e) ∧
        KeepsRegs s.mod t.mod [rMoveBytes, rSbStat e, rSbFaddr e, rSbErr e] ∧ t.mod.cores = s.mod.cores)) ∧
      (run = (sbAt s.mod e).run → (sbAt s.mod e).resumeAt ≠ none → Gives (.moverPageFault i) s (fun t =>
        moverAt t.mod i.val = none ∧ sbState t.mod e = 5 ∧ sbIndex t.mod e = sbIndex s.mod e ∧ (rd t.mod (rSbFaddr e)).toNat = va % 2 ^ 57 ∧
        (sbAt t.mod e).redo = (sbAt s.mod e).redo ++ [index] ∧ t.mod.cores = s.mod.cores)) ∧
      (run ≠ (sbAt s.mod e).run → Gives (.moverPageFault i) s (fun t => moverAt t.mod i.val = none ∧ rd t.mod (rSbStat e) = rd s.mod (rSbStat e) ∧
        (rd t.mod (rSbFaddr e)).toNat = va % 2 ^ 57 ∧ fld t.mod (rSbErr e) 3 3 = 1 ∧ t.mod.cores = s.mod.cores)))) ∧
  (∀ (x : Ctx) (s : State) (q : CtxCmd), remoteCopy s.mod x.val = some q → ∀ i,
    (i = .copyAckTimeout x ∨ (∃ f, i = .remoteCopyAck x f)) → ((ctxAt s.mod x.val).cmds.find? (fun c => c.words == q.words)) = some q →
    Gives i s (fun t => (ctxAt t.mod x.val).cmds = (ctxAt s.mod x.val).cmds.erase q ∧ t.mod.regs = s.mod.regs ∧ t.mod.cores = s.mod.cores)) ∧
  (∀ (q : Port) (src : BitVec 15) (gid : W16) (dst : W64) (x : Ctx) (data : List Byte) (s : State),
    (((ctxAt s.mod x.val).active = false ∨ grpId s.mod (ctxAt s.mod x.val).part.val ≠ gid.toNat) → Gives (.bulkCopyData q src gid dst x data) s (fun t =>
      Counted s.mod t.mod (rZwDrop 4) ∧ t.mod.mem = s.mod.mem ∧ t.mod.tx = s.mod.tx ∧ t.mod.cores = s.mod.cores)) ∧
    ((ctxAt s.mod x.val).active = true → grpId s.mod (ctxAt s.mod x.val).part.val = gid.toNat →
      (rangeBusy s.mod x.val dst.toNat data.length true = true → Gives (.bulkCopyData q src gid dst x data) s (fun t =>
        t.mod.mem = s.mod.mem ∧ t.mod.tx = s.mod.tx ∧ KeepsButRungs s.mod t.mod [])) ∧
      (∀ m', rangeBusy s.mod x.val dst.toNat data.length true = false → vaWrite s.mod x.val dst.toNat data = .ok m' → Gives (.bulkCopyData q src gid dst x data) s (fun t =>
        t.mod.mem = m'.mem ∧ t.mod.cores = s.mod.cores ∧ t.mod.lmem = s.mod.lmem)) ∧
      (∀ e, rangeBusy s.mod x.val dst.toNat data.length true = false → vaWrite s.mod x.val dst.toNat data = .error e → Gives (.bulkCopyData q src gid dst x data) s (fun t =>
        t.mod.mem = s.mod.mem ∧ t.mod.cores = s.mod.cores ∧ t.mod.lmem = s.mod.lmem)))) ∧
  (∀ (fn : Fn) (off len : Nat) (s : State), inBar4 s.mod fn off len = false → Gives (.bar4Read fn off len) s (fun t => t = s) ∧
    ∀ data, data.length = len → Gives (.bar4Write fn off data) s (fun t => t = s)) ∧
  (∀ (fn : Fn) (off len : Nat) (s : State), fnThere s.mod fn = true → modState s.mod = 0 → inBar4 s.mod fn off len = true →
    (∀ a, bar4Addr s.mod fn off len = some a → bar4Held s.mod a len = false → Gives (.bar4Read fn off len) s (fun t =>
      fnAt t.mod (fnKey fn) = { fnAt s.mod (fnKey fn) with readData := memRead s.mod a len, poisoned := memBad s.mod a len } ∧
        (∀ g, g ≠ fnKey fn → fnAt t.mod g = fnAt s.mod g) ∧ t.mod.cores = s.mod.cores ∧
        (memBad s.mod a len = false → t = { s with mod := { s.mod with fns := t.mod.fns } }))) ∧
    (∀ a, bar4Addr s.mod fn off len = some a → bar4Held s.mod a len = true → Gives (.bar4Read fn off len) s (fun t =>
      t.mod.fns = s.mod.fns ∧ t.mod.mem = s.mod.mem ∧ KeepsButRungs s.mod t.mod [])) ∧
    (bar4Addr s.mod fn off len = none → Gives (.bar4Read fn off len) s (fun t =>
      (fnAt t.mod (fnKey fn)).readData = List.replicate len 0xFF ∧ Counted s.mod t.mod rModAuditN ∧
      (match fn with | .pf => fld t.mod rModErr 3 3 = 1 | .vf p => Counted s.mod t.mod (rPartDeny p.val)) ∧ t.mod.cores = s.mod.cores)) ∧
    (∀ a data, data.length = len → bar4Addr s.mod fn off len = some a → bar4Held s.mod a len = false →
      Gives (.bar4Write fn off data) s (fun t => t.mod.mem = (memWrite s.mod a data).mem ∧
        t = { s with mod := { s.mod with mem := t.mod.mem, pins := t.mod.pins, ecc := t.mod.ecc } })) ∧
    (∀ data, data.length = len → bar4Addr s.mod fn off len = none → Gives (.bar4Write fn off data) s (fun t => Counted s.mod t.mod rModAuditN ∧
      (match fn with | .pf => fld t.mod rModErr 3 3 = 1 | .vf p => Counted s.mod t.mod (rPartDeny p.val)) ∧ t.mod.cores = s.mod.cores))) ∧
  (∀ (p : Part) (s : State), ((fnAt s.mod (p.val + 1)).enabled = false → Gives (.vfFlr p) s (fun t => t = s)) ∧
    ((fnAt s.mod (p.val + 1)).enabled = true → Gives (.vfFlr p) s (fun t => fnAt t.mod (p.val + 1) = { FnSt.reset with enabled := true } ∧
      fld t.mod (rPartOwner p.val) 11 0 = 0 ∧
      (fld s.mod (rPartOwner p.val) 11 0 ≠ 0 → ∀ ev, (∀ k ∈ clustersOfPart s.mod p.val, evFlag t.mod k ev = false) ∧
        evFlag t.mod (5000 + p.val) ev = false) ∧ (∀ x, (ctxAt t.mod x).active = true → (ctxAt t.mod x).part ≠ p) ∧
      (∀ g, g ≠ p.val + 1 → fnAt t.mod g = fnAt s.mod g))))

/-- R409, R412 to R426, R513: the power ladder. Requests and wakes of a cluster, its drain, entry and exit, automatic requests and
REST windows; standby; and the loops of clock steps, temperature, power and current. (The model's own readings in it: logs 44 and
45.) -/
def Obligations.PowerLadder : Prop :=
  (∀ (fn : Fn) (k : Cluster) (req : W32) (s : State) (m1 : Mod), Reaches s.mod fn (rGafClCtl k.val) →
    m1 = wr s.mod (rGafClCtl k.val) (BitVec.ofNat 64 (bits req 8 8 * 256 + bits req 4 4 * 16)) →
    (bits req 2 0 = 0 → Gives (.clRungRequest fn k req) s (fun t => t = { s with mod := t.mod } ∧ Woke m1 t.mod k.val)) ∧
    (1 ≤ bits req 2 0 → bits req 2 0 ≤ 5 → Gives (.clRungRequest fn k req) s (fun t => t = { s with mod := t.mod } ∧ Requested m1 t.mod k.val (bits req 2 0))) ∧
    (6 ≤ bits req 2 0 → Gives (.clRungRequest fn k req) s (fun t => RegStep s t [(rGafClCtl k.val, rd m1 (rGafClCtl k.val)),
      (rGafErr (k.val / 625), put (rd s.mod (rGafErr (k.val / 625))) 0 0 1)]))) ∧
  (∀ (fn : Fn) (k : Cluster) (s : State), Reaches s.mod fn (rGafClCtl k.val) → Gives (.clWake fn k) s (fun t => t = { s with mod := t.mod } ∧
    Woke (wr s.mod (rGafClCtl k.val) (BitVec.ofNat 64 (fld s.mod (rGafClCtl k.val) 8 8 * 256 + fld s.mod (rGafClCtl k.val) 4 4 * 16))) t.mod k.val)) ∧
  (∀ (k : Cluster) (s : State) (d r : Nat) (st : Nat), d = k.val / 625 → st = rGafClStat k.val → r = fld s.mod st 5 3 →
    (clPhase s.mod k.val = 1 → clQuiet s.mod k.val = true → Gives (.drainQuiet k) s (fun t => RegStep s t [(st, put (rd s.mod st) 7 6 2)])) ∧
    ((clPhase s.mod k.val ≠ 1 ∨ clQuiet s.mod k.val = false) → Gives (.drainQuiet k) s (fun t => t = s)) ∧
    ((clPhase s.mod k.val ≠ 1 ∨ clQuiet s.mod k.val = true) → Gives (.drainDeadline k) s (fun t => t = s)) ∧
    (clPhase s.mod k.val = 1 → clQuiet s.mod k.val = false →
      (fld s.mod (rGafClCtl k.val) 4 4 = 1 → (∀ c ∈ coresOf k.val, (coreAt s.mod c).state ≠ .running) → Gives (.drainDeadline k) s (fun t =>
        clPhase t.mod k.val = 2 ∧ fld t.mod (rGafErr d) 2 2 = 1 ∧ Counted s.mod t.mod (rGafForced d) ∧ clRung t.mod k.val = clRung s.mod k.val)) ∧
      ((fld s.mod (rGafClCtl k.val) 4 4 = 0 ∨ ∃ c ∈ coresOf k.val, (coreAt s.mod c).state = .running) → Gives (.drainDeadline k) s (fun t =>
        clPhase t.mod k.val = 0 ∧ fld t.mod st 5 3 = 0 ∧ fld t.mod st 9 9 = 1 ∧ fld t.mod (rGafErr d) 1 1 = 1 ∧ Counted s.mod t.mod (rGafRefused d) ∧
        clRung t.mod k.val = clRung s.mod k.val ∧ t.mod.cores = s.mod.cores ∧ t.mod.chans = s.mod.chans ∧ t.mod.mem = s.mod.mem))) ∧
    (clPhase s.mod k.val ≠ 2 → Gives (.rungEntryDone k) s (fun t => t = s)) ∧
    (clPhase s.mod k.val = 2 → 1 ≤ r → r ≤ 5 → fld s.mod st 11 11 = 0 → (r = 5 → (clAt s.mod k.val).reload = false) → (clAt s.mod k.val).held = none → Gives (.rungEntryDone k) s (fun t =>
      clRung t.mod k.val = r ∧ clPhase t.mod k.val = 0 ∧
      clAt t.mod k.val = { clAt s.mod k.val with lowSince := if clRung s.mod k.val = 0 then s.mod.hclk else (clAt s.mod k.val).lowSince } ∧
      (clRung s.mod k.val ≠ r → fld t.mod (rGafRungs d) (10 * r + 9) (10 * r) = (fld s.mod (rGafRungs d) (10 * r + 9) (10 * r) + 1) % 2 ^ 10) ∧
      KeepsRegs s.mod t.mod [st, rGafRungs d] ∧ ClusterOnly s.mod t.mod k.val)) ∧
    (clPhase s.mod k.val = 2 → 1 ≤ r → r ≤ 5 → (fld s.mod st 11 11 = 1 ∨ r = 5 ∧ (clAt s.mod k.val).reload = true) →
      Gives (.rungEntryDone k) s (fun t =>
      clRung t.mod k.val = r ∧ clPhase t.mod k.val = 3 ∧ fld t.mod st 11 11 = 0 ∧ Counted s.mod t.mod (rGafClWakes k.val) ∧
      (clAt t.mod k.val).reload = false ∧ (clAt t.mod k.val).held = none ∧ ClusterOnly s.mod t.mod k.val)) ∧
    (∀ cycles p, clPhase s.mod k.val = 3 → clRung s.mod k.val = 5 → partOfCluster s.mod k.val = some p → (clAt s.mod k.val).held = none →
      (∀ c ∈ coresOf k.val, (coreAt s.mod c).state ≠ .waiting) → Gives (.rungExitDone k cycles) s (fun t =>
      clRung t.mod k.val = 0 ∧ clPhase t.mod k.val = 0 ∧ (∀ c, c ∉ coresOf k.val → coreAt t.mod c = coreAt s.mod c) ∧
      (∀ c ∈ coresOf k.val, (coreAt s.mod c).waking = false → coreAt t.mod c = { CoreSt.reset with
        haloIn := (coreAt s.mod c).haloIn, haloPos := (coreAt s.mod c).haloPos, lastCtx := (coreAt s.mod c).lastCtx }) ∧
      (∀ ch, ch < 16 → chanAt t.mod k.val ch = ChanSt.reset) ∧
      (∀ o, clBase k.val ≤ o → o < clBase k.val + 0x400 → o ≠ st → rd t.mod o = regReset o) ∧
      (∀ a, (a < nearAddr k.val ∨ nearAddr k.val + 0x100000 ≤ a) → sget memDefault t.mod.mem a = sget memDefault s.mod.mem a) ∧
      (∀ ev, evFlag t.mod k.val ev = false))) ∧
    (∀ cycles p, clPhase s.mod k.val = 3 → clRung s.mod k.val ≠ 5 → partOfCluster s.mod k.val = some p → (clAt s.mod k.val).held = none →
      Gives (.rungExitDone k cycles) s (fun t =>
      clRung t.mod k.val = 0 ∧ clPhase t.mod k.val = 0 ∧
      (rd t.mod (rGafClLow k.val)).toNat = min ((rd s.mod (rGafClLow k.val)).toNat + (s.mod.hclk - (clAt s.mod k.val).lowSince)) (2 ^ 48 - 1) ∧
      (∀ c, c ∉ coresOf k.val → coreAt t.mod c = coreAt s.mod c) ∧
      (∀ c ∈ coresOf k.val, (coreAt s.mod c).state = .halted → (coreAt s.mod c).wait = none → (coreAt s.mod c).wakeDone = false →
        (coreAt s.mod c).waking = false → coreAt t.mod c = coreAt s.mod c) ∧ t.mod.mem = s.mod.mem ∧ t.mod.chans = s.mod.chans)) ∧
    (∀ cycles, clPhase s.mod k.val ≠ 3 → Gives (.rungExitDone k cycles) s (fun t => t = s)) ∧
    (∀ i ∈ [(Instr.autoHoldIdle, 23, 16, 1), (.autoStillIdle, 15, 8, 2)],
      (fld s.mod (rGafClCtl k.val) 8 8 = 1 → fld s.mod (rGafCtl d) i.2.1 i.2.2.1 ≠ 0 → clQuiet s.mod k.val = true → rungBlocked s.mod k.val = false →
        clPhase s.mod k.val = 0 → clRung s.mod k.val < i.2.2.2 → Gives (i.1 k) s (fun t => RegStep s t [(st, put (put (put (rd s.mod st) 7 6 2) 5 3 i.2.2.2) 9 9 0)])) ∧
      ((fld s.mod (rGafClCtl k.val) 8 8 = 0 ∨ fld s.mod (rGafCtl d) i.2.1 i.2.2.1 = 0 ∨ clQuiet s.mod k.val = false ∨ rungBlocked s.mod k.val = true ∨
        clPhase s.mod k.val ≠ 0 ∨ i.2.2.2 ≤ clRung s.mod k.val) → Gives (i.1 k) s (fun t => t = s))) ∧
    ((clAt s.mod k.val).restCue = none → Gives (.restWindowEnd k) s (fun t => t = s)) ∧
    ((clAt s.mod k.val).restCue ≠ none → Gives (.restWindowEnd k) s (fun t => t = { s with mod := t.mod } ∧
      Woke (setCl s.mod k.val { clAt s.mod k.val with restCue := none }) t.mod k.val))) ∧
  (∀ (fn : Fn) (s : State), Reaches s.mod fn rGafModCmd →
    ((modState s.mod ≠ 0 ∨ standbyAllowed s.mod = false) → Gives (.standbyEnter fn) s (fun t => RegStep s t [(rGafModErr, put (rd s.mod rGafModErr) 1 1 1)])) ∧
    (modState s.mod = 0 → standbyAllowed s.mod = true → Gives (.standbyEnter fn) s (fun t => modState t.mod = 1 ∧ t.mod.standbyWake = false ∧
      (∀ q, q < 6 → portState s.mod q = 3 → (portAt s.mod q).committed = false → (portAt s.mod q).asked = false → portQuiet s.mod q = true →
        (portAt t.mod q).requested = true) ∧
      t.mod.cores = s.mod.cores ∧ t.mod.mem = s.mod.mem ∧
      (∀ o, o ≠ rGafModStat → (∀ k, k < 5000 → o ≠ rGafClStat k) → rd t.mod o = rd s.mod o))) ∧
    (modState s.mod = 1 → Gives (.standbyLeave fn) s (fun t => t = { s with mod := { s.mod with standbyWake := true } })) ∧
    (modState s.mod = 2 → Gives (.standbyLeave fn) s (fun t => modState t.mod = 3 ∧
      t = { s with mod := { s.mod with regs := t.mod.regs, clusters := t.mod.clusters } })) ∧
    (modState s.mod ≠ 1 → modState s.mod ≠ 2 → Gives (.standbyLeave fn) s (fun t => t = s))) ∧
  (∀ s : State, (modState s.mod = 1 → s.mod.standbyWake = false → Gives .standbyEntryDone s (fun t => RegStep s t [(rGafModStat, put (rd s.mod rGafModStat) 2 0 2)])) ∧
    (modState s.mod = 1 → s.mod.standbyWake = true → Gives .standbyEntryDone s (fun t => modState t.mod = 3 ∧ t.mod.standbyWake = false ∧
      t.mod.cores = s.mod.cores ∧ t.mod.mem = s.mod.mem)) ∧
    (modState s.mod ≠ 1 → Gives .standbyEntryDone s (fun t => t = s)) ∧
    Gives .standbyExitDone s (fun t => if modState s.mod = 3 then RegStep s t [(rGafModStat, put (rd s.mod rGafModStat) 2 0 0)] else t = s)) ∧
  (∀ (fn : Fn) (s : State), Reaches s.mod fn rGafModLock → Gives (.gafferModLockWrite fn) s (fun t =>
    RegStep s t [(rGafModLock, put (rd s.mod rGafModLock) 0 0 1)])) ∧
  (∀ (d : Die) (s : State) (x : GafSt) (k : Nat), x = gafAt s.mod d.val → k = fld s.mod (rGafFreq d.val) 20 16 →
    Gives (.freqStepDone d) s (fun t => RegStep s t [(rGafFreq d.val, if k < stepTarget s.mod d.val then put (rd s.mod (rGafFreq d.val)) 20 16 (k + 1)
      else if stepTarget s.mod d.val < k then put (rd s.mod (rGafFreq d.val)) 20 16 (k - 1) else rd s.mod (rGafFreq d.val))]) ∧
    (throttleAt s.mod d.val ≤ hottest s.mod d.val → x.hot = true → Gives (.thermalStepDown d) s (fun t =>
      t = { s with mod := setGaf s.mod d.val { x with kth := max 4 (x.kth - 1) } })) ∧
    ((hottest s.mod d.val < throttleAt s.mod d.val ∨ x.hot = false) → Gives (.thermalStepDown d) s (fun t => t = s)) ∧
    (hottest s.mod d.val ≤ releaseAt s.mod d.val → Gives (.thermalStepUp d) s (fun t =>
      t = { s with mod := setGaf s.mod d.val { x with kth := min 16 (x.kth + 1) } })) ∧
    (releaseAt s.mod d.val < hottest s.mod d.val → Gives (.thermalStepUp d) s (fun t => t = s))) ∧
  (∀ (a1 a100 aS : Nat) (s : State) (cap peak k n : Nat), cap = min 15000 (max 1000 (fld s.mod rGafModPcap 15 0)) →
    peak = min 17000 (max cap (fld s.mod rGafModPeak 15 0)) → k = fld s.mod (rGafFreq 0) 12 8 → n = s.mod.pwrSamples + 1 →
    Gives (.powerSample a1 a100 aS) s (fun t =>
      rd t.mod rGafModPower = BitVec.ofNat 64 (min 65535 a1 + min 65535 aS * 65536) ∧
      (∀ d, d < 8 → fld t.mod (rGafFreq d) 12 8 = if peak - 500 < a1 then max 4 (k - 4) else if cap - 250 < a100 ∧ 100 ≤ n then max 4 (k - 1)
        else if a100 < cap - 750 ∧ 100 ≤ n then min 16 (k + 1) else fld s.mod (rGafFreq d) 12 8) ∧
      (∀ o, o ≠ rGafModPower → (∀ d, d < 8 → o ≠ rGafFreq d) → rd t.mod o = rd s.mod o) ∧
      t = { s with mod := { s.mod with regs := t.mod.regs, pwrSamples := t.mod.pwrSamples } })) ∧
  (∀ (peak : Nat) (s : State), Gives (.currentOverLimit peak) s (fun t =>
      (∀ d, d < 8 → gafAt t.mod d = { gafAt s.mod d with curGated := true } ∧ fld t.mod (rGafFreq d) 12 8 = max 4 (fld s.mod (rGafFreq 0) 12 8 - 4)) ∧
      t.mod.cores = s.mod.cores ∧ t.mod.mem = s.mod.mem) ∧
    Gives .currentLimitRelease s (fun t => (∀ d, gafAt t.mod d = if d < 8 then { gafAt s.mod d with curGated := false } else gafAt s.mod d) ∧
      t = { s with mod := { s.mod with gafs := t.mod.gafs } })) ∧
  (∀ (b : Bay) (avg : W16) (mJ : Nat) (s : State) (key : Nat), key = 64 * (((List.range 12).find? (fun p => partHasBay s.mod p b.val)).getD 12) + b.val →
    Gives (.bayCurrentSample b avg mJ) s (fun t => rd t.mod (rGafBayI b.val) = BitVec.ofNat 64 avg.toNat ∧
      (rd t.mod (rGafBayE b.val)).toNat = min ((rd s.mod (rGafBayE b.val)).toNat + mJ) (2 ^ 48 - 1) ∧
      sget (fun _ => 0) t.mod.meterAcc key = sget (fun _ => 0) s.mod.meterAcc key + mJ ∧
      (∀ j, j ≠ key → sget (fun _ => 0) t.mod.meterAcc j = sget (fun _ => 0) s.mod.meterAcc j) ∧ KeepsRegs s.mod t.mod [rGafBayI b.val, rGafBayE b.val] ∧
      t = { s with mod := { s.mod with regs := t.mod.regs, meterAcc := t.mod.meterAcc } }))

/-- R428, R432 to R435, R439 to R455: repair, screen test, wear, telemetry and alarms. A record is added once, while the region
has room; the screen test acquires the eligible cluster of a bay whose last pass is oldest and gives it back at the end of its
pass or at a wake; a second of wear adds the rate of its temperature to every gauge; an event enters the telemetry queue by its
class, and leaves it for the PF's ring in order; an alarm enters the alarm ring and is copied. (The model's own readings in it:
logs 22 and 34.) -/
def Obligations.ReliabilityAndTelemetry : Prop :=
  (∀ (fn : Fn) (s : State) (x : W64), Reaches s.mod fn rRepCmd → x = rd s.mod rRepNew →
    (recValid (recCore x) = false → Gives (.repairAdd fn) s (fun t => RegStep s t [(rRepErr, put (rd s.mod rRepErr) 1 1 1)])) ∧
    (recValid (recCore x) = true → (∃ y ∈ repMap s.mod, recCore y = recCore x) → Gives (.repairAdd fn) s (fun t => t = s)) ∧
    (recValid (recCore x) = true → (∀ y ∈ repMap s.mod, recCore y ≠ recCore x) →
      (s.mod.infield.length < 4096 → Gives (.repairAdd fn) s (fun t => (∃ more, t.mod.infield = s.mod.infield ++ put (recCore x) 59 58 3 :: more) ∧
        rd t.mod rRepStat = BitVec.ofNat 64 (s.mod.production.length + t.mod.infield.length * 65536) ∧ t.mod.production = s.mod.production ∧
        t.mod.cores = s.mod.cores ∧ t.mod.mem = s.mod.mem)) ∧
      (4096 ≤ s.mod.infield.length → Gives (.repairAdd fn) s (fun t => t.mod.infield = s.mod.infield ∧ fld t.mod rRepErr 3 3 = 1 ∧
        rd t.mod rRepStat = rd s.mod rRepStat ∧ t.mod.cores = s.mod.cores ∧ t.mod.mem = s.mod.mem))) ∧
    Gives (.repairApply fn) s (fun t =>
      (∀ k, k < 5000 → repPending s.mod k = true → partOfCluster s.mod k = none → rungBlocked s.mod k = false → slotsUsed s.mod k = [] →
        clPhase s.mod k = 0 → 1 ≤ clRung s.mod k → clRung s.mod k < 5 →
        clPhase t.mod k = 2 ∧ fld t.mod (rGafClStat k) 5 3 = 5 ∧ (clAt t.mod k).reload = true) ∧
      (∀ k, k < 5000 → repPending s.mod k = false ∨ partOfCluster s.mod k ≠ none → clAt t.mod k = clAt s.mod k ∧
        rd t.mod (rGafClStat k) = rd s.mod (rGafClStat k)) ∧
      t = { s with mod := { s.mod with regs := t.mod.regs, clusters := t.mod.clusters } })) ∧
  (∀ (d : Die) (bay : Fin 5) (s : State),
    ((fld s.mod rScrCtl 0 0 = 0 ∨ (∃ k ∈ bayClusters d.val bay.val, (clAt s.mod k).screenHeld = true) ∨
      (∀ k ∈ bayClusters d.val bay.val, screenEligible s.mod k = false)) → Gives (.screenAcquire d bay) s (fun t => t = s)) ∧
    (∀ k, k ∈ bayClusters d.val bay.val → fld s.mod rScrCtl 0 0 = 1 → (∀ j ∈ bayClusters d.val bay.val, (clAt s.mod j).screenHeld = false) →
      screenEligible s.mod k = true → (∀ j ∈ bayClusters d.val bay.val, screenEligible s.mod j = true →
        (clAt s.mod k).lastPass ≤ (clAt s.mod j).lastPass ∧ (j < k → (clAt s.mod k).lastPass < (clAt s.mod j).lastPass)) →
      Gives (.screenAcquire d bay) s (fun t => clAt t.mod k = { clAt s.mod k with screenHeld := true, held := none } ∧
        (∀ j, j ≠ k → clAt t.mod j = clAt s.mod j) ∧ (rd t.mod rScrStat).toNat = ((rd s.mod rScrStat).toNat + 1) % 2 ^ 32 ∧
        KeepsRegs s.mod t.mod [rScrStat, rGafClStat k, rGafClWakes k] ∧
        t = { s with mod := { s.mod with regs := t.mod.regs, clusters := t.mod.clusters } }))) ∧
  (∀ (k : Cluster) (s : State) (x : ClusterSt) (p : Nat), x = clAt s.mod k.val →
    ((x.screenHeld = false ∨ clRolling s.mod k.val = false) → ∀ df, Gives (.screenStepDone k df) s (fun t => t = s)) ∧
    (x.screenHeld = true → clRolling s.mod k.val = true → x.screenStep + 1 ≠ passSteps →
      Gives (.screenStepDone k none) s (fun t => t = { s with mod := setCl s.mod k.val { x with screenStep := x.screenStep + 1 } }) ∧
      ∀ r, recValid (recCore r) = true → recOf s.mod k.val r = true → recKind r = (match stepKind x.screenStep with | 0 => 1 | 1 => 3 | _ => 4) →
        Gives (.screenStepDone k (some r)) s (fun t => clAt t.mod k.val = { x with screenStep := x.screenStep + 1 } ∧
          Counted s.mod t.mod rScrDefects ∧ fld t.mod rScrErr 0 0 = 1 ∧ t.mod.cores = s.mod.cores)) ∧
    (x.screenHeld = true → partOfCluster s.mod k.val = some p →
      (clRolling s.mod k.val = true → x.screenStep + 1 = passSteps → Gives (.screenStepDone k none) s (fun t =>
        clAt t.mod k.val = { x with screenStep := 0, lastPass := s.mod.hclk, screenHeld := false } ∧
        (rd t.mod rScrPasses).toNat = min ((rd s.mod rScrPasses).toNat + 1) (2 ^ 48 - 1) ∧ fld t.mod rScrStat 8 0 = fld s.mod rScrStat 8 0 - 1 ∧
        KeepsRegs s.mod t.mod [rScrPasses, rScrStat] ∧ ClusterOnly s.mod t.mod k.val)) ∧
      Gives (.screenRelease k) s (fun t => clAt t.mod k.val = { x with screenHeld := false } ∧ Counted s.mod t.mod rScrAborts ∧
        fld t.mod rScrStat 8 0 = fld s.mod rScrStat 8 0 - 1 ∧ KeepsRegs s.mod t.mod [rScrAborts, rScrStat] ∧ ClusterOnly s.mod t.mod k.val) ∧
      Gives (.screenWindowEnd k) s (fun t => clAt t.mod k.val = { x with screenHeld := false, screenCue := none } ∧
        fld t.mod rScrStat 8 0 = fld s.mod rScrStat 8 0 - 1 ∧ KeepsRegs s.mod t.mod [rScrStat] ∧ ClusterOnly s.mod t.mod k.val)) ∧
    (x.screenHeld = false → Gives (.screenRelease k) s (fun t => t = s) ∧ (x.screenCue ≠ none → Gives (.screenWindowEnd k) s (fun t =>
      t = { s with mod := setCl s.mod k.val { x with screenCue := none } }))) ∧
    (x.screenCue = none → x.screenHeld = false ∨ partOfCluster s.mod k.val = none → Gives (.screenWindowEnd k) s (fun t => t = s))) ∧
  (∀ (i : Stack) (line : Nat) (ce ue : List Nat) (s : State) (inb : List Nat → Nat),
    inb = (fun l => (l.filter (fun a => decide (line ≤ a) && decide (a < line + 64) && decide (a < 805306368))).length) →
    ((fld s.mod rScrCtl 3 3 = 0 ∨ fld s.mod rScrCtl 0 0 = 0) → Gives (.hbmPatrolBurst i line ce ue) s (fun t => t = s)) ∧
    (fld s.mod rScrCtl 3 3 = 1 → fld s.mod rScrCtl 0 0 = 1 → Gives (.hbmPatrolBurst i line ce ue) s (fun t =>
      fld t.mod (rWearHbm i.val) 31 0 = min (fld s.mod (rWearHbm i.val) 31 0 + inb ce) (2 ^ 32 - 1) ∧
      (0 < inb ue → (rd t.mod (rWearHbmUe i.val)).toNat = min ((rd s.mod (rWearHbmUe i.val)).toNat + inb ue) (2 ^ 32 - 1)) ∧
      (inb ue = 0 → rd t.mod (rWearHbmUe i.val) = rd s.mod (rWearHbmUe i.val)) ∧ t.mod.mem = s.mod.mem ∧ t.mod.cores = s.mod.cores))) ∧
  (∀ (temps stackTemps : List Int) (hub : Int) (s : State), Gives (.wearTick temps stackTemps hub) s (fun t =>
      (∀ k, k < 5000 → (gaugeAt t.mod k).secs = (gaugeAt s.mod k).secs + 1 ∧
        (gaugeAt t.mod k).g = (gaugeAt s.mod k).g + if clRung s.mod k ≤ 1 then wearRate (temps.getD (k / 625) 0) else 0) ∧
      (∀ i, i < 16 → (gaugeAt t.mod (10000 + i)).secs = (gaugeAt s.mod (10000 + i)).secs + 1 ∧
        (gaugeAt t.mod (10000 + i)).g = (gaugeAt s.mod (10000 + i)).g + if modState s.mod = 0 then wearRate (stackTemps.getD i 0) else 0) ∧
      (∀ q, q < 6 → (gaugeAt t.mod (20000 + q)).secs = (gaugeAt s.mod (20000 + q)).secs + 1 ∧
        (gaugeAt t.mod (20000 + q)).g = (gaugeAt s.mod (20000 + q)).g + if portState s.mod q = 3 then wearRate hub else 0) ∧
      t.mod.cores = s.mod.cores ∧ t.mod.mem = s.mod.mem) ∧
    Gives .wearSave s (fun t => t = { s with mod := { s.mod with savedGauges := s.mod.gauges } })) ∧
  (∀ (e : TelemEv) (s : State), 
    (e.cls = .alarm ∨ telemListed e = none → Gives (.telemEvent e) s (fun t => t = s)) ∧
    (e.cls = .trace → fld s.mod rTelCtl 0 0 = 0 → Gives (.telemEvent e) s (fun t => rd t.mod (rTelCount 3) = rd s.mod (rTelCount 3) ∧
      t.mod.cores = s.mod.cores ∧ t.mod.mem = s.mod.mem)) ∧
    (∀ e', telemListed e = some e' → e.cls ≠ .alarm → (e.cls = .trace → fld s.mod rTelCtl 0 0 = 1) →
      (((e.src.toNat % 16 ≠ 3 ∧ e.src.toNat % 16 ≠ 4) ∨ 3 ≤ e.code.toNat) → s.mod.telemQ.length < 256 → Gives (.telemEvent e) s (fun t =>
        t.mod.telemQ = closeHead (s.mod.telemQ ++ [⟨e', false, true, 1, s.mod.hclk, s.mod.hclk⟩]) ∧
        Counted s.mod t.mod (rTelCount (classCode e.cls)) ∧ rd t.mod rTelStat = BitVec.ofNat 64 (t.mod.telemQ.length * 2 ^ 16 + telemLevel t.mod.telemQ.length) ∧
        KeepsRegs s.mod t.mod [rTelCount (classCode e.cls), rTelStat] ∧
        t = { s with mod := { s.mod with regs := t.mod.regs, telemQ := t.mod.telemQ } })) ∧
      (e.src.toNat % 16 = 3 → e.code = 1 → e.src.toNat / 16 < 8 → Gives (.telemEvent e) s (fun t =>
        (rd t.mod (rRepCe (e.src.toNat / 16))).toNat = min ((rd s.mod (rRepCe (e.src.toNat / 16))).toNat + 1) (2 ^ 48 - 1) ∧
        t.mod.cores = s.mod.cores ∧ t.mod.mem = s.mod.mem)) ∧
      (e.src.toNat % 16 = 4 → e.code = 1 → evField e' 0 1 < 16 → Gives (.telemEvent e) s (fun t =>
        fld t.mod (rWearHbm (evField e' 0 1)) 31 0 = min (fld s.mod (rWearHbm (evField e' 0 1)) 31 0 + 1) (2 ^ 32 - 1) ∧
        t.mod.cores = s.mod.cores ∧ t.mod.mem = s.mod.mem)))) ∧
  (∀ (src : Byte) (cls : EvClass) (s : State), Gives (.telemFlush src cls) s (fun t => t = { s with mod := { s.mod with
    telemQ := s.mod.telemQ.map (fun x => if x.coalesced = true ∧ x.ev.src = src ∧ x.ev.cls = cls then { x with closed := true } else x) } })) ∧
  (∀ (s : State),
    (∀ e q, s.mod.telemQ = e :: q → ringSpace s.mod.modEq = true → (∀ w ∈ s.mod.evWait, w.ctx ≠ none) → Gives .telemQueueDrain s (fun t =>
      t.mod.telemQ = closeHead q ∧ t.mod.modEq.tail = (s.mod.modEq.tail + 1) % ringSize s.mod.modEq ∧
      t.mod.mem = (memWrite s.mod (hostBase + bits s.mod.modEq.reg 63 12 * 4096 + 128 * s.mod.modEq.tail)
        (match telemBytes e s.mod.hclk with | b :: bs => put b 0 0 (b2n s.mod.modEq.phase) :: bs | [] => [])).mem ∧
      rd t.mod rTelStat = BitVec.ofNat 64 (q.length * 2 ^ 16 + telemLevel q.length) ∧ KeepsRegs s.mod t.mod [rTelStat] ∧ t.mod.cores = s.mod.cores)) ∧
    ((s.mod.telemQ = [] ∨ ringSpace s.mod.modEq = false) → Gives .telemQueueDrain s (fun t => t = s)) ∧
    (∀ bs rest, s.mod.alarmWait = bs :: rest → ringSpace s.mod.modEq = true → (∀ w ∈ s.mod.evWait, w.ctx ≠ none) → Gives .alarmCopy s (fun t =>
      t.mod.alarmWait = rest ∧ t.mod.modEq.tail = (s.mod.modEq.tail + 1) % ringSize s.mod.modEq ∧ t.mod.regs = s.mod.regs ∧ t.mod.lmem = s.mod.lmem)) ∧
    ((s.mod.alarmWait = [] ∨ ringSpace s.mod.modEq = false) → Gives .alarmCopy s (fun t => t = s))) ∧
  (∀ (e : TelemEv) (s : State), telemListed { e with cls := .alarm } = none → Gives (.alarmRaise e) s (fun t => t = s)) ∧
  (∀ (e : TelemEv) (s : State), telemListed { e with cls := .alarm } ≠ none → Gives (.alarmRaise e) s (fun t => Counted s.mod t.mod rAlN ∧ Counted s.mod t.mod (rTelCount 0) ∧
    ((alarmUnread s.mod).find? (fun i => (alarmBytes s.mod i).getD 16 0 == e.src) = none →
      rd t.mod rAlTail = BitVec.ofNat 64 ((fld s.mod rAlTail 4 0 + 1) % 32) ∧ (alarmBytes t.mod (fld s.mod rAlTail 4 0)).getD 16 0 = e.src ∧
      (alarmBytes t.mod (fld s.mod rAlTail 4 0)).getD 17 0 = e.code) ∧
    ((alarmUnread s.mod).find? (fun i => (alarmBytes s.mod i).getD 16 0 == e.src) ≠ none → rd t.mod rAlTail = rd s.mod rAlTail) ∧
    t.mod.uncontained = (s.mod.uncontained || decide (e.src.toNat % 16 = 3 ∧ e.code = 3)) ∧ t.mod.lmem = s.mod.lmem)) ∧
  (∀ (fn : Fn) (val : W32) (s : State), Reaches s.mod fn rAlHead → Gives (.telemAlarmHeadWrite fn val) s (fun t =>
    RegStep s t [(rAlHead, put (rd s.mod rAlHead) 4 0 val.toNat)]))

/-- R476 to R484, R487, R496, R509: resets, power and boot. A trigger resets the module to the state of Table 18.2 or is absorbed
by a reset as deep; the dies go off on a low input, a rail fault, a thermal shut; the sequence ends at Ready with the stacks and
dies that failed left out; before Ready a configuration request meets Retry Status. (The model's own readings in it: log 30.) -/
def Obligations.ResetsAndBoot : Prop :=
  (∀ s : State, (s.mod.boot.input = true → Gives .powerOnReset s (fun t => t = s)) ∧
    (s.mod.boot.input = false → Gives .powerOnReset s (fun t => ResetTo s.mod t.mod 0 0 ∧ t.mod.boot.input = true ∧ t.mod.boot.house = true ∧
      t.mdm = s.mdm ∧ ∀ i, bootImage s.mod.boot = some i →
        rd t.mod rModFw = BitVec.ofNat 64 ((Config.fwVersion (imageOf s.mod.boot i)).toNat * 2 ^ 16 + i * 2 ^ 8))) ∧
    (s.mod.boot.perst = true → Gives .perstNAssert s (fun t => t = s)) ∧
    (s.mod.boot.perst = false → Gives .perstNAssert s (fun t =>
      Triggered { s.mod with boot := { s.mod.boot with perst := true } } t.mod (if fld s.mod rRstCtl 0 0 = 1 then 2 else 1) 2)) ∧
    (s.mod.boot.perst = false → Gives .perstNDeassert s (fun t => t = s)) ∧
    (s.mod.boot.perst = true → Gives .perstNDeassert s (fun t => t.mod.boot.perst = false ∧ t.mod.boot.inReset = s.mod.boot.inReset ∧
      t.mod.boot.trigEnd = (if (s.mod.boot.inReset.map (·.2)) = some 2 then s.mod.hclk else s.mod.boot.trigEnd) ∧
      KeepsRegs s.mod t.mod [rModLink] ∧ t.mod.cores = s.mod.cores ∧ t.mod.mem = s.mod.mem)) ∧
    (s.mod.boot.rstN = false → Gives .resetNDeassert s (fun t => t = s)) ∧
    (s.mod.boot.rstN = true → Gives .resetNDeassert s (fun t => t = { s with mod := { s.mod with boot := { s.mod.boot with
      rstN := false, drive := .none
      trigEnd := if (s.mod.boot.inReset.map (·.2)) = some 1 then s.mod.hclk else s.mod.boot.trigEnd } } })) ∧
    Gives .pfFlr s (fun t => Triggered s.mod t.mod 2 3 ∧ t.mdm = s.mdm ∧ t.pending = s.pending)) ∧
  (∀ (ns : Nat) (s : State), (ns < 1000 → Gives (.resetNAssert ns) s (fun t => t = s)) ∧
    (1000 ≤ ns → Gives (.resetNAssert ns) s (fun t => Triggered { s.mod with boot := { s.mod.boot with rstN := true } } t.mod 1 1))) ∧
  (∀ (fn : Fn) (s : State), Reaches s.mod fn rRstCmd →
    Gives (.modRstCmdCold fn) s (fun t => Triggered s.mod t.mod 1 5 ∧ t.mdm = s.mdm) ∧
    Gives (.modRstCmdWarm fn) s (fun t => Triggered s.mod t.mod 2 5 ∧ t.mdm = s.mdm)) ∧
  (∀ (fn : Fn) (s : State), (Reaches s.mod fn rBootCmd → Gives (.modBootService fn) s (fun t =>
      (∀ b, b < 64 → rd t.mod (rArbCtl b) = if fld s.mod (rArbCtl b) 17 16 = 0 then put (rd s.mod (rArbCtl b)) 17 16 1 else rd s.mod (rArbCtl b)) ∧
      (∀ o, (∀ b, b < 64 → o ≠ rArbCtl b) → rd t.mod o = rd s.mod o) ∧ t = { s with mod := { s.mod with regs := t.mod.regs } })) ∧
    (bootState s.mod ≠ 2 → Gives (.modBootService fn) s (fun t => t = s))) ∧
  (∀ (ms : W32) (stackFail : Option Stack) (dieFail : Option Die) (defects : List W64) (s : State) (typ src : Nat) (dead : List Nat),
    dead = (match dieFail with | some d => d.val :: s.mod.boot.dead.erase d.val | none => s.mod.boot.dead) →
    (s.mod.boot.inReset = none → Gives (.bootReady ms stackFail dieFail defects) s (fun t => t = s)) ∧
    (s.mod.boot.inReset = some (typ, src) → (triggerOver s.mod.boot src = false ∨ typ = 0 ∧ bootImage s.mod.boot = none) →
      Gives (.bootReady ms stackFail dieFail defects) s (fun t => t = s)) ∧
    (s.mod.boot.inReset = some (typ, src) → triggerOver s.mod.boot src = true → (typ = 0 → bootImage s.mod.boot ≠ none) →
      (∀ i, i < 16 → fld s.mod rMemCap i i = 1) → (typ = 2 ∨ stackFail = none) → Gives (.bootReady ms stackFail dieFail defects) s (fun t =>
        rd t.mod rBootStat = BitVec.ofNat 64 (0x29000000 + (if dead = [] then 0 else 0x30000) + (255 - (dead.map (2 ^ ·)).sum) * 2 ^ 8) ∧
        rd t.mod rBootTime = BitVec.ofNat 64 ms.toNat ∧ t.mod.boot.inReset = none ∧ t.mod.boot.readyAt = s.mod.hclk ∧ t.mod.boot.dead = dead ∧
        (∀ d ∈ dead, ∀ b, b < 5 → fld t.mod rRepBayOk (5 * d + b) (5 * d + b) = 0) ∧
        (∀ p, p < 12 → partState t.mod p = partState s.mod p) ∧ t.mod.cores = s.mod.cores)) ∧
    (∀ i, s.mod.boot.inReset = some (typ, src) → triggerOver s.mod.boot src = true → (typ = 0 → bootImage s.mod.boot ≠ none) →
      (∀ j, j < 16 → fld s.mod rMemCap j j = 1) → typ ≠ 2 → stackFail = some i → dieFail = none →
      Gives (.bootReady ms stackFail dieFail defects) s (fun t =>
        rd t.mod rBootStat = BitVec.ofNat 64 (0x20040000 + i.val * 2 ^ 24 + (255 - (dead.map (2 ^ ·)).sum) * 2 ^ 8) ∧ t.mod.boot.dead = dead ∧ fld t.mod rMemCap i.val i.val = 0 ∧
        (∀ b, b < 5 → fld t.mod rRepBayOk (5 * (i.val / 2) + b) (5 * (i.val / 2) + b) = 0) ∧ t.mod.cores = s.mod.cores))) ∧
  (∀ s : State, ((s.mod.boot.inReset.map (·.1)) = some 0 → bootImage s.mod.boot = none → Gives .mmcBootFailed s (fun t =>
      rd t.mod rBootStat = 0x30010000 ∧ t.mod.boot = { s.mod.boot with rom := true, dies := false, inReset := none } ∧
      KeepsRegs s.mod t.mod [rBootStat] ∧ t.mod.cores = s.mod.cores)) ∧
    (((s.mod.boot.inReset.map (·.1)) ≠ some 0 ∨ bootImage s.mod.boot ≠ none) → Gives .mmcBootFailed s (fun t => t = s)) ∧
    (s.mod.boot.input = false → Gives .inputBelow42v s (fun t => t = s)) ∧
    (s.mod.boot.input = true → Gives .inputBelow42v s (fun t => t.mod.boot.input = false ∧ t.mdm = s.mdm ∧
      (s.mod.boot.dies = true → PoweredDown s.mod t.mod false 0) ∧
      (s.mod.boot.dies = false → t = { s with mod := { s.mod with boot := { s.mod.boot with input := false } } }))) ∧
    ((s.mod.boot.input = true ∨ s.mod.boot.house = false) → Gives .inputBelow36v s (fun t => t = s)) ∧
    (s.mod.boot.input = false → s.mod.boot.house = true → Gives .inputBelow36v s (fun t => t.mod.boot.house = false ∧ t.mod.boot.dies = false ∧
      (∀ o, rd t.mod o = regReset o) ∧ t.mod.hclk = 0 ∧ t.mod.boot.fw0 = s.mod.boot.fw0 ∧ t.mod.boot.fw1 = s.mod.boot.fw1 ∧
      t.mod.production = s.mod.production ∧ t.mod.infield = s.mod.infield ∧ t.mod.gauges = s.mod.savedGauges ∧ t.mdm = s.mdm))) ∧
  (∀ (d : Fin 9) (s : State), (s.mod.boot.dies = false → Gives (.railFault d) s (fun t => t = s)) ∧
    (s.mod.boot.dies = true → Gives (.railFault d) s (fun t => PoweredDown s.mod t.mod true 2 ∧ t.mdm = s.mdm))) ∧
  (∀ (d : Die) (sensor : Nat) (temp : Int) (s : State) (x : GafSt), x = gafAt s.mod d.val →
    (s.mod.boot.dies = false → Gives (.thermalSample d sensor temp) s (fun t => t = s)) ∧
    (s.mod.boot.dies = true → shutAt s.mod d.val ≤ temp → Gives (.thermalSample d sensor temp) s (fun t =>
      t.mod.boot.dies = false ∧ t.mod.boot.latched = true ∧ fld t.mod (rGafErr d.val) 4 4 = 1 ∧ rd t.mod rBootStat = 0 ∧
      (∀ c, coreAt t.mod c = CoreSt.reset) ∧ t.mdm = s.mdm)) ∧
    (s.mod.boot.dies = true → temp < shutAt s.mod d.val → Gives (.thermalSample d sensor temp) s (fun t =>
      rd t.mod (rGafTemp d.val) = BitVec.ofNat 64 ((BitVec.ofInt 16 temp).toNat + sensor % 1024 * 65536) ∧
      (∀ e, e ≠ d.val → gafAt t.mod e = gafAt s.mod e) ∧ t.mod.cores = s.mod.cores ∧
      (tripAt s.mod d.val ≤ temp → (gafAt t.mod d.val).kth = 4 ∧ (gafAt t.mod d.val).tripGated = true ∧ fld t.mod (rGafErr d.val) 3 3 = 1) ∧
      (temp < tripAt s.mod d.val → KeepsRegs s.mod t.mod [rGafTemp d.val] ∧
        (gafAt t.mod d.val).hot = decide (throttleAt s.mod d.val ≤ temp) ∧
        (gafAt t.mod d.val).kth = (if throttleAt s.mod d.val ≤ temp ∧ x.hot = false then max 4 (x.kth - 1) else x.kth) ∧
        (gafAt t.mod d.val).tripGated = (x.tripGated && decide (releaseAt s.mod d.val < temp)))))) ∧
  (∀ (r : CfgReq) (s : State), (s.mod.boot.perst = true → Gives (.pcieConfigRequest r) s (fun t => t = s)) ∧
    (s.mod.boot.perst = false → bootState s.mod = 1 → Gives (.pcieConfigRequest r) s (fun t =>
      t = { s with mod := { s.mod with boot := { s.mod.boot with cfgResp := some (2, 0) } } })) ∧
    (s.mod.boot.perst = false → bootState s.mod = 2 →
      (∀ n, r = .enableVfs n → Gives (.pcieConfigRequest r) s (fun t => t.mod.boot.cfgResp = some (0, 0) ∧ fnAt t.mod 0 = fnAt s.mod 0 ∧
        (∀ i, i < 12 → fnAt t.mod (i + 1) = if i < n.val then { fnAt s.mod (i + 1) with enabled := true } else FnSt.reset) ∧
        t = { s with mod := { s.mod with fns := t.mod.fns, boot := t.mod.boot } })) ∧
      (r = .read .pf 0 → Gives (.pcieConfigRequest r) s (fun t => t = { s with mod := { s.mod with boot := { s.mod.boot with
        cfgResp := some (0, (0x0B78 : W16) ++ Config.pciVendor) } } })) ∧
      (∀ e ∈ [(CfgItem.totalVfs, 12), (.initialVfs, 12), (.vfStride, 1), (.maxPayload, 2), (.msixVectors, 256), (.bar0, 26), (.bar2, 24), (.ari, 1),
          (.sriov, 1), (.aer, 1), (.flr, 1), (.msi, 0), (.intx, 0), (.ats, 0), (.pri, 0), (.pasid, 0), (.tph, 0), (.ide, 0),
          (.payload, (fnAt s.mod 0).payload), (.readRequest, (fnAt s.mod 0).readRequest)],
        r = .readItem .pf e.1 → Gives (.pcieConfigRequest r) s (fun t => t = { s with mod := { s.mod with boot := { s.mod.boot with
          cfgResp := some (0, BitVec.ofNat 32 e.2) } } })) ∧
      (∀ v : W32, r = .writeItem .pf .payload v → Gives (.pcieConfigRequest r) s (fun t => t.mod.boot.cfgResp = some (0, 0) ∧
        (fnAt t.mod 0).payload = (if v.toNat ≤ 2 then v.toNat else (fnAt s.mod 0).payload) ∧
        (∀ g, g ≠ 0 → fnAt t.mod g = fnAt s.mod g) ∧ t.mod.regs = s.mod.regs ∧ t.mod.cores = s.mod.cores ∧ t.mod.mem = s.mod.mem)) ∧
      (∀ p : Part, (fnAt s.mod (p.val + 1)).enabled = false → (∃ item, r = .readItem (.vf p) item) → Gives (.pcieConfigRequest r) s (fun t =>
        t = { s with mod := { s.mod with boot := { s.mod.boot with cfgResp := some (1, 0xFFFFFFFF) } } })))) ∧
  (∀ (active : List CxlDev) (s : State), (bootState s.mod ≠ 2 → Gives (.cxlActiveTimeout active) s (fun t => t = s)) ∧
    (bootState s.mod = 2 → Gives (.cxlActiveTimeout active) s (fun t =>
      (∀ q, q < 4 → (∀ x, active.find? (fun x => x.port.val == q) = some x → rd t.mod (rCxlStat q) =
          BitVec.ofNat 64 (x.gib.toNat * 2 ^ 16 + 2 ^ 8 + x.width.toNat * 2 ^ 4 + x.rate.toNat)) ∧
        ((∀ x ∈ active, x.port.val ≠ q) → rd t.mod (rCxlStat q) = put (rd s.mod (rCxlStat q)) 8 8 0)) ∧
      KeepsRegs s.mod t.mod [rCxlStat 0, rCxlStat 1, rCxlStat 2, rCxlStat 3] ∧ t = { s with mod := { s.mod with regs := t.mod.regs } }))) ∧
  (∀ (q : Fin 4) (health : W32) (s : State),
    ((health = 0 ∨ fld s.mod (rCxlStat q.val) 8 8 = 0) → Gives (.cxlDeviceEvent q health) s (fun t => t = s)) ∧
    (health ≠ 0 → fld s.mod (rCxlStat q.val) 8 8 = 1 → Gives (.cxlDeviceEvent q health) s (fun t =>
      Counted s.mod t.mod (rTelCount (classCode .warning)) ∧ t.mod.cores = s.mod.cores ∧ t.mod.mem = s.mod.mem)))

/-- R481, R488 to R490: MCTP and the TAP. The endpoint answers its control messages; the vendor commands answer and act in the states their table
allows, and with status 5 elsewhere; the TAP's three driving instructions act while RESET_N is asserted and are
BYPASS otherwise. -/
def Obligations.ManagementInterfaces : Prop :=
  (∀ (eid typ sel : Byte) (s : State) (set : BootSt → State), set = (fun b => { s with mod := { s.mod with boot := b } }) →
    ((s.mod.boot.house = false ∨ s.mod.boot.rom = true) → ∀ i ∈ [Instr.setEndpointId eid, .getEndpointId, .getEndpointUuid, .getMctpVersionSupport typ,
      .getMessageTypeSupport, .getVendorDefinedMsgSupport sel], Gives i s (fun t => t = s)) ∧
    (s.mod.boot.house = true → s.mod.boot.rom = false →
      Gives (.setEndpointId eid) s (fun t => t = set (if eid = 0 ∨ eid = 0xFF then { s.mod.boot with resp := [2] }
        else { s.mod.boot with eid := eid, resp := [0, 0, eid, 0] })) ∧
      Gives .getEndpointId s (fun t => t = set { s.mod.boot with resp := [0, s.mod.boot.eid, 0, 0] }) ∧
      Gives .getEndpointUuid s (fun t => t = set { s.mod.boot with resp := 0 :: leBytes 16 Config.mctpUuid.toNat }) ∧
      Gives (.getMctpVersionSupport typ) s (fun t => t = set { s.mod.boot with
        resp := if typ ∈ [0x00, 0x7E, 0xFF] then [0, 1] ++ leBytes 4 (Config.mctpVersion typ).toNat else [0x80] }) ∧
      Gives .getMessageTypeSupport s (fun t => t = set { s.mod.boot with resp := [0, 2, 0x00, 0x7E] }) ∧
      Gives (.getVendorDefinedMsgSupport sel) s (fun t => t = set { s.mod.boot with
        resp := if sel = 0 then [0, 0xFF, 0x00, 0x1E, 0x6C] ++ leBytes 2 Config.mctpVendorSet.toNat else [2] }))) ∧
  (∀ (val : W32) (n : Fin 32) (off block : Nat) (data : List Byte) (s : State) (set : BootSt → State),
    set = (fun b => { s with mod := { s.mod with boot := b } }) →
    (s.mod.boot.house = false → ∀ i ∈ [Instr.mctpGetState, .mctpSetTopology val, .mctpResetCold, .mctpResetWarm, .mctpPowerOff, .mctpReadAlarm n,
      .mctpReadRegister off, .mctpFirmwareUpdate block data], Gives i s (fun t => t = s)) ∧
    (s.mod.boot.house = true → s.mod.boot.rom = true → ∀ i ∈ [Instr.mctpSetTopology val, .mctpResetCold, .mctpResetWarm, .mctpPowerOff, .mctpReadAlarm n,
      .mctpReadRegister off], Gives i s (fun t => t = set { s.mod.boot with resp := [5] })) ∧
    (s.mod.boot.house = true →
      Gives .mctpGetState s (fun t => t = set { s.mod.boot with resp := 0 :: ([rBootStat, rRstCause, rModFw, rGafModPower, rGafTemp 0, rGafTemp 1, rGafTemp 2,
        rGafTemp 3, rGafTemp 4, rGafTemp 5, rGafTemp 6, rGafTemp 7].flatMap (fun o => leBytes 4 (rd s.mod o).toNat)) }) ∧
      Gives (.mctpFirmwareUpdate block data) s (fun t => t.mod.boot.resp = [0] ∧
        (if s.mod.boot.rom = true ∨ fld s.mod rModFw 15 8 = 0 then t.mod.boot.fw0 = s.mod.boot.fw0 ∧
            (∀ i, i < data.length → sget memDefault t.mod.boot.fw1 (block * data.length + i) = data.getD i 0)
          else t.mod.boot.fw1 = s.mod.boot.fw1 ∧
            ∀ i, i < data.length → sget memDefault t.mod.boot.fw0 (block * data.length + i) = data.getD i 0) ∧
        t = { s with mod := { s.mod with boot := t.mod.boot } })) ∧
    (s.mod.boot.house = true → s.mod.boot.rom = false →
      (fld s.mod rZwLock 0 0 = 1 → Gives (.mctpSetTopology val) s (fun t => t = set { s.mod.boot with resp := [5] })) ∧
      (fld s.mod rZwLock 0 0 = 0 → Gives (.mctpSetTopology val) s (fun t => t.mod.boot = { s.mod.boot with resp := [0] } ∧
        rd t.mod rTopo = BitVec.ofNat 64 (bits val 29 0) ∧ fld t.mod rZwLock 0 0 = 1 ∧ t.mod.cores = s.mod.cores ∧ t.mod.mem = s.mod.mem)) ∧
      Gives .mctpResetCold s (fun t => Triggered { s.mod with boot := { s.mod.boot with resp := [0] } } t.mod 1 4) ∧
      Gives .mctpResetWarm s (fun t => Triggered { s.mod with boot := { s.mod.boot with resp := [0] } } t.mod 2 4) ∧
      (s.mod.boot.dies = true → Gives .mctpPowerOff s (fun t => PoweredDown s.mod t.mod true 0 ∧ t.mod.boot.resp = [0])) ∧
      (s.mod.boot.dies = false → Gives .mctpPowerOff s (fun t => t = set { s.mod.boot with resp := [0] })) ∧
      Gives (.mctpReadAlarm n) s (fun t => t = set { s.mod.boot with resp := 0 :: alarmBytes s.mod n.val }) ∧
      (regSize off = 4 → off % 4 = 0 → Gives (.mctpReadRegister off) s (fun t =>
        t = set { s.mod.boot with resp := 0 :: leBytes 4 (readReg .pf off s.mod) })))) ∧
  (∀ (tdi : Bool) (scan : List Bool) (s : State) (b : BootSt) (set : BootSt → State), b = s.mod.boot →
    set = (fun b => { s with mod := { s.mod with boot := b } }) →
    Gives (.tapBypass tdi) s (fun t => t = set { b with tdo := [b.tapBit], tapBit := tdi, drive := .none }) ∧
    Gives .tapIdcode s (fun t => t = set { b with tdo := (List.range 32).map (fun i => (0x00B7874B).testBit i), drive := .none }) ∧
    Gives (.tapSamplePreload scan) s (fun t => t.mod.boot.boundary = scan ∧ t.mod.boot.tdo.length = 22 ∧ t.mod.boot.drive = .none ∧
      t.mod.regs = s.mod.regs ∧ t.mod.cores = s.mod.cores ∧ t.mod.mem = s.mod.mem) ∧
    (b.rstN = false → ∀ i ∈ [Instr.tapExtest tdi, .tapClamp tdi, .tapHighz tdi], Gives i s (fun t =>
      t = set { b with tdo := [b.tapBit], tapBit := tdi, drive := .none })) ∧
    (b.rstN = true → Gives (.tapClamp tdi) s (fun t => t = set { b with tdo := [b.tapBit], tapBit := tdi, drive := .boundary }) ∧
      Gives (.tapHighz tdi) s (fun t => t = set { b with tdo := [b.tapBit], tapBit := tdi, drive := .highz }) ∧
      Gives (.tapExtest tdi) s (fun t => t = set { b with
        drive := .boundary, tdo := [b.boundary.getLastD false], boundary := tdi :: b.boundary.dropLast })))

/-- R459, R460, R464 to R469, R472: the metrology unit and the meter interface. The unit closes a record at each event while it is supplied; its
reads answer what it holds; a valid frame decides the variant, a new record is shown, its gap counted, its
tamper flags reported, and its energy apportioned. -/
def Obligations.MeterRecordsAndFrames : Prop :=
  (∀ (x : Measure) (ver : W16) (crc : W32) (s : State) (d : Mdm), d = s.mdm →
    (d.supplied = false → ∀ i ∈ [Instr.meterPeriodicRecord x, .meterPowerDownRecord x, .mdmReseal x, .mdmFirmwareChange x ver crc, .meterFrameSend],
      Gives i s (fun t => t = s)) ∧
    (d.supplied = true → Gives (.meterPeriodicRecord x) s (fun t => t = { s with mdm := t.mdm } ∧ Recorded d t.mdm 1 x.energy x) ∧
      Gives (.meterPowerDownRecord x) s (fun t => t = { s with mdm := t.mdm } ∧
        Recorded d { t.mdm with supplied := true, lost := false } 4 x.energy x ∧ t.mdm.supplied = false ∧ t.mdm.lost = true) ∧
      Gives (.mdmCaseOpen x) s (fun t => t = { s with mdm := t.mdm } ∧
        ∃ e, Logged { d with caseOpen := true, opened := true, unsealed := true } e ∧ Recorded e t.mdm 3 x.energy x) ∧
      Gives (.mdmReseal x) s (fun t => t = { s with mdm := t.mdm } ∧
        ∃ e, Logged { d with caseOpen := false, unsealed := false } e ∧ Recorded e t.mdm 3 x.energy x) ∧
      (d.caseOpen = true → Gives (.mdmFirmwareChange x ver crc) s (fun t => t = { s with mdm := t.mdm } ∧
        ∃ e, Logged { d with fwVer := ver, fwCrc := crc, unsealed := true } e ∧ Recorded e t.mdm 3 x.energy x)) ∧
      (d.caseOpen = false → Gives (.mdmFirmwareChange x ver crc) s (fun t => t = s)) ∧
      Gives (.meterPowerUpRecord x) s (fun t => t = s) ∧
      (d.records = [] → Gives .meterFrameSend s (fun t => t = s)) ∧
      (∀ r q, d.records = r :: q → Gives .meterFrameSend s (fun t => t = { s with mdm := { d with frame := r ++ leBytes 4 (crc32 r) } }))) ∧
    (d.supplied = false → Gives (.mdmCaseOpen x) s (fun t => t = { s with mdm := { d with caseOpen := true, opened := true, unsealed := true } }) ∧
      (d.opened = false → Gives (.meterPowerUpRecord x) s (fun t => t = { s with mdm := t.mdm } ∧
        Recorded { d with supplied := true, lost := true } t.mdm 2 0 x)) ∧
      (d.opened = true → Gives (.meterPowerUpRecord x) s (fun t => t = { s with mdm := t.mdm } ∧
        ∃ e, Logged { d with supplied := true, lost := true } e ∧ Recorded e t.mdm 2 0 x)))) ∧
  (∀ (seq : W64) (n : Nat) (ok : Bool) (s : State) (d : Mdm), d = s.mdm →
    ((d.supplied = false ∨ ok = false) → ∀ i ∈ [Instr.mdmReadRecord seq ok, .mdmReadLatest ok, .mdmReadLog n ok, .mdmReadCertificate n ok, .mdmIdentify ok],
      Gives i s (fun t => t = s)) ∧
    (d.supplied = true → ok = true →
      Gives (.mdmReadRecord seq ok) s (fun t => t = { s with mdm := { d with resp := (if 1 ≤ seq.toNat ∧ seq.toNat ≤ d.seq
        then d.records.getD (d.seq - seq.toNat) (List.replicate 192 0) else List.replicate 192 0) } }) ∧
      Gives (.mdmReadLatest ok) s (fun t => t = { s with mdm := { d with resp := d.records.headD (List.replicate 192 0) } }) ∧
      Gives (.mdmReadLog n ok) s (fun t => t = { s with mdm := { d with resp := d.log.getD n (List.replicate 32 0) } }) ∧
      Gives (.mdmReadCertificate n ok) s (fun t => t = { s with mdm := { d with resp := t.mdm.resp } } ∧
        (n = 0 → leNat t.mdm.resp = (Config.mdmCertificate d.serial).length % 2 ^ 256) ∧ t.mdm.resp.length = 32 ∧
        ∀ j, j < 32 → 1 ≤ n → t.mdm.resp.getD j 0 = (Config.mdmCertificate d.serial).getD (32 * (n - 1) + j) 0) ∧
      Gives (.mdmIdentify ok) s (fun t => t = { s with mdm := { d with resp := (leBytes 8 d.serial.toNat ++ leBytes 2 d.fwVer.toNat ++
        leBytes 4 d.fwCrc.toNat ++ leBytes 4 d.log.length ++ leBytes 4 Config.mdmRatings.toNat) } }))) ∧
  (∀ (bs : List Byte) (crc : W32) (s : State) (seq last e f sum : Nat) (ds : Nat → Nat),
    seq = recNat bs 16 8 → last = (rd s.mod rMtSeq).toNat → e = recNat bs 40 8 → f = partShare s.mod 12 →
    ds = (fun p => partShare s.mod p) → sum = ((List.range 12).map ds).sum →
    ((s.mod.boot.house = false ∨ fld s.mod rModId 7 0 = 0) → Gives (.meterFrame bs crc) s (fun t => t = s)) ∧
    (s.mod.boot.house = true → fld s.mod rModId 7 0 ≠ 0 →
      ((bs.length ≠ 192 ∨ crc32 bs ≠ crc.toNat) → Gives (.meterFrame bs crc) s (fun t => Counted s.mod t.mod rMtBad ∧
        KeepsRegs s.mod t.mod [rMtBad] ∧ t = { s with mod := { s.mod with regs := t.mod.regs } })) ∧
      (bs.length = 192 → crc32 bs = crc.toNat →
        (seq ≤ last → Gives (.meterFrame bs crc) s (fun t =>
          fld t.mod rModId 7 0 = (if fld s.mod rModId 7 0 = 0xFF then 1 else fld s.mod rModId 7 0) ∧ fld t.mod rMtStat 7 7 = 1 ∧
          rd t.mod rMtSeq = rd s.mod rMtSeq ∧ t.mod.meterAcc = s.mod.meterAcc ∧ (fld s.mod rModId 7 0 = 1 → fld s.mod rMtStat 7 7 = 1 → t = s))) ∧
        (last < seq → Gives (.meterFrame bs crc) s (fun t =>
          fld t.mod rModId 7 0 = (if fld s.mod rModId 7 0 = 0xFF then 1 else fld s.mod rModId 7 0) ∧ fld t.mod rMtStat 7 7 = 1 ∧
          rd t.mod rMtSeq = BitVec.ofNat 64 seq ∧ rd t.mod rMtSerial = BitVec.ofNat 64 (recNat bs 8 8) ∧
          rd t.mod rMtEnergy = BitVec.ofNat 64 (recNat bs 32 8) ∧ rd t.mod rMtRxTime = BitVec.ofNat 64 s.mod.hclk ∧
          fld t.mod rMtStat 1 1 = nbits (recNat bs 4 4) 1 1 ∧ fld t.mod rMtStat 2 2 = nbits (recNat bs 4 4) 2 2 ∧
          fld t.mod rMtStat 3 3 = nbits (recNat bs 4 4) 5 5 ∧
          (∀ w, w < 24 → rd t.mod (rMtRec w) = BitVec.ofNat 64 (recNat bs (8 * w) 8)) ∧
          (rd t.mod rMtGap).toNat = (if last = 0 ∨ seq = last + 1 then (rd s.mod rMtGap).toNat
            else min ((rd s.mod rMtGap).toNat + (seq - last - 1)) (2 ^ 32 - 1)) ∧
          ((nbits (recNat bs 4 4) 1 1 = 1 ∨ nbits (recNat bs 4 4) 2 2 = 1 ∨ nbits (recNat bs 4 4) 5 5 = 1) → Counted s.mod t.mod rAlN) ∧
          (nbits (recNat bs 4 4) 1 1 = 0 → nbits (recNat bs 4 4) 2 2 = 0 → nbits (recNat bs 4 4) 5 5 = 0 → rd t.mod rAlN = rd s.mod rAlN) ∧
          t.mod.meterAcc = [] ∧ t.mod.meterOpen = true ∧ t.mod.cores = s.mod.cores ∧ t.mdm = s.mdm ∧
          (s.mod.meterOpen = false → (∀ p, p < 12 → rd t.mod (rMtApp p) = rd s.mod (rMtApp p) ∧ rd t.mod (rMtAppTot p) = rd s.mod (rMtAppTot p))) ∧
          (s.mod.meterOpen = true → rd t.mod rMtAppSeq = BitVec.ofNat 64 seq ∧
            (∀ p, p < 12 → rd t.mod (rMtApp p) = BitVec.ofNat 64 (if e < f + sum then ds p * e / (f + sum) else if sum = 0 then 0
              else ds p + (e - (f + sum)) * ds p / sum)) ∧
            (rd t.mod rMtAppSys).toNat + ((List.range 12).map (fun p => (rd t.mod (rMtApp p)).toNat)).sum = e)))))) ∧
  (∀ s : State, (fld s.mod rMtStat 7 7 = 0 → Gives .meterLinkTimeout s (fun t => t = s)) ∧
    (fld s.mod rMtStat 7 7 = 1 → Gives .meterLinkTimeout s (fun t => fld t.mod rMtStat 7 7 = 0 ∧
      Counted s.mod t.mod (rTelCount (classCode .error)) ∧ t.mod.cores = s.mod.cores ∧ t.mod.mem = s.mod.mem)) ∧
    (fld s.mod rModId 7 0 = 0xFF → s.mod.boot.house = true → Gives .meterVariantTimeout s (fun t =>
      RegStep s t [(rModId, put (rd s.mod rModId) 7 0 0)])) ∧
    ((fld s.mod rModId 7 0 ≠ 0xFF ∨ s.mod.boot.house = false) → Gives .meterVariantTimeout s (fun t => t = s)))

/-- R10, R11, R403 to R405, R471: control-space accesses. One from a function that is not there does nothing, one of a bad size or
alignment sets bad_access and reads all ones, one outside a VF's reach is denied and reads zero; a doorbell page (R396) shows the
module's indices to a function that reaches its context, and takes no write but of an index; each field takes a write by its type;
a 64-bit register may be taken in halves; a read of the first word of a block latches the block. (The model's own readings in it:
logs 11 and 33.) -/
def Obligations.RegisterAccesses : Prop :=
  (∀ (fn : Fn) (off size : Nat) (val : W64) (s : State),
    (fnThere s.mod fn = false → ∀ i ∈ [Instr.registerWrite fn off size val, .registerRead fn off size, .blockLatchRead fn off size], Gives i s (fun t => t = s)) ∧
    (fnThere s.mod fn = true → bar2At off = none → (size ∉ [1, 4, 8] ∨ off % size ≠ 0) →
      Gives (.registerWrite fn off size val) s (fun t => RegStep s t [(rModErr, put (rd s.mod rModErr) 2 2 1)]) ∧
      Gives (.registerRead fn off size) s (fun t => rd t.mod rModErr = put (rd s.mod rModErr) 2 2 1 ∧ KeepsRegs s.mod t.mod [rModErr] ∧
        fnAt t.mod (fnKey fn) = { fnAt s.mod (fnKey fn) with readData := leBytes size 0xFFFFFFFF, poisoned := false } ∧
        (∀ g, g ≠ fnKey fn → fnAt t.mod g = fnAt s.mod g) ∧ t = { s with mod := { s.mod with regs := t.mod.regs, fns := t.mod.fns } })) ∧
    (fnThere s.mod fn = true → bar2At off = none → accessAt off size = .reserved → reachMask s.mod fn off ≠ none →
      Gives (.registerWrite fn off size val) s (fun t => t = s) ∧
      Gives (.registerRead fn off size) s (fun t =>
        t = { s with mod := setFn s.mod (fnKey fn) { fnAt s.mod (fnKey fn) with readData := leBytes size 0, poisoned := false } })) ∧
    (fnThere s.mod fn = true → (size = 1 ∨ size = 4) → off % size = 0 → regSize off = size → reachMask s.mod fn off ≠ none →
      Gives (.registerRead fn off size) s (fun t =>
        t = { s with mod := setFn s.mod (fnKey fn) { fnAt s.mod (fnKey fn) with readData := leBytes size (readReg fn off s.mod), poisoned := false } })) ∧
    (∀ p, fn = .vf p → fnThere s.mod fn = true → bar2At off = none → accessAt off size ≠ .bad → reachMask s.mod fn ((accessAt off size).base off) = none →
      ∀ i ∈ [Instr.registerWrite fn off size val, .registerRead fn off size], Gives i s (fun t =>
        Counted s.mod t.mod (rPartDeny p.val) ∧ Counted s.mod t.mod rModAuditN ∧ fld t.mod rModErr 3 3 = 1 ∧ t.mod.cores = s.mod.cores ∧
        KeepsRegs s.mod t.mod [rPartDeny p.val, rPartErr p.val, rModErr, rModAuditN, rModEqLost] ∧
        (i = .registerRead fn off size → (fnAt t.mod (fnKey fn)).readData = leBytes size 0))) ∧
    (∀ (x : Ctx) (o : Nat), off = 0x04000000 + 4096 * x.val + o → o < 4096 → fnThere s.mod fn = true → size = 4 →
      (dbReach s.mod fn x.val = true → Gives (.registerRead fn off size) s (fun t => t = { s with mod := setFn s.mod (fnKey fn) { fnAt s.mod (fnKey fn) with
        poisoned := false, readData := leBytes 4 (if o = 0x100 then (ctxAt s.mod x.val).sq.head else if o = 0x104 then (ctxAt s.mod x.val).cq.tail
          else if o = 0x108 then (ctxAt s.mod x.val).eq.tail else 0) } })) ∧
      (modState s.mod = 0 → dbReach s.mod fn x.val = true → o ∉ [0x000, 0x008, 0x010] → Gives (.registerWrite fn off size val) s (fun t => t = s)) ∧
      (modState s.mod = 0 → dbReach s.mod fn x.val = false → Gives (.registerWrite fn off size val) s (fun t =>
        fld t.mod rModErr 4 4 = 1 ∧ Counted s.mod t.mod rModAuditN ∧ KeepsRegs s.mod t.mod [rModErr, rModAuditN, rModEqLost] ∧
        ctxAt t.mod x.val = ctxAt s.mod x.val ∧ t.mod.cores = s.mod.cores)))) ∧
  (∀ (val : W64) (s : State), fnThere s.mod .pf = true →
    (∀ o ∈ [rModId, rRstCause, rBootStat, rModFw, rBootTime], Gives (.registerWrite .pf o 4 val) s (fun t => t = s)) ∧
    (∀ o ∈ [rModId, rModErr, rRstCtl, rRstCause, rBootStat, rModFw, rBootTime], readReg .pf o s.mod = (rd s.mod o).toNat) ∧
    Gives (.registerWrite .pf rRstCtl 4 val) s (fun t => RegStep s t [(rRstCtl, put (rd s.mod rRstCtl) 0 0 val.toNat)]) ∧
    Gives (.registerWrite .pf rModErr 4 val) s (fun t => KeepsRegs s.mod t.mod [rModErr] ∧ t = { s with mod := { s.mod with regs := t.mod.regs } } ∧
      ∀ i, bit (rd t.mod rModErr) i = (bit (rd s.mod rModErr) i && !(decide (i ∈ [0, 2, 3, 4]) && bit val i))) ∧
    (∀ o ∈ [rGafModPcap, rGafModPeak],
      (fld s.mod rGafModLock 0 0 = 0 → Gives (.registerWrite .pf o 4 val) s (fun t => RegStep s t [(o, put (rd s.mod o) 15 0 val.toNat)])) ∧
      (fld s.mod rGafModLock 0 0 = 1 → fld s.mod o 15 0 = val.toNat % 2 ^ 16 → Gives (.registerWrite .pf o 4 val) s (fun t => RegStep s t [])) ∧
      (fld s.mod rGafModLock 0 0 = 1 → fld s.mod o 15 0 ≠ val.toNat % 2 ^ 16 → Gives (.registerWrite .pf o 4 val) s (fun t =>
        fld t.mod rModErr 0 0 = 1 ∧ Counted s.mod t.mod rModAuditN ∧ KeepsRegs s.mod t.mod [rModErr, rModAuditN, rModEqLost] ∧
        t.mod.cores = s.mod.cores))) ∧
    (∀ (p : Part) (f : FnSt) (o lo : Nat), f = fnAt s.mod 0 → o = rPartBar4 p.val →
      lo = ((f.lowHeld.find? (fun e => e.1 == o)).map (fun e => e.2.toNat)).getD ((rd s.mod o).toNat % 2 ^ 32) →
      Gives (.registerWrite .pf o 4 val) s (fun t => t = { s with mod := setFn s.mod 0 { f with
        lowHeld := (o, val.truncate 32) :: f.lowHeld.filter (fun e => e.1 != o) } }) ∧
      Gives (.registerWrite .pf (o + 4) 4 val) s (fun t => rd t.mod o = put (rd s.mod o) 51 30 (nbits (lo + val.toNat % 2 ^ 32 * 2 ^ 32) 51 30) ∧
        KeepsRegs s.mod t.mod [o] ∧ fnAt t.mod 0 = { f with lowHeld := f.lowHeld.filter (fun e => e.1 != o) } ∧
        t = { s with mod := { s.mod with regs := t.mod.regs, fns := t.mod.fns } }) ∧
      Gives (.registerRead .pf o 4) s (fun t => t = { s with mod := setFn s.mod 0 { f with
        readData := leBytes 4 ((rd s.mod o).toNat % 2 ^ 32), poisoned := false
        highLatched := (o, BitVec.ofNat 32 ((rd s.mod o).toNat / 2 ^ 32)) :: f.highLatched.filter (fun e => e.1 != o) } }) ∧
      (∀ h, f.highLatched.find? (fun e => e.1 == o) = some (o, h) → Gives (.registerRead .pf (o + 4) 4) s (fun t =>
        t = { s with mod := setFn s.mod 0 { f with readData := leBytes 4 h.toNat, poisoned := false, highLatched := f.highLatched.filter (fun e => e.1 != o) } })))) ∧
  (∀ (fn : Fn) (off size : Nat) (s : State), (∀ ws, blockOf off = some ws → ws.headD 0 ≠ off) → Gives (.blockLatchRead fn off size) s (fun t => t = s)) ∧
  (∀ (off : Nat) (s : State), fnThere s.mod .pf = true → (∃ p, p < 12 ∧ off = rPrLast p 0) ∨ off = rMtRec 0 ∨ (∃ e, e < 32 ∧ off = rAlarm e 0) →
    Gives (.blockLatchRead .pf off 8) s (fun t => (fnAt t.mod 0).readData = leBytes 8 (readReg .pf off s.mod) ∧
      (∀ i, i < 8 → (fnAt t.mod 0).block.find? (fun e => e.1 == off + 8 * i) = some (off + 8 * i, BitVec.ofNat 64 (readReg .pf (off + 8 * i) s.mod))) ∧
      (∀ g, g ≠ 0 → fnAt t.mod g = fnAt s.mod g) ∧ t = { s with mod := { s.mod with fns := t.mod.fns } }) ∧
    (∀ i v, 1 ≤ i → i < 8 → (fnAt s.mod 0).block.find? (fun e => e.1 == off + 8 * i) = some (off + 8 * i, v) →
      Gives (.registerRead .pf (off + 8 * i) 8) s (fun t =>
        t = { s with mod := setFn s.mod 0 { fnAt s.mod 0 with readData := leBytes 8 v.toNat, poisoned := false } })))

/-- R66, R97, R99: predicated execution. A word whose guard reads 0 occupies one cycle of its core, and the core goes on to the next word:
nothing else changes. This holds of every instruction, and of a word that no instruction decodes from. A guard that names p0
never fails. -/
def Obligations.GuardedWords : Prop :=
  (∀ (c : Core) (s : State) (o : Octix) (row : Core → Instr), (coreAt s.mod c.val).pc.toNat ≤ 2047 → mayIssue s.mod c.val = true →
    fetchBad s.mod c.val (coreAt s.mod c.val).pc.toNat = false →
    decodeOctix (fetchWord s.mod c.val (coreAt s.mod c.val).pc.toNat) = some o → rowOf o = some row →
    guardFails (coreAt s.mod c.val) (fetchWord s.mod c.val (coreAt s.mod c.val).pc.toNat) = true →
    Gives (row c) s (fun t => CoreStep s t c.val (advance (cycled (coreAt s.mod c.val))))) ∧
  (∀ (c : Core) (s : State), (coreAt s.mod c.val).pc.toNat ≤ 2047 → mayIssue s.mod c.val = true →
    fetchBad s.mod c.val (coreAt s.mod c.val).pc.toNat = false → decodeOctix (fetchWord s.mod c.val (coreAt s.mod c.val).pc.toNat) = none →
    guardFails (coreAt s.mod c.val) (fetchWord s.mod c.val (coreAt s.mod c.val).pc.toNat) = true →
    Gives (.nop c) s (fun t => CoreStep s t c.val (advance (cycled (coreAt s.mod c.val)))) ∧
    Gives (.illegalWord c) s (fun t => t = s)) ∧
  (∀ (x : CoreSt) (w : W64), bit w 51 = true → bits w 50 48 = 0 → guardFails x w = false) ∧
  (∀ (w : W64) (o : Octix), decodeOctix w = some o → rowOf o ≠ none)

/-- A step takes the command at the front of the queue and runs it on the state whose queue is the rest; without a command the house clock
ticks (log 2, the model's choice). A word of the opcode table spells no command. -/
def Obligations.StepTakesFront : Prop :=
  (∀ (i : Instr) (rest : List Instr) (s : State), step { s with pending := i :: rest } = exec i { s with pending := rest }) ∧
  (∀ s : State, s.pending = [] → step s = .next { s with mod := clockTick s.mod }) ∧
  (∀ (s : State) (nbits w : Nat), decodeTableWord nbits w = none ∧ s.withFetchWord nbits w = s)

/-- R462: a command changes no other command of the queue; only a command of the metrology unit changes it, and such a command
changes nothing of the module. -/
def Obligations.QueueAndMetrologyIsolated : Prop :=
  ∀ (i : Instr) (s : State), ∃ t, exec i s = .next t ∧ t.pending = s.pending ∧
    (if ofMetrology i = true then t.mod = s.mod else t.mdm = s.mdm)

/-- R459: every step keeps the metrology unit's records: the last 65,536 closed are held, numbered consecutively, and the interval energy of a record is
its energy register minus that of the one before. No number is given twice. -/
def Obligations.RecordsStayConsecutive : Prop :=
  ∀ s t : State, RecordsHeld s.mdm → step s = .next t → RecordsHeld t.mdm ∧ s.mdm.seq ≤ t.mdm.seq

/-- R491, Tables 16.2 to 18.5 and log 33: the state before the first power-up. -/
def Obligations.ResetState : Prop :=
  RecordsHeld State.reset.mdm ∧ State.reset.pending = [] ∧ State.reset.mod.memWf ∧ bootState State.reset.mod = 0 ∧
  rd State.reset.mod rRstCtl = 0 ∧ rd State.reset.mod rRstCause = 0 ∧ fld State.reset.mod rModId 7 0 = 0xFF ∧
  (∀ c, coreAt State.reset.mod c = CoreSt.reset) ∧ (∀ k ch, k < 5000 → ch < 16 → chState State.reset.mod k ch = 0) ∧ (∀ p, p < 12 → partState State.reset.mod p = 0) ∧
  (∀ g, g < 768 → fld State.reset.mod (rGranule false g) 3 0 = 0xF) ∧ (∀ o, rd State.reset.mod o = regReset o)

/-- R97 to R105, R141, R159, R176, R228: the encoding of the Octix word. The encoding of every instruction that R98 allows, under any guard, decodes
to that instruction under that guard; and every word that decodes is the encoding of what it decodes to. -/
def Obligations.OctixRoundTrip : Prop :=
  (∀ (o : Octix) (g : Option PReg), octixLegal o = true → decodeOctix (encodeWord g o) = some o ∧ guardOf (encodeWord g o) = g) ∧
  (∀ (w : W64) (o : Octix), decodeOctix w = some o → octixLegal o = true ∧ encodeWord (guardOf w) o = w)
end

