-- ==== Sys2Proof/Laws/Bits.lean ====
section
/-!
SUPPORT. The laws of bit fields: a field reads as it was set, and a field that does not meet it reads as before.
-/
namespace Sys2Proof.Machine

theorem nbits_eq (v hi lo : Nat) : nbits v hi lo = v / 2 ^ lo % 2 ^ (hi + 1 - lo) := by
  simp [nbits, Nat.shiftRight_eq_div_pow]

theorem nbits_lt (v hi lo : Nat) : nbits v hi lo < 2 ^ (hi + 1 - lo) := by
  rw [nbits_eq]; exact Nat.mod_lt _ (Nat.two_pow_pos _)

/-- A number split at a field. -/
theorem nput_split (v hi lo x : Nat) (h : lo ≤ hi) :
    nput v hi lo x = (v / 2 ^ (hi + 1) * 2 ^ (hi + 1 - lo) + x % 2 ^ (hi + 1 - lo)) * 2 ^ lo + v % 2 ^ lo := by
  have hn : 2 ^ (hi + 1) = 2 ^ (hi + 1 - lo) * 2 ^ lo := by rw [← Nat.pow_add]; congr 1; omega
  have hd : v / 2 ^ (hi + 1) = v / 2 ^ lo / 2 ^ (hi + 1 - lo) := by
    rw [Nat.div_div_eq_div_mul, Nat.mul_comm (2 ^ lo), ← hn]
  unfold nput
  rw [nbits_eq, Nat.shiftLeft_eq, Nat.shiftLeft_eq, hd]
  generalize hq : v / 2 ^ lo = q
  have hv : v = q * 2 ^ lo + v % 2 ^ lo := by rw [← hq, Nat.mul_comm]; exact (Nat.div_add_mod _ _).symm
  generalize v % 2 ^ lo = b at hv ⊢
  have hq2 : q = q / 2 ^ (hi + 1 - lo) * 2 ^ (hi + 1 - lo) + q % 2 ^ (hi + 1 - lo) := by
    rw [Nat.mul_comm]; exact (Nat.div_add_mod _ _).symm
  generalize q % 2 ^ (hi + 1 - lo) = f at hq2 ⊢
  generalize q / 2 ^ (hi + 1 - lo) = a at hq2 ⊢
  generalize x % 2 ^ (hi + 1 - lo) = y
  subst hq2
  rw [hv]
  simp only [Nat.add_mul]
  omega

/-- The field reads as it was set. -/
theorem nbits_nput_same (v hi lo x : Nat) (h : lo ≤ hi) : nbits (nput v hi lo x) hi lo = x % 2 ^ (hi + 1 - lo) := by
  rw [nbits_eq, nput_split v hi lo x h, Nat.mul_comm _ (2 ^ lo), Nat.mul_add_div (Nat.two_pow_pos lo),
    Nat.div_eq_of_lt (Nat.mod_lt _ (Nat.two_pow_pos lo)), Nat.add_zero, Nat.mul_comm, Nat.mul_add_mod]
  exact Nat.mod_eq_of_lt (Nat.mod_lt _ (Nat.two_pow_pos _))

/-- Bits above a field stay. -/
theorem nput_above (v hi lo x : Nat) (h : lo ≤ hi) : nput v hi lo x / 2 ^ (hi + 1) = v / 2 ^ (hi + 1) := by
  have hn : 2 ^ (hi + 1) = 2 ^ lo * 2 ^ (hi + 1 - lo) := by rw [← Nat.pow_add]; congr 1; omega
  have hf : x % 2 ^ (hi + 1 - lo) < 2 ^ (hi + 1 - lo) := Nat.mod_lt _ (Nat.two_pow_pos _)
  rw [nput_split v hi lo x h, hn, ← Nat.div_div_eq_div_mul, Nat.mul_comm _ (2 ^ lo), Nat.mul_add_div (Nat.two_pow_pos lo),
    Nat.div_eq_of_lt (Nat.mod_lt _ (Nat.two_pow_pos lo)), Nat.add_zero, Nat.mul_comm _ (2 ^ (hi + 1 - lo)),
    Nat.mul_add_div (Nat.two_pow_pos _), Nat.div_eq_of_lt hf, Nat.add_zero]

/-- Bits below a field stay. -/
theorem nput_below (v hi lo x : Nat) (h : lo ≤ hi) : nput v hi lo x % 2 ^ lo = v % 2 ^ lo := by
  rw [nput_split v hi lo x h, Nat.mul_comm, Nat.mul_add_mod]
  exact Nat.mod_mod _ _

theorem nbits_of_above (v hi lo k : Nat) (h : k ≤ lo) : nbits v hi lo = v / 2 ^ k / 2 ^ (lo - k) % 2 ^ (hi + 1 - lo) := by
  rw [nbits_eq, Nat.div_div_eq_div_mul, ← Nat.pow_add, Nat.add_sub_cancel' h]

theorem nbits_of_below (v hi lo k : Nat) (hl : lo ≤ hi) (h : hi < k) : nbits v hi lo = nbits (v % 2 ^ k) hi lo := by
  have hk : 2 ^ k = 2 ^ lo * (2 ^ (hi + 1 - lo) * 2 ^ (k - (hi + 1))) := by
    rw [← Nat.pow_add, ← Nat.pow_add]; congr 1; omega
  rw [nbits_eq, nbits_eq, hk, Nat.mod_mul_right_div_self, Nat.mod_mul_right_mod]

/-- A field that does not meet the field that is set reads as before. -/
theorem nbits_nput_ne (v hi lo x hi' lo' : Nat) (h : lo ≤ hi) (h' : lo' ≤ hi') (hd : hi < lo' ∨ hi' < lo) :
    nbits (nput v hi lo x) hi' lo' = nbits v hi' lo' := by
  rcases hd with hd | hd
  · rw [nbits_of_above _ hi' lo' (hi + 1) hd, nput_above v hi lo x h, ← nbits_of_above v hi' lo' (hi + 1) hd]
  · rw [nbits_of_below _ hi' lo' lo h' hd, nput_below v hi lo x h, ← nbits_of_below v hi' lo' lo h' hd]

/-- A field of a number that fits `w` bits leaves it fitting. -/
theorem nput_lt (v hi lo x w : Nat) (h : lo ≤ hi) (hw : hi < w) (hv : v < 2 ^ w) : nput v hi lo x < 2 ^ w := by
  have hp : 2 ^ w = 2 ^ (w - (hi + 1)) * 2 ^ (hi + 1) := by rw [← Nat.pow_add]; congr 1; omega
  have ha := nput_above v hi lo x h
  rw [hp] at hv ⊢
  have := (Nat.div_lt_iff_lt_mul (Nat.two_pow_pos (hi + 1))).2 hv
  rw [← ha] at this
  exact (Nat.div_lt_iff_lt_mul (Nat.two_pow_pos (hi + 1))).1 this

theorem put_toNat {w : Nat} (v : BitVec w) (hi lo x : Nat) (h : lo ≤ hi) (hw : hi < w) :
    (put v hi lo x).toNat = nput v.toNat hi lo x := by
  simp only [put, BitVec.toNat_ofNat]
  exact Nat.mod_eq_of_lt (nput_lt _ _ _ _ _ h hw v.isLt)

/-- A field of a bit vector reads as it was set. -/
theorem bits_put_same {w : Nat} (v : BitVec w) (hi lo x : Nat) (h : lo ≤ hi) (hw : hi < w) :
    bits (put v hi lo x) hi lo = x % 2 ^ (hi + 1 - lo) := by
  rw [bits, put_toNat v hi lo x h hw, nbits_nput_same _ _ _ _ h]

/-- Another field of a bit vector reads as before. -/
theorem bits_put_ne {w : Nat} (v : BitVec w) (hi lo x hi' lo' : Nat) (h : lo ≤ hi) (hw : hi < w) (h' : lo' ≤ hi')
    (hd : hi < lo' ∨ hi' < lo) : bits (put v hi lo x) hi' lo' = bits v hi' lo' := by
  rw [bits, put_toNat v hi lo x h hw, nbits_nput_ne _ _ _ _ _ _ h h' hd, bits]

theorem bits_lt {w : Nat} (v : BitVec w) (hi lo : Nat) : bits v hi lo < 2 ^ (hi + 1 - lo) := nbits_lt _ _ _

@[simp] theorem b2n_true : b2n true = 1 := rfl
@[simp] theorem b2n_false : b2n false = 0 := rfl

/-- Bit `i` as a field. -/
theorem bit_eq_bits {w : Nat} (v : BitVec w) (i : Nat) : bit v i = (bits v i i == 1) := by
  simp only [bit, bits, nbits_eq, Nat.testBit_eq_decide_div_mod_eq, show i + 1 - i = 1 by omega, Nat.pow_one]
  rfl

theorem leBytes_length (n v : Nat) : (leBytes n v).length = n := by
  induction n generalizing v with
  | zero => rfl
  | succ n ih => simp [leBytes, ih]

/-- The number of a little-endian list is the number it was made from. -/
theorem leNat_leBytes (n v : Nat) : leNat (leBytes n v) = v % 2 ^ (8 * n) := by
  induction n generalizing v with
  | zero => simp [leBytes, leNat, Nat.mod_one]
  | succ n ih =>
    simp only [leBytes, leNat, ih, BitVec.toNat_ofNat]
    rw [show 8 * (n + 1) = 8 + 8 * n by omega, Nat.pow_add, Nat.mod_mul]

theorem leBytes_append_take (n v : Nat) (r : List Byte) : (leBytes n v ++ r).take n = leBytes n v := by
  have := leBytes_length n v
  rw [List.take_append_of_le_length (by omega), List.take_of_length_le (by omega)]

end Sys2Proof.Machine
end

