-- ==== Sys2Proof/Laws/Sparse.lean ====
section
/-!
SUPPORT. The laws of the store of values by key: read after write, and that every operation keeps the canonical form.
-/
namespace Sys2Proof.Machine

variable {α : Type} [DecidableEq α] {d : Nat → α}

omit [DecidableEq α] in
@[simp] theorem sget_nil (k : Nat) : sget d [] k = d k := rfl

omit [DecidableEq α] in
/-- What a filter that keeps a key leaves is read at it as before. -/
theorem sget_filter (m : Sparse α) (f : Nat × α → Bool) (k : Nat) (h : ∀ v, f (k, v) = true) :
    sget d (m.filter f) k = sget d m k := by
  induction m with
  | nil => rfl
  | cons e m ih =>
    obtain ⟨k', v⟩ := e
    by_cases hk : k = k'
    · subst hk; simp [List.filter, h, sget]
    · cases hf : f (k', v) <;> simp [List.filter, hf, sget, hk, ih]

omit [DecidableEq α] in
/-- What a filter that drops a key leaves reads as the default at it. -/
theorem sget_filter_drop (m : Sparse α) (f : Nat × α → Bool) (k : Nat) (h : ∀ v, f (k, v) = false) :
    sget d (m.filter f) k = d k := by
  induction m with
  | nil => rfl
  | cons e m ih =>
    obtain ⟨k', v⟩ := e
    by_cases hk : k = k'
    · subst hk; simp [List.filter, h, ih]
    · cases hf : f (k', v) <;> simp [List.filter, hf, sget, hk, ih]

omit [DecidableEq α] in
theorem sget_sdrop_self (m : Sparse α) (k : Nat) : sget d (sdrop m k) k = d k :=
  sget_filter_drop m _ k (fun _ => by simp)

omit [DecidableEq α] in
theorem sget_sdrop_ne (m : Sparse α) {k j : Nat} (h : j ≠ k) : sget d (sdrop m k) j = sget d m j :=
  sget_filter m _ j (fun _ => by simpa using h)

/-- A key reads as it was last set. -/
@[simp] theorem sget_sset_self (m : Sparse α) (k : Nat) (v : α) : sget d (sset d m k v) k = v := by
  induction m with
  | nil => by_cases h : v = d k <;> simp [sset, h, sget]
  | cons e m ih =>
    obtain ⟨k', v'⟩ := e
    unfold sset
    split
    · split
      · next h => rw [sget_sdrop_self]; exact h.symm
      · simp [sget]
    · split
      · split
        · next h => rw [sget_sdrop_self]; exact h.symm
        · simp [sget]
      · next h => simp [sget, h, ih]

/-- Setting a key leaves every other. -/
theorem sget_sset_ne (m : Sparse α) {k j : Nat} (v : α) (h : j ≠ k) : sget d (sset d m k v) j = sget d m j := by
  induction m with
  | nil => by_cases hv : v = d k <;> simp [sset, hv, sget, h]
  | cons e m ih =>
    obtain ⟨k', v'⟩ := e
    unfold sset
    split
    · split
      · rw [sget_sdrop_ne _ h]
      · simp [sget, h]
    · split
      · next hk =>
        subst hk
        split
        · simp [sget_sdrop_ne _ h, sget, h]
        · simp [sget_sdrop_ne _ h, sget, h]
      · simp only [sget, ih]

/-- Read after write. -/
theorem sget_sset (m : Sparse α) (k j : Nat) (v : α) : sget d (sset d m k v) j = if j = k then v else sget d m j := by
  split
  · next h => subst h; simp
  · next h => exact sget_sset_ne m v h

omit [DecidableEq α] in
/-- A cleared range reads as the default, every other key as before. -/
theorem sget_sclear (m : Sparse α) (lo n j : Nat) :
    sget d (sclear m lo n) j = if lo ≤ j ∧ j < lo + n then d j else sget d m j := by
  split
  · exact sget_filter_drop m _ j (fun _ => by simp; omega)
  · exact sget_filter m _ j (fun _ => by simp; omega)

/-! ## The canonical form -/

omit [DecidableEq α] in
theorem risingFrom_mono {m : Sparse α} {a b : Nat} (h : a ≤ b) (hm : risingFrom b m = true) : risingFrom a m = true := by
  cases m with
  | nil => rfl
  | cons e m => obtain ⟨k, v⟩ := e; simp only [risingFrom, Bool.and_eq_true, decide_eq_true_eq] at *; exact ⟨by omega, hm.2⟩

omit [DecidableEq α] in
theorem risingFrom_filter (f : Nat × α → Bool) {m : Sparse α} {a : Nat} (hm : risingFrom a m = true) :
    risingFrom a (m.filter f) = true := by
  induction m generalizing a with
  | nil => rfl
  | cons e m ih =>
    obtain ⟨k, v⟩ := e
    simp only [risingFrom, Bool.and_eq_true, decide_eq_true_eq] at hm
    cases hf : f (k, v) with
    | true => simp only [List.filter, hf, risingFrom, Bool.and_eq_true, decide_eq_true_eq]; exact ⟨hm.1, ih hm.2⟩
    | false => simp only [List.filter, hf]; exact ih (risingFrom_mono (by omega) hm.2)

/-- A filter keeps the canonical form. -/
theorem sparseWf_filter (f : Nat × α → Bool) {m : Sparse α} (h : sparseWf d m = true) : sparseWf d (m.filter f) = true := by
  simp only [sparseWf, Bool.and_eq_true, List.all_eq_true, decide_eq_true_eq] at *
  exact ⟨risingFrom_filter f h.1, fun e he => h.2 e (List.mem_filter.mp he).1⟩

/-- Forgetting a range keeps the canonical form. -/
theorem sclear_wf {m : Sparse α} (lo n : Nat) (h : sparseWf d m = true) : sparseWf d (sclear m lo n) = true :=
  sparseWf_filter _ h

theorem sset_rising {m : Sparse α} {a k : Nat} (v : α) (hk : a ≤ k) (hm : risingFrom a m = true) :
    risingFrom a (sset d m k v) = true := by
  induction m generalizing a with
  | nil => by_cases hv : v = d k <;> simp [sset, hv, risingFrom, hk]
  | cons e m ih =>
    obtain ⟨k', v'⟩ := e
    have hm' := hm
    simp only [risingFrom, Bool.and_eq_true, decide_eq_true_eq] at hm
    unfold sset
    split
    · split
      · exact risingFrom_filter _ hm'
      · simp only [risingFrom, Bool.and_eq_true, decide_eq_true_eq]; exact ⟨hk, by omega, hm.2⟩
    · split
      · next hkk =>
        subst hkk
        split
        · exact risingFrom_filter _ (risingFrom_mono (by omega) hm.2)
        · simp only [risingFrom, Bool.and_eq_true, decide_eq_true_eq]; exact ⟨hk, risingFrom_filter _ hm.2⟩
      · simp only [risingFrom, Bool.and_eq_true, decide_eq_true_eq]; exact ⟨hm.1, ih (by omega) hm.2⟩

theorem sset_mem {m : Sparse α} {k : Nat} {v : α} {e : Nat × α} (he : e ∈ sset d m k v) : e ∈ m ∨ (e = (k, v) ∧ v ≠ d k) := by
  induction m with
  | nil => by_cases hv : v = d k <;> simp_all [sset]
  | cons e' m ih =>
    obtain ⟨k', v'⟩ := e'
    unfold sset at he
    split at he
    · split at he
      · exact .inl (List.mem_filter.mp he).1
      · next hv => rcases List.mem_cons.mp he with rfl | h
                   · exact .inr ⟨rfl, hv⟩
                   · exact .inl h
    · split at he
      · split at he
        · exact .inl (List.mem_cons_of_mem _ (List.mem_filter.mp he).1)
        · next hv => rcases List.mem_cons.mp he with rfl | h
                     · exact .inr ⟨rfl, hv⟩
                     · exact .inl (List.mem_cons_of_mem _ (List.mem_filter.mp h).1)
      · rcases List.mem_cons.mp he with rfl | h
        · exact .inl List.mem_cons_self
        · rcases ih h with h | h
          · exact .inl (List.mem_cons_of_mem _ h)
          · exact .inr h

/-- Setting a key keeps the canonical form. -/
theorem sset_wf {m : Sparse α} (k : Nat) (v : α) (h : sparseWf d m = true) : sparseWf d (sset d m k v) = true := by
  simp only [sparseWf, Bool.and_eq_true, List.all_eq_true, decide_eq_true_eq] at *
  refine ⟨sset_rising v (Nat.zero_le _) h.1, fun e he => ?_⟩
  rcases sset_mem he with h' | ⟨rfl, hv⟩
  · exact h.2 e h'
  · exact hv

end Sys2Proof.Machine
end

