-- ==== Sys2Proof/Laws/State.lean ====
section
/-!
SUPPORT. What each update of the module's state leaves as it was, field by field, and what a read after it gives.
-/
namespace Sys2Proof.Machine

/-- `wr` changes the field `regs` only. -/
@[simp] theorem wr_frame (m : Mod) (off : Nat) (v : W64) :
    (wr m off v).free = m.free ∧ (wr m off v).hclk = m.hclk ∧ (wr m off v).mem = m.mem ∧ (wr m off v).lmem = m.lmem ∧
    (wr m off v).imem = m.imem ∧ (wr m off v).ecc = m.ecc ∧ (wr m off v).cores = m.cores ∧ (wr m off v).claps = m.claps ∧
    (wr m off v).arrivals = m.arrivals ∧ (wr m off v).evFlags = m.evFlags ∧ (wr m off v).chans = m.chans ∧
    (wr m off v).pins = m.pins ∧ (wr m off v).clusters = m.clusters ∧ (wr m off v).ctxs = m.ctxs ∧
    (wr m off v).fns = m.fns ∧ (wr m off v).prints = m.prints ∧ (wr m off v).reels = m.reels ∧
    (wr m off v).streams = m.streams ∧ (wr m off v).groups = m.groups ∧ (wr m off v).ports = m.ports ∧
    (wr m off v).tx = m.tx ∧ (wr m off v).migQ = m.migQ ∧ (wr m off v).movers = m.movers ∧ (wr m off v).sbs = m.sbs ∧
    (wr m off v).gafs = m.gafs ∧ (wr m off v).standbyWake = m.standbyWake ∧ (wr m off v).pwrSamples = m.pwrSamples ∧
    (wr m off v).production = m.production ∧ (wr m off v).infield = m.infield ∧ (wr m off v).corrected = m.corrected ∧
    (wr m off v).patrolled = m.patrolled ∧ (wr m off v).gauges = m.gauges ∧ (wr m off v).savedGauges = m.savedGauges ∧
    (wr m off v).uncontained = m.uncontained ∧ (wr m off v).ingest = m.ingest ∧ (wr m off v).modEq = m.modEq ∧
    (wr m off v).msix = m.msix ∧ (wr m off v).evWait = m.evWait ∧ (wr m off v).telemQ = m.telemQ ∧
    (wr m off v).alarmWait = m.alarmWait ∧ (wr m off v).arbs = m.arbs ∧ (wr m off v).strs = m.strs ∧
    (wr m off v).nvs = m.nvs ∧ (wr m off v).reads = m.reads ∧ (wr m off v).readId = m.readId ∧
    (wr m off v).unacked = m.unacked ∧ (wr m off v).ctlKey = m.ctlKey ∧ (wr m off v).boot = m.boot ∧
    (wr m off v).lateWrites = m.lateWrites ∧ (wr m off v).meterAcc = m.meterAcc ∧
    (wr m off v).meterOpen = m.meterOpen := by
  and_intros <;> rfl

/-- `setCore` changes the field `cores` only. -/
@[simp] theorem setCore_frame (m : Mod) (c : Nat) (v : CoreSt) :
    (setCore m c v).free = m.free ∧ (setCore m c v).hclk = m.hclk ∧ (setCore m c v).regs = m.regs ∧
    (setCore m c v).mem = m.mem ∧ (setCore m c v).lmem = m.lmem ∧ (setCore m c v).imem = m.imem ∧
    (setCore m c v).ecc = m.ecc ∧ (setCore m c v).claps = m.claps ∧ (setCore m c v).arrivals = m.arrivals ∧
    (setCore m c v).evFlags = m.evFlags ∧ (setCore m c v).chans = m.chans ∧ (setCore m c v).pins = m.pins ∧
    (setCore m c v).clusters = m.clusters ∧ (setCore m c v).ctxs = m.ctxs ∧ (setCore m c v).fns = m.fns ∧
    (setCore m c v).prints = m.prints ∧ (setCore m c v).reels = m.reels ∧ (setCore m c v).streams = m.streams ∧
    (setCore m c v).groups = m.groups ∧ (setCore m c v).ports = m.ports ∧ (setCore m c v).tx = m.tx ∧
    (setCore m c v).migQ = m.migQ ∧ (setCore m c v).movers = m.movers ∧ (setCore m c v).sbs = m.sbs ∧
    (setCore m c v).gafs = m.gafs ∧ (setCore m c v).standbyWake = m.standbyWake ∧
    (setCore m c v).pwrSamples = m.pwrSamples ∧ (setCore m c v).production = m.production ∧
    (setCore m c v).infield = m.infield ∧ (setCore m c v).corrected = m.corrected ∧
    (setCore m c v).patrolled = m.patrolled ∧ (setCore m c v).gauges = m.gauges ∧
    (setCore m c v).savedGauges = m.savedGauges ∧ (setCore m c v).uncontained = m.uncontained ∧
    (setCore m c v).ingest = m.ingest ∧ (setCore m c v).modEq = m.modEq ∧ (setCore m c v).msix = m.msix ∧
    (setCore m c v).evWait = m.evWait ∧ (setCore m c v).telemQ = m.telemQ ∧ (setCore m c v).alarmWait = m.alarmWait ∧
    (setCore m c v).arbs = m.arbs ∧ (setCore m c v).strs = m.strs ∧ (setCore m c v).nvs = m.nvs ∧
    (setCore m c v).reads = m.reads ∧ (setCore m c v).readId = m.readId ∧ (setCore m c v).unacked = m.unacked ∧
    (setCore m c v).ctlKey = m.ctlKey ∧ (setCore m c v).boot = m.boot ∧ (setCore m c v).lateWrites = m.lateWrites ∧
    (setCore m c v).meterAcc = m.meterAcc ∧ (setCore m c v).meterOpen = m.meterOpen := by
  and_intros <;> rfl

/-- `setCtx` changes the field `ctxs` only. -/
@[simp] theorem setCtx_frame (m : Mod) (x : Nat) (v : CtxSt) :
    (setCtx m x v).free = m.free ∧ (setCtx m x v).hclk = m.hclk ∧ (setCtx m x v).regs = m.regs ∧
    (setCtx m x v).mem = m.mem ∧ (setCtx m x v).lmem = m.lmem ∧ (setCtx m x v).imem = m.imem ∧
    (setCtx m x v).ecc = m.ecc ∧ (setCtx m x v).cores = m.cores ∧ (setCtx m x v).claps = m.claps ∧
    (setCtx m x v).arrivals = m.arrivals ∧ (setCtx m x v).evFlags = m.evFlags ∧ (setCtx m x v).chans = m.chans ∧
    (setCtx m x v).pins = m.pins ∧ (setCtx m x v).clusters = m.clusters ∧ (setCtx m x v).fns = m.fns ∧
    (setCtx m x v).prints = m.prints ∧ (setCtx m x v).reels = m.reels ∧ (setCtx m x v).streams = m.streams ∧
    (setCtx m x v).groups = m.groups ∧ (setCtx m x v).ports = m.ports ∧ (setCtx m x v).tx = m.tx ∧
    (setCtx m x v).migQ = m.migQ ∧ (setCtx m x v).movers = m.movers ∧ (setCtx m x v).sbs = m.sbs ∧
    (setCtx m x v).gafs = m.gafs ∧ (setCtx m x v).standbyWake = m.standbyWake ∧
    (setCtx m x v).pwrSamples = m.pwrSamples ∧ (setCtx m x v).production = m.production ∧
    (setCtx m x v).infield = m.infield ∧ (setCtx m x v).corrected = m.corrected ∧
    (setCtx m x v).patrolled = m.patrolled ∧ (setCtx m x v).gauges = m.gauges ∧
    (setCtx m x v).savedGauges = m.savedGauges ∧ (setCtx m x v).uncontained = m.uncontained ∧
    (setCtx m x v).ingest = m.ingest ∧ (setCtx m x v).modEq = m.modEq ∧ (setCtx m x v).msix = m.msix ∧
    (setCtx m x v).evWait = m.evWait ∧ (setCtx m x v).telemQ = m.telemQ ∧ (setCtx m x v).alarmWait = m.alarmWait ∧
    (setCtx m x v).arbs = m.arbs ∧ (setCtx m x v).strs = m.strs ∧ (setCtx m x v).nvs = m.nvs ∧
    (setCtx m x v).reads = m.reads ∧ (setCtx m x v).readId = m.readId ∧ (setCtx m x v).unacked = m.unacked ∧
    (setCtx m x v).ctlKey = m.ctlKey ∧ (setCtx m x v).boot = m.boot ∧ (setCtx m x v).lateWrites = m.lateWrites ∧
    (setCtx m x v).meterAcc = m.meterAcc ∧ (setCtx m x v).meterOpen = m.meterOpen := by
  and_intros <;> rfl

/-- `setFn` changes the field `fns` only. -/
@[simp] theorem setFn_frame (m : Mod) (f : Nat) (v : FnSt) :
    (setFn m f v).free = m.free ∧ (setFn m f v).hclk = m.hclk ∧ (setFn m f v).regs = m.regs ∧ (setFn m f v).mem = m.mem ∧
    (setFn m f v).lmem = m.lmem ∧ (setFn m f v).imem = m.imem ∧ (setFn m f v).ecc = m.ecc ∧
    (setFn m f v).cores = m.cores ∧ (setFn m f v).claps = m.claps ∧ (setFn m f v).arrivals = m.arrivals ∧
    (setFn m f v).evFlags = m.evFlags ∧ (setFn m f v).chans = m.chans ∧ (setFn m f v).pins = m.pins ∧
    (setFn m f v).clusters = m.clusters ∧ (setFn m f v).ctxs = m.ctxs ∧ (setFn m f v).prints = m.prints ∧
    (setFn m f v).reels = m.reels ∧ (setFn m f v).streams = m.streams ∧ (setFn m f v).groups = m.groups ∧
    (setFn m f v).ports = m.ports ∧ (setFn m f v).tx = m.tx ∧ (setFn m f v).migQ = m.migQ ∧
    (setFn m f v).movers = m.movers ∧ (setFn m f v).sbs = m.sbs ∧ (setFn m f v).gafs = m.gafs ∧
    (setFn m f v).standbyWake = m.standbyWake ∧ (setFn m f v).pwrSamples = m.pwrSamples ∧
    (setFn m f v).production = m.production ∧ (setFn m f v).infield = m.infield ∧ (setFn m f v).corrected = m.corrected ∧
    (setFn m f v).patrolled = m.patrolled ∧ (setFn m f v).gauges = m.gauges ∧ (setFn m f v).savedGauges = m.savedGauges ∧
    (setFn m f v).uncontained = m.uncontained ∧ (setFn m f v).ingest = m.ingest ∧ (setFn m f v).modEq = m.modEq ∧
    (setFn m f v).msix = m.msix ∧ (setFn m f v).evWait = m.evWait ∧ (setFn m f v).telemQ = m.telemQ ∧
    (setFn m f v).alarmWait = m.alarmWait ∧ (setFn m f v).arbs = m.arbs ∧ (setFn m f v).strs = m.strs ∧
    (setFn m f v).nvs = m.nvs ∧ (setFn m f v).reads = m.reads ∧ (setFn m f v).readId = m.readId ∧
    (setFn m f v).unacked = m.unacked ∧ (setFn m f v).ctlKey = m.ctlKey ∧ (setFn m f v).boot = m.boot ∧
    (setFn m f v).lateWrites = m.lateWrites ∧ (setFn m f v).meterAcc = m.meterAcc ∧
    (setFn m f v).meterOpen = m.meterOpen := by
  and_intros <;> rfl

/-- `setChan` changes the field `chans` only. -/
@[simp] theorem setChan_frame (m : Mod) (k ch : Nat) (v : ChanSt) :
    (setChan m k ch v).free = m.free ∧ (setChan m k ch v).hclk = m.hclk ∧ (setChan m k ch v).regs = m.regs ∧
    (setChan m k ch v).mem = m.mem ∧ (setChan m k ch v).lmem = m.lmem ∧ (setChan m k ch v).imem = m.imem ∧
    (setChan m k ch v).ecc = m.ecc ∧ (setChan m k ch v).cores = m.cores ∧ (setChan m k ch v).claps = m.claps ∧
    (setChan m k ch v).arrivals = m.arrivals ∧ (setChan m k ch v).evFlags = m.evFlags ∧
    (setChan m k ch v).pins = m.pins ∧ (setChan m k ch v).clusters = m.clusters ∧ (setChan m k ch v).ctxs = m.ctxs ∧
    (setChan m k ch v).fns = m.fns ∧ (setChan m k ch v).prints = m.prints ∧ (setChan m k ch v).reels = m.reels ∧
    (setChan m k ch v).streams = m.streams ∧ (setChan m k ch v).groups = m.groups ∧ (setChan m k ch v).ports = m.ports ∧
    (setChan m k ch v).tx = m.tx ∧ (setChan m k ch v).migQ = m.migQ ∧ (setChan m k ch v).movers = m.movers ∧
    (setChan m k ch v).sbs = m.sbs ∧ (setChan m k ch v).gafs = m.gafs ∧ (setChan m k ch v).standbyWake = m.standbyWake ∧
    (setChan m k ch v).pwrSamples = m.pwrSamples ∧ (setChan m k ch v).production = m.production ∧
    (setChan m k ch v).infield = m.infield ∧ (setChan m k ch v).corrected = m.corrected ∧
    (setChan m k ch v).patrolled = m.patrolled ∧ (setChan m k ch v).gauges = m.gauges ∧
    (setChan m k ch v).savedGauges = m.savedGauges ∧ (setChan m k ch v).uncontained = m.uncontained ∧
    (setChan m k ch v).ingest = m.ingest ∧ (setChan m k ch v).modEq = m.modEq ∧ (setChan m k ch v).msix = m.msix ∧
    (setChan m k ch v).evWait = m.evWait ∧ (setChan m k ch v).telemQ = m.telemQ ∧
    (setChan m k ch v).alarmWait = m.alarmWait ∧ (setChan m k ch v).arbs = m.arbs ∧ (setChan m k ch v).strs = m.strs ∧
    (setChan m k ch v).nvs = m.nvs ∧ (setChan m k ch v).reads = m.reads ∧ (setChan m k ch v).readId = m.readId ∧
    (setChan m k ch v).unacked = m.unacked ∧ (setChan m k ch v).ctlKey = m.ctlKey ∧ (setChan m k ch v).boot = m.boot ∧
    (setChan m k ch v).lateWrites = m.lateWrites ∧ (setChan m k ch v).meterAcc = m.meterAcc ∧
    (setChan m k ch v).meterOpen = m.meterOpen := by
  and_intros <;> rfl

/-- `setCl` changes the field `clusters` only. -/
@[simp] theorem setCl_frame (m : Mod) (k : Nat) (v : ClusterSt) :
    (setCl m k v).free = m.free ∧ (setCl m k v).hclk = m.hclk ∧ (setCl m k v).regs = m.regs ∧ (setCl m k v).mem = m.mem ∧
    (setCl m k v).lmem = m.lmem ∧ (setCl m k v).imem = m.imem ∧ (setCl m k v).ecc = m.ecc ∧
    (setCl m k v).cores = m.cores ∧ (setCl m k v).claps = m.claps ∧ (setCl m k v).arrivals = m.arrivals ∧
    (setCl m k v).evFlags = m.evFlags ∧ (setCl m k v).chans = m.chans ∧ (setCl m k v).pins = m.pins ∧
    (setCl m k v).ctxs = m.ctxs ∧ (setCl m k v).fns = m.fns ∧ (setCl m k v).prints = m.prints ∧
    (setCl m k v).reels = m.reels ∧ (setCl m k v).streams = m.streams ∧ (setCl m k v).groups = m.groups ∧
    (setCl m k v).ports = m.ports ∧ (setCl m k v).tx = m.tx ∧ (setCl m k v).migQ = m.migQ ∧
    (setCl m k v).movers = m.movers ∧ (setCl m k v).sbs = m.sbs ∧ (setCl m k v).gafs = m.gafs ∧
    (setCl m k v).standbyWake = m.standbyWake ∧ (setCl m k v).pwrSamples = m.pwrSamples ∧
    (setCl m k v).production = m.production ∧ (setCl m k v).infield = m.infield ∧ (setCl m k v).corrected = m.corrected ∧
    (setCl m k v).patrolled = m.patrolled ∧ (setCl m k v).gauges = m.gauges ∧ (setCl m k v).savedGauges = m.savedGauges ∧
    (setCl m k v).uncontained = m.uncontained ∧ (setCl m k v).ingest = m.ingest ∧ (setCl m k v).modEq = m.modEq ∧
    (setCl m k v).msix = m.msix ∧ (setCl m k v).evWait = m.evWait ∧ (setCl m k v).telemQ = m.telemQ ∧
    (setCl m k v).alarmWait = m.alarmWait ∧ (setCl m k v).arbs = m.arbs ∧ (setCl m k v).strs = m.strs ∧
    (setCl m k v).nvs = m.nvs ∧ (setCl m k v).reads = m.reads ∧ (setCl m k v).readId = m.readId ∧
    (setCl m k v).unacked = m.unacked ∧ (setCl m k v).ctlKey = m.ctlKey ∧ (setCl m k v).boot = m.boot ∧
    (setCl m k v).lateWrites = m.lateWrites ∧ (setCl m k v).meterAcc = m.meterAcc ∧
    (setCl m k v).meterOpen = m.meterOpen := by
  and_intros <;> rfl

/-- `setPr` changes the field `prints` only. -/
@[simp] theorem setPr_frame (m : Mod) (p : Nat) (v : PrintSt) :
    (setPr m p v).free = m.free ∧ (setPr m p v).hclk = m.hclk ∧ (setPr m p v).regs = m.regs ∧ (setPr m p v).mem = m.mem ∧
    (setPr m p v).lmem = m.lmem ∧ (setPr m p v).imem = m.imem ∧ (setPr m p v).ecc = m.ecc ∧
    (setPr m p v).cores = m.cores ∧ (setPr m p v).claps = m.claps ∧ (setPr m p v).arrivals = m.arrivals ∧
    (setPr m p v).evFlags = m.evFlags ∧ (setPr m p v).chans = m.chans ∧ (setPr m p v).pins = m.pins ∧
    (setPr m p v).clusters = m.clusters ∧ (setPr m p v).ctxs = m.ctxs ∧ (setPr m p v).fns = m.fns ∧
    (setPr m p v).reels = m.reels ∧ (setPr m p v).streams = m.streams ∧ (setPr m p v).groups = m.groups ∧
    (setPr m p v).ports = m.ports ∧ (setPr m p v).tx = m.tx ∧ (setPr m p v).migQ = m.migQ ∧
    (setPr m p v).movers = m.movers ∧ (setPr m p v).sbs = m.sbs ∧ (setPr m p v).gafs = m.gafs ∧
    (setPr m p v).standbyWake = m.standbyWake ∧ (setPr m p v).pwrSamples = m.pwrSamples ∧
    (setPr m p v).production = m.production ∧ (setPr m p v).infield = m.infield ∧ (setPr m p v).corrected = m.corrected ∧
    (setPr m p v).patrolled = m.patrolled ∧ (setPr m p v).gauges = m.gauges ∧ (setPr m p v).savedGauges = m.savedGauges ∧
    (setPr m p v).uncontained = m.uncontained ∧ (setPr m p v).ingest = m.ingest ∧ (setPr m p v).modEq = m.modEq ∧
    (setPr m p v).msix = m.msix ∧ (setPr m p v).evWait = m.evWait ∧ (setPr m p v).telemQ = m.telemQ ∧
    (setPr m p v).alarmWait = m.alarmWait ∧ (setPr m p v).arbs = m.arbs ∧ (setPr m p v).strs = m.strs ∧
    (setPr m p v).nvs = m.nvs ∧ (setPr m p v).reads = m.reads ∧ (setPr m p v).readId = m.readId ∧
    (setPr m p v).unacked = m.unacked ∧ (setPr m p v).ctlKey = m.ctlKey ∧ (setPr m p v).boot = m.boot ∧
    (setPr m p v).lateWrites = m.lateWrites ∧ (setPr m p v).meterAcc = m.meterAcc ∧
    (setPr m p v).meterOpen = m.meterOpen := by
  and_intros <;> rfl

/-- `sendMsix` changes the field `msix` only. -/
@[simp] theorem sendMsix_frame (m : Mod) (f vec : Nat) :
    (sendMsix m f vec).free = m.free ∧ (sendMsix m f vec).hclk = m.hclk ∧ (sendMsix m f vec).regs = m.regs ∧
    (sendMsix m f vec).mem = m.mem ∧ (sendMsix m f vec).lmem = m.lmem ∧ (sendMsix m f vec).imem = m.imem ∧
    (sendMsix m f vec).ecc = m.ecc ∧ (sendMsix m f vec).cores = m.cores ∧ (sendMsix m f vec).claps = m.claps ∧
    (sendMsix m f vec).arrivals = m.arrivals ∧ (sendMsix m f vec).evFlags = m.evFlags ∧
    (sendMsix m f vec).chans = m.chans ∧ (sendMsix m f vec).pins = m.pins ∧ (sendMsix m f vec).clusters = m.clusters ∧
    (sendMsix m f vec).ctxs = m.ctxs ∧ (sendMsix m f vec).fns = m.fns ∧ (sendMsix m f vec).prints = m.prints ∧
    (sendMsix m f vec).reels = m.reels ∧ (sendMsix m f vec).streams = m.streams ∧ (sendMsix m f vec).groups = m.groups ∧
    (sendMsix m f vec).ports = m.ports ∧ (sendMsix m f vec).tx = m.tx ∧ (sendMsix m f vec).migQ = m.migQ ∧
    (sendMsix m f vec).movers = m.movers ∧ (sendMsix m f vec).sbs = m.sbs ∧ (sendMsix m f vec).gafs = m.gafs ∧
    (sendMsix m f vec).standbyWake = m.standbyWake ∧ (sendMsix m f vec).pwrSamples = m.pwrSamples ∧
    (sendMsix m f vec).production = m.production ∧ (sendMsix m f vec).infield = m.infield ∧
    (sendMsix m f vec).corrected = m.corrected ∧ (sendMsix m f vec).patrolled = m.patrolled ∧
    (sendMsix m f vec).gauges = m.gauges ∧ (sendMsix m f vec).savedGauges = m.savedGauges ∧
    (sendMsix m f vec).uncontained = m.uncontained ∧ (sendMsix m f vec).ingest = m.ingest ∧
    (sendMsix m f vec).modEq = m.modEq ∧ (sendMsix m f vec).evWait = m.evWait ∧ (sendMsix m f vec).telemQ = m.telemQ ∧
    (sendMsix m f vec).alarmWait = m.alarmWait ∧ (sendMsix m f vec).arbs = m.arbs ∧ (sendMsix m f vec).strs = m.strs ∧
    (sendMsix m f vec).nvs = m.nvs ∧ (sendMsix m f vec).reads = m.reads ∧ (sendMsix m f vec).readId = m.readId ∧
    (sendMsix m f vec).unacked = m.unacked ∧ (sendMsix m f vec).ctlKey = m.ctlKey ∧ (sendMsix m f vec).boot = m.boot ∧
    (sendMsix m f vec).lateWrites = m.lateWrites ∧ (sendMsix m f vec).meterAcc = m.meterAcc ∧
    (sendMsix m f vec).meterOpen = m.meterOpen := by
  and_intros <;> rfl

/-- `bumpFree` changes the field `free` only. -/
@[simp] theorem bumpFree_frame (m : Mod) :
    (bumpFree m).hclk = m.hclk ∧ (bumpFree m).regs = m.regs ∧ (bumpFree m).mem = m.mem ∧ (bumpFree m).lmem = m.lmem ∧
    (bumpFree m).imem = m.imem ∧ (bumpFree m).ecc = m.ecc ∧ (bumpFree m).cores = m.cores ∧ (bumpFree m).claps = m.claps ∧
    (bumpFree m).arrivals = m.arrivals ∧ (bumpFree m).evFlags = m.evFlags ∧ (bumpFree m).chans = m.chans ∧
    (bumpFree m).pins = m.pins ∧ (bumpFree m).clusters = m.clusters ∧ (bumpFree m).ctxs = m.ctxs ∧
    (bumpFree m).fns = m.fns ∧ (bumpFree m).prints = m.prints ∧ (bumpFree m).reels = m.reels ∧
    (bumpFree m).streams = m.streams ∧ (bumpFree m).groups = m.groups ∧ (bumpFree m).ports = m.ports ∧
    (bumpFree m).tx = m.tx ∧ (bumpFree m).migQ = m.migQ ∧ (bumpFree m).movers = m.movers ∧ (bumpFree m).sbs = m.sbs ∧
    (bumpFree m).gafs = m.gafs ∧ (bumpFree m).standbyWake = m.standbyWake ∧ (bumpFree m).pwrSamples = m.pwrSamples ∧
    (bumpFree m).production = m.production ∧ (bumpFree m).infield = m.infield ∧ (bumpFree m).corrected = m.corrected ∧
    (bumpFree m).patrolled = m.patrolled ∧ (bumpFree m).gauges = m.gauges ∧ (bumpFree m).savedGauges = m.savedGauges ∧
    (bumpFree m).uncontained = m.uncontained ∧ (bumpFree m).ingest = m.ingest ∧ (bumpFree m).modEq = m.modEq ∧
    (bumpFree m).msix = m.msix ∧ (bumpFree m).evWait = m.evWait ∧ (bumpFree m).telemQ = m.telemQ ∧
    (bumpFree m).alarmWait = m.alarmWait ∧ (bumpFree m).arbs = m.arbs ∧ (bumpFree m).strs = m.strs ∧
    (bumpFree m).nvs = m.nvs ∧ (bumpFree m).reads = m.reads ∧ (bumpFree m).readId = m.readId ∧
    (bumpFree m).unacked = m.unacked ∧ (bumpFree m).ctlKey = m.ctlKey ∧ (bumpFree m).boot = m.boot ∧
    (bumpFree m).lateWrites = m.lateWrites ∧ (bumpFree m).meterAcc = m.meterAcc ∧
    (bumpFree m).meterOpen = m.meterOpen := by
  and_intros <;> rfl

/-! ## Reads after writes -/

/-- A register after a write of one. -/
theorem rd_wr (m : Mod) (off off' : Nat) (v : W64) : rd (wr m off v) off' = if off' = off then v else rd m off' :=
  sget_sset m.regs off off' v

@[simp] theorem rd_wr_self (m : Mod) (off : Nat) (v : W64) : rd (wr m off v) off = v := by simp [rd_wr]

@[simp] theorem rd_wr_ne (m : Mod) {off off' : Nat} (v : W64) (h : off' ≠ off) : rd (wr m off v) off' = rd m off' := by
  simp [rd_wr, h]

/-- A core record after a write of one. -/
theorem coreAt_setCore (m : Mod) (c k : Nat) (v : CoreSt) : coreAt (setCore m c v) k = if k = c then v else coreAt m k :=
  sget_sset m.cores c k v

@[simp] theorem coreAt_setCore_self (m : Mod) (c : Nat) (v : CoreSt) : coreAt (setCore m c v) c = v := by
  simp [coreAt_setCore]

@[simp] theorem coreAt_setCore_ne (m : Mod) {c k : Nat} (v : CoreSt) (h : k ≠ c) : coreAt (setCore m c v) k = coreAt m k := by
  simp [coreAt_setCore, h]

/-- A CtxSt record after a write of one. -/
@[simp] theorem ctxAt_setCtx (m : Mod) (x y : Nat) (v : CtxSt) : ctxAt (setCtx m x v) y = if y = x then v else ctxAt m y :=
  sget_sset m.ctxs x y v

/-- A FnSt record after a write of one. -/
@[simp] theorem fnAt_setFn (m : Mod) (x y : Nat) (v : FnSt) : fnAt (setFn m x v) y = if y = x then v else fnAt m y :=
  sget_sset m.fns x y v

/-- A ClusterSt record after a write of one. -/
@[simp] theorem clAt_setCl (m : Mod) (x y : Nat) (v : ClusterSt) : clAt (setCl m x v) y = if y = x then v else clAt m y :=
  sget_sset m.clusters x y v

/-- A PrintSt record after a write of one. -/
@[simp] theorem prAt_setPr (m : Mod) (x y : Nat) (v : PrintSt) : prAt (setPr m x v) y = if y = x then v else prAt m y :=
  sget_sset m.prints x y v

/-- What a write of one module-state field cannot change: a read of another one. -/
@[simp] theorem coreAt_wr (m : Mod) (off : Nat) (v : W64) (c : Nat) : coreAt (wr m off v) c = coreAt m c := rfl
@[simp] theorem rd_setCore (m : Mod) (c : Nat) (v : CoreSt) (off : Nat) : rd (setCore m c v) off = rd m off := rfl
@[simp] theorem fld_setCore (m : Mod) (c : Nat) (v : CoreSt) (off hi lo : Nat) : fld (setCore m c v) off hi lo = fld m off hi lo := rfl
@[simp] theorem clAt_setCore (m : Mod) (c : Nat) (v : CoreSt) (k : Nat) : clAt (setCore m c v) k = clAt m k := rfl
@[simp] theorem clRolling_setCore (m : Mod) (c : Nat) (v : CoreSt) (k : Nat) : clRolling (setCore m c v) k = clRolling m k := rfl
@[simp] theorem fetchWord_setCore (m : Mod) (c : Nat) (v : CoreSt) (k pc : Nat) :
    fetchWord (setCore m c v) k pc = fetchWord m k pc := rfl
@[simp] theorem rd_bumpFree (m : Mod) (off : Nat) : rd (bumpFree m) off = rd m off := rfl
@[simp] theorem coreAt_bumpFree (m : Mod) (c : Nat) : coreAt (bumpFree m) c = coreAt m c := rfl
@[simp] theorem clRolling_bumpFree (m : Mod) (k : Nat) : clRolling (bumpFree m) k = clRolling m k := rfl

/-- Field reads after field writes of one register. -/
theorem fld_wr (m : Mod) (off off' hi lo : Nat) (v : W64) :
    fld (wr m off v) off' hi lo = if off' = off then bits v hi lo else fld m off' hi lo := by
  unfold fld; rw [rd_wr]; split <;> rfl

@[simp] theorem fld_setFld_ne (m : Mod) {off off' : Nat} (hi lo hi' lo' x : Nat) (h : off' ≠ off) :
    fld (setFld m off hi' lo' x) off' hi lo = fld m off' hi lo := by
  unfold setFld; rw [fld_wr]; simp [h]

@[simp] theorem rd_setFld_ne (m : Mod) {off off' : Nat} (hi lo x : Nat) (h : off' ≠ off) :
    rd (setFld m off hi lo x) off' = rd m off' := by
  unfold setFld; simp [h]

/-- The queue of a state is not touched by a change of its module or of its metrology unit. -/
@[simp] theorem onMod_pending (s : State) (f : Mod → Mod) : (s.onMod f).pending = s.pending := rfl
@[simp] theorem onMod_mdm (s : State) (f : Mod → Mod) : (s.onMod f).mdm = s.mdm := rfl
@[simp] theorem onMod_mod (s : State) (f : Mod → Mod) : (s.onMod f).mod = f s.mod := rfl
@[simp] theorem onMdm_pending (s : State) (f : Mdm → Mdm) : (s.onMdm f).pending = s.pending := rfl
@[simp] theorem onMdm_mod (s : State) (f : Mdm → Mdm) : (s.onMdm f).mod = s.mod := rfl
@[simp] theorem onMdm_mdm (s : State) (f : Mdm → Mdm) : (s.onMdm f).mdm = f s.mdm := rfl

end Sys2Proof.Machine
end

