-- ==== Sys2Proof/Laws/Core.lean ====
section
/-!
SUPPORT. What one issue cycle of a core can do, said once: the rows of the Octix instructions cite these lemmas and do not
unfold `issue`.
-/
namespace Sys2Proof.Machine

/-- The core of the cycle counts it; every other core is as it was. -/
@[simp] theorem coreAt_tick (m : Mod) (c : Nat) : coreAt (tick m c) c = cycled (coreAt m c) := by
  simp [tick, cycled, satAdd]

@[simp] theorem coreAt_tick_ne (m : Mod) {c k : Nat} (h : k ≠ c) : coreAt (tick m c) k = coreAt m k := by
  simp [tick, h]

/-- A cycle changes the core records and the counter of free values, nothing else. -/
theorem tick_eq (m : Mod) (c : Nat) : tick m c = { m with cores := (tick m c).cores, free := m.free + 1 } := rfl

@[simp] theorem rd_tick (m : Mod) (c off : Nat) : rd (tick m c) off = rd m off := rfl
@[simp] theorem fld_tick (m : Mod) (c off hi lo : Nat) : fld (tick m c) off hi lo = fld m off hi lo := rfl
@[simp] theorem clRolling_tick (m : Mod) (c k : Nat) : clRolling (tick m c) k = clRolling m k := rfl
@[simp] theorem fetchWord_tick (m : Mod) (c k pc : Nat) : fetchWord (tick m c) k pc = fetchWord m k pc := rfl

/-- What the cycle leaves of the core: everything but CORE_CYCLE. -/
@[simp] theorem rs_cycled (x : CoreSt) (r : SReg) : rs (cycled x) r = rs x r := rfl
@[simp] theorem rs32_cycled (x : CoreSt) (r : SReg) : rs32 (cycled x) r = rs32 x r := rfl
@[simp] theorem rp_cycled (x : CoreSt) (p : PReg) : rp (cycled x) p = rp x p := rfl
@[simp] theorem rv_cycled (x : CoreSt) (r : VReg) : rv (cycled x) r = rv x r := rfl
@[simp] theorem vLane_cycled (x : CoreSt) (r : VReg) (l : Nat) : vLane (cycled x) r l = vLane x r l := rfl
@[simp] theorem credit_cycled (x : CoreSt) (ch : Nat) : credit (cycled x) ch = credit x ch := rfl
@[simp] theorem genAddr_cycled (x : CoreSt) (g : Gen) : genAddr (cycled x) g = genAddr x g := rfl
@[simp] theorem baseAddr_cycled (x : CoreSt) (b : Base) : baseAddr (cycled x) b = baseAddr x b := by cases b <;> rfl
@[simp] theorem memAddr_cycled (x : CoreSt) (b : Base) (off : W32) : memAddr (cycled x) b off = memAddr x b off := by
  simp [memAddr]
@[simp] theorem regBusy_cycled (x : CoreSt) (ss : List SReg) (vs : List VReg) : regBusy (cycled x) ss vs = regBusy x ss vs := rfl
@[simp] theorem unitsIdle_cycled (x : CoreSt) : unitsIdle (cycled x) = unitsIdle x := rfl
@[simp] theorem stageABusy_cycled (c : Nat) (x : CoreSt) : stageABusy c (cycled x) = stageABusy c x := rfl
@[simp] theorem memBusy_cycled (c : Nat) (x : CoreSt) (r w : List (Nat × Nat)) : memBusy c (cycled x) r w = memBusy c x r w := rfl
@[simp] theorem unitBusy_cycled (c : Nat) (x : CoreSt) (r w : List (Nat × Nat)) :
    unitBusy c (cycled x) r w = unitBusy c x r w := rfl
@[simp] theorem moveBusy_cycled (c : Nat) (x : CoreSt) (q : MoveOp) : moveBusy c (cycled x) q = moveBusy c x q := rfl
@[simp] theorem accReadBusy_cycled (x : CoreSt) (ts : List Nat) : accReadBusy (cycled x) ts = accReadBusy x ts := rfl
@[simp] theorem accWriteBusy_cycled (x : CoreSt) (b : Bool) (ts : List Nat) :
    accWriteBusy (cycled x) b ts = accWriteBusy x b ts := rfl
@[simp] theorem cycled_fields (x : CoreSt) :
    (cycled x).pc = x.pc ∧ (cycled x).state = x.state ∧ (cycled x).loops = x.loops ∧ (cycled x).tq = x.tq ∧ (cycled x).vq = x.vq ∧
    (cycled x).mq = x.mq ∧ (cycled x).loads = x.loads ∧ (cycled x).wait = x.wait ∧ (cycled x).stageMap = x.stageMap ∧
    (cycled x).nIssued = x.nIssued ∧ (cycled x).slate = x.slate ∧ (cycled x).txM = x.txM ∧ (cycled x).txN = x.txN ∧
    (cycled x).txK = x.txK ∧ (cycled x).txH = x.txH := ⟨rfl, rfl, rfl, rfl, rfl, rfl, rfl, rfl, rfl, rfl, rfl, rfl, rfl, rfl, rfl⟩

/-- One issue cycle of a core that issues `o`, in a row that takes `o`. -/
theorem issue_issues {c : Nat} {m : Mod} {o : Octix} {eff : Octix → Option (Mod → Act)} {f : Mod → Act}
    (h : Issues m c o) (he : eff o = some f) : issue c eff m = applyAct c (tick m c) (f (tick m c)) := by
  obtain ⟨h1, h0, h2, h3, h4⟩ := h
  simp only [issue]
  rw [if_neg (by omega), if_neg (by simp [h0]), h2]
  simp only [Option.bind_some, he, h4, h3, if_true]
  rfl

/-- A row that does not take the word the core is at does nothing. -/
theorem issue_other {c : Nat} {m : Mod} {o : Octix} {eff : Octix → Option (Mod → Act)} (hb : fetchBad m c (coreAt m c).pc.toNat = false)
    (h : decodeOctix (fetchWord m c (coreAt m c).pc.toNat) = some o) (he : eff o = none) : issue c eff m = m := by
  simp only [issue, hb, h, Option.bind_some, he]
  split <;> rfl

/-- A word whose guard reads 0 occupies the cycle (R66). -/
theorem issue_guard {c : Nat} {m : Mod} {o : Octix} {eff : Octix → Option (Mod → Act)} {f : Mod → Act}
    (hp : (coreAt m c).pc.toNat ≤ 2047) (hb : fetchBad m c (coreAt m c).pc.toNat = false) (h : decodeOctix (fetchWord m c (coreAt m c).pc.toNat) = some o)
    (hg : guardFails (coreAt m c) (fetchWord m c (coreAt m c).pc.toNat) = true) (hi : mayIssue m c = true)
    (he : eff o = some f) :
    issue c eff m = setCore (tick m c) c (advance (cycled (coreAt m c))) := by
  simp only [issue]
  rw [if_neg (by omega), if_neg (by simp [hb]), h]
  simp only [Option.bind_some, he, hi, if_true, hg, applyAct, coreAt_tick]

/-- A fetch that meets an uncorrectable error raises fault 0x09 with the word index (R95, R436). -/
theorem issue_fetchBad {c : Nat} {m : Mod} {eff : Octix → Option (Mod → Act)} (hp : (coreAt m c).pc.toNat ≤ 2047)
    (hb : fetchBad m c (coreAt m c).pc.toNat = true) (hi : mayIssue m c = true) :
    issue c eff m = coreFault (tick m c) c 0x09 (coreAt m c).pc.toNat (coreAt m c).pc.toNat := by
  simp only [issue]
  rw [if_neg (by omega), if_pos hb, if_pos hi]

/-- The state after a step that set one core and counted the cycle. -/
theorem coreStep_set (s : State) (c : Nat) (x : CoreSt) :
    CoreStep s (s.onMod (fun m => setCore (tick m c) c x)) c x := by
  refine ⟨by simp, fun k hk => ?_, rfl⟩
  simp [hk]

/-- An instruction that only changes its core: the core after it. -/
theorem coreAct_step (s : State) {c : Nat} {f : CoreSt → CoreSt} {t : State}
    (ht : t = { s with mod := applyAct c (tick s.mod c) (coreAct c f (tick s.mod c)) }) :
    CoreStep s t c (advance (f (cycled (coreAt s.mod c)))) := by
  subst ht
  refine ⟨by simp [coreAct, applyAct], fun k hk => ?_, rfl⟩
  simp [coreAct, applyAct, hk]

/-- A row whose instruction only changes its core, the instruction issuing. -/
theorem row_coreAct {s : State} {c : Nat} {o : Octix} {eff : Octix → Option (Mod → Act)} {f : CoreSt → CoreSt}
    (h : Issues s.mod c o) (he : ∃ g, eff o = some g ∧ g (tick s.mod c) = coreAct c f (tick s.mod c)) :
    ∃ t, Host.Outcome.next (φ := Fault) (ρ := Refusal) (s.onMod (issue c eff)) = .next t ∧
      CoreStep s t c (advance (f (cycled (coreAt s.mod c)))) := by
  obtain ⟨g, hg, hf⟩ := he
  refine ⟨_, rfl, coreAct_step s ?_⟩
  simp only [State.onMod, issue_issues h hg, hf]

end Sys2Proof.Machine
end

