-- ==== Sys2Proof/Laws/Memory.lean ====
section
/-!
SUPPORT. The memories keep their canonical form under every operation that writes one, and a read after a write gives the
byte written and every other byte as before.
-/
namespace Sys2Proof.Machine

theorem Memory.wf_sset {mem : Sparse Byte} (k : Nat) (b : Byte) (h : Memory.wf mem = true) :
    Memory.wf (sset memDefault mem k b) = true := sset_wf k b h

theorem Memory.wf_sclear {mem : Sparse Byte} (lo n : Nat) (h : Memory.wf mem = true) :
    Memory.wf (sclear mem lo n) = true := sclear_wf lo n h

theorem Memory.wf_filter {mem : Sparse Byte} (f : Nat × Byte → Bool) (h : Memory.wf mem = true) :
    Memory.wf (mem.filter f) = true := sparseWf_filter f h

theorem Memory.wf_writeList {mem : Sparse Byte} (a : Nat) (bs : List Byte) (h : Memory.wf mem = true) :
    Memory.wf (writeList mem a bs) = true := by
  induction bs generalizing mem a with
  | nil => exact h
  | cons b bs ih => exact ih (a + 1) (Memory.wf_sset a b h)

theorem reset_memWf : Mod.reset.memWf := ⟨rfl, rfl, rfl⟩

/-- Marking a pinned granule changes no memory. -/
@[simp] theorem markWritten_memories (m : Mod) (a : Nat) :
    (markWritten m a).mem = m.mem ∧ (markWritten m a).lmem = m.lmem ∧ (markWritten m a).imem = m.imem := by
  unfold markWritten; split <;> (try split) <;> simp

theorem memPut_wf {m : Mod} (a : Nat) (b : Byte) (h : m.memWf) : (memPut m a b).memWf := by
  simpa [memPut, Mod.memWf] using ⟨Memory.wf_sset _ b h.1, h.2⟩

theorem memWrite_wf {m : Mod} (a : Nat) (bs : List Byte) (h : m.memWf) : (memWrite m a bs).memWf := by
  induction bs generalizing m a with
  | nil => exact h
  | cons b bs ih => exact ih (a + 1) (memPut_wf a b h)

theorem carvePut_wf {m : Mod} (base k : Nat) (b : Byte) (h : m.memWf) : (carvePut m base k b).memWf := by
  unfold carvePut
  generalize (natsFrom base 2048).map (Config.carveByte m.free) = bs
  dsimp only
  split
  · exact ⟨Memory.wf_writeList _ _ h.1, h.2⟩
  · split
    · exact h
    · exact ⟨Memory.wf_sset k b h.1, h.2⟩

theorem keyPut_wf {m : Mod} (k : Nat) (b : Byte) (h : m.memWf) : (keyPut m k b).memWf := by
  unfold keyPut
  split_ifs
  · exact ⟨h.1, Memory.wf_sset k b h.2.1, h.2.2⟩
  · cases carveSlot m k with
    | some base => exact carvePut_wf base k b h
    | none => exact ⟨Memory.wf_sset k b h.1, h.2⟩

theorem coreWrite_wf {m : Mod} (c : Nat) (map : Bool) (a : Nat) (bs : List Byte) (h : m.memWf) :
    (coreWrite m c map a bs).memWf := by
  induction bs generalizing m a with
  | nil => exact h
  | cons b bs ih => exact ih (a + 1) (keyPut_wf _ b h)

theorem vaWrite_wf {m m' : Mod} (x va : Nat) (bs : List Byte) (h : m.memWf) (hw : vaWrite m x va bs = .ok m') :
    m'.memWf := by
  induction bs generalizing m va with
  | nil => cases hw; exact h
  | cons b bs ih =>
    simp only [vaWrite] at hw
    split at hw
    · cases hw
    · exact ih (va + 1) (memPut_wf _ b h) hw

/-- A byte of a list of bytes written from a key upward. -/
theorem sget_writeList (mem : Sparse Byte) (a : Nat) (bs : List Byte) (k : Nat) :
    sget memDefault (writeList mem a bs) k =
      if a ≤ k ∧ k < a + bs.length then bs.getD (k - a) 0 else sget memDefault mem k := by
  induction bs generalizing mem a with
  | nil => simp only [writeList, List.length_nil, Nat.add_zero]; rw [if_neg (by omega)]
  | cons b bs ih =>
    simp only [writeList, List.length_cons]
    rw [ih, sget_sset]
    by_cases h1 : k = a
    · subst h1; rw [if_neg (by omega), if_pos rfl, if_pos (by omega)]; simp
    · by_cases h2 : a + 1 ≤ k ∧ k < a + 1 + bs.length
      · rw [if_pos h2, if_pos (by omega), show k - a = (k - (a + 1)) + 1 by omega]; simp
      · rw [if_neg h2, if_neg h1, if_neg (by omega)]

/-- What was written is read. -/
theorem readList_writeList (mem : Sparse Byte) (a : Nat) (bs : List Byte) :
    readList (writeList mem a bs) a bs.length = bs := by
  have key : ∀ (n a' : Nat) (cs : List Byte) (mm : Sparse Byte), cs.length = n →
      (∀ i, i < n → sget memDefault mm (a' + i) = cs.getD i 0) → readList mm a' n = cs := by
    intro n
    induction n with
    | zero => intro a' cs mm hl _; simp [readList, List.length_eq_zero_iff.mp hl]
    | succ n ih =>
      intro a' cs mm hl hg
      cases cs with
      | nil => simp at hl
      | cons c cs =>
        simp only [readList, List.cons.injEq]
        refine ⟨by simpa using hg 0 (by omega), ih (a' + 1) cs mm (by simpa using hl) (fun i hi => ?_)⟩
        have := hg (i + 1) (by omega)
        rw [show a' + 1 + i = a' + (i + 1) by omega, this]; simp
  refine key bs.length a bs _ rfl (fun i hi => ?_)
  rw [sget_writeList, if_pos (by omega)]
  congr 1; omega

end Sys2Proof.Machine
end

