-- ==== Sys2Proof/Laws/Rows.lean ====
section
/-!
SUPPORT. One lemma per shared row of the Octix instructions: the state after the row when the instruction issues.
-/
namespace Sys2Proof.Machine

/-- An instruction of `regAct` form whose registers are available. -/
theorem row_regAct {s : State} {c : Nat} {o : Octix} {eff : Octix → Option (Mod → Act)} {ss : List SReg} {vs : List VReg}
    {f : CoreSt → CoreSt} (h : IssuesFree s.mod c o ss vs) (he : eff o = some (regAct c ss vs f)) :
    CoreStep s (s.onMod (issue c eff)) c (advance (f (cycled (coreAt s.mod c)))) := by
  refine coreAct_step s ?_
  simp only [State.onMod, issue_issues h.1 he, regAct, coreAt_tick, regBusy_cycled, h.2]
  rfl

/-- An instruction of `coreAct` form. -/
theorem row_plain {s : State} {c : Nat} {o : Octix} {eff : Octix → Option (Mod → Act)} {f : CoreSt → CoreSt}
    (h : Issues s.mod c o) (he : eff o = some (coreAct c f)) :
    CoreStep s (s.onMod (issue c eff)) c (advance (f (cycled (coreAt s.mod c)))) := by
  refine coreAct_step s ?_
  simp only [State.onMod, issue_issues h he]

theorem aluRow_step {s : State} {c : Nat} {op : AluOp} {d a b : SReg}
    (h : IssuesFree s.mod c (.alu op d a b) [d, a, b] []) :
    CoreStep s (s.onMod (aluRow c op)) c
      (advance (setS (cycled (coreAt s.mod c)) d (aluOp op (rs (coreAt s.mod c) a) (rs (coreAt s.mod c) b)))) := by
  unfold aluRow
  exact row_regAct (f := fun x => setS x d (aluOp op (rs x a) (rs x b))) h (if_pos rfl)

theorem aluIRow_step {s : State} {c : Nat} {op : AluOp} {d a : SReg} {imm : W32}
    (h : IssuesFree s.mod c (.aluI op d a imm) [d, a] []) :
    CoreStep s (s.onMod (aluIRow c op)) c
      (advance (setS (cycled (coreAt s.mod c)) d (aluOp op (rs (coreAt s.mod c) a) (sext32 imm.toNat)))) := by
  unfold aluIRow
  exact row_regAct (f := fun x => setS x d (aluOp op (rs x a) (sext32 imm.toNat))) h (if_pos rfl)

theorem movRow_step {s : State} {c : Nat} {op : MovOp} {d : SReg} {imm : W32} (h : IssuesFree s.mod c (.mov op d imm) [d] []) :
    CoreStep s (s.onMod (movRow c op)) c
      (advance (setS (cycled (coreAt s.mod c)) d (movOp op (rs (coreAt s.mod c) d) imm))) := by
  unfold movRow
  exact row_regAct (f := fun x => setS x d (movOp op (rs x d) imm)) h (if_pos rfl)

theorem countRow_step {s : State} {c : Nat} {op : CountOp} {d a : SReg} (h : IssuesFree s.mod c (.count op d a) [d, a] []) :
    CoreStep s (s.onMod (countRow c op)) c
      (advance (setS (cycled (coreAt s.mod c)) d (countOp op (rs (coreAt s.mod c) a)))) := by
  unfold countRow
  exact row_regAct (f := fun x => setS x d (countOp op (rs x a))) h (if_pos rfl)

theorem selRow_step {s : State} {c : Nat} {d a b : SReg} {q : PReg} (h : IssuesFree s.mod c (.sel d q a b) [d, a, b] []) :
    CoreStep s (s.onMod (selRow c)) c (advance (setS (cycled (coreAt s.mod c)) d
      (if rp (coreAt s.mod c) q then rs (coreAt s.mod c) a else rs (coreAt s.mod c) b))) := by
  unfold selRow
  exact row_regAct (f := fun x => setS x d (if rp x q then rs x a else rs x b)) h rfl

theorem cmpRow_step {s : State} {c : Nat} {op : CmpOp} {pd : PReg} {a b : SReg}
    (h : IssuesFree s.mod c (.cmp op pd a b) [a, b] []) :
    CoreStep s (s.onMod (cmpRow c op)) c
      (advance (setP (cycled (coreAt s.mod c)) pd (cmpHolds op (rs (coreAt s.mod c) a) (rs (coreAt s.mod c) b)))) := by
  unfold cmpRow
  exact row_regAct (f := fun x => setP x pd (cmpHolds op (rs x a) (rs x b))) h (if_pos rfl)

theorem cmpIRow_step {s : State} {c : Nat} {op : CmpOp} {pd : PReg} {a : SReg} {imm : W32}
    (h : IssuesFree s.mod c (.cmpI op pd a imm) [a] []) :
    CoreStep s (s.onMod (cmpIRow c op)) c
      (advance (setP (cycled (coreAt s.mod c)) pd (cmpHolds op (rs (coreAt s.mod c) a) (sext32 imm.toNat)))) := by
  unfold cmpIRow
  exact row_regAct (f := fun x => setP x pd (cmpHolds op (rs x a) (sext32 imm.toNat))) h (if_pos rfl)

theorem predRow_step {s : State} {c : Nat} {op : PredOp} {pd pa pb : PReg} (h : Issues s.mod c (.pred op pd pa pb)) :
    CoreStep s (s.onMod (predRow c op)) c
      (advance (setP (cycled (coreAt s.mod c)) pd (predOp op (rp (coreAt s.mod c) pa) (rp (coreAt s.mod c) pb)))) := by
  unfold predRow
  exact row_plain (f := fun x => setP x pd (predOp op (rp x pa) (rp x pb))) h (if_pos rfl)

theorem pnotRow_step {s : State} {c : Nat} {pd pa : PReg} (h : Issues s.mod c (.pnot pd pa)) :
    CoreStep s (s.onMod (pnotRow c)) c
      (advance (setP (cycled (coreAt s.mod c)) pd (!rp (coreAt s.mod c) pa))) := by
  unfold pnotRow
  exact row_plain (f := fun x => setP x pd (!rp x pa)) h rfl

theorem vextRow_step {s : State} {c : Nat} {d : SReg} {a : VReg} {lane : SReg} (h : IssuesFree s.mod c (.vext d a lane) [d] [a]) :
    CoreStep s (s.onMod (vextRow c)) c
      (advance (setS (cycled (coreAt s.mod c)) d (BitVec.ofNat 64 (vLane (coreAt s.mod c) a lane.val).toNat))) := by
  unfold vextRow
  exact row_regAct (f := fun x => setS x d (BitVec.ofNat 64 (vLane x a lane.val).toNat)) h rfl

theorem vinsRow_step {s : State} {c : Nat} {d : VReg} {a lane : SReg} (h : IssuesFree s.mod c (.vins d a lane) [a] [d]) :
    CoreStep s (s.onMod (vinsRow c)) c
      (advance (setLane (cycled (coreAt s.mod c)) d lane.val (rs32 (coreAt s.mod c) a))) := by
  unfold vinsRow
  exact row_regAct (f := fun x => setLane x d lane.val (rs32 x a)) h rfl

theorem vbcastRow_step {s : State} {c : Nat} {d : VReg} {a : SReg} (h : IssuesFree s.mod c (.vbcast d a) [a] [d]) :
    CoreStep s (s.onMod (vbcastRow c)) c
      (advance (setLanes (cycled (coreAt s.mod c)) d 0 (List.replicate 32 (rs32 (coreAt s.mod c) a)))) := by
  unfold vbcastRow
  exact row_regAct (f := fun x => setLanes x d 0 (List.replicate 32 (rs32 x a))) h rfl

theorem tsethRow_step {s : State} {c : Nat} {b : Bool} (h : Issues s.mod c (.tseth b)) :
    CoreStep s (s.onMod (tsethRow c)) c (advance { cycled (coreAt s.mod c) with txH := if b then 32 else 16 }) := by
  unfold tsethRow
  exact row_plain (f := fun x => { x with txH := if b then 32 else 16 }) h rfl

end Sys2Proof.Machine
end

