-- ==== Sys2Proof/Laws/CoreMem.lean ====
section
/-!
SUPPORT. The bytes a core reads and writes: what a write through a core address changes in the local store and in the cluster
store, and that it changes nothing else.
-/
namespace Sys2Proof.Machine

theorem nearBase_le (k : Nat) : nearBase ≤ nearAddr k := by simp [nearAddr, nearBase]; omega

/-- A local-store key of a core of the module lies below every module address of a cluster store. -/
theorem coreKey_local_lt {c a : Nat} (map : Bool) (hc : c < 80000) (ha : a < lsTop) : coreKey c map a < nearBase := by
  have h1 : (a + 0x10000) % lsTop < lsTop := Nat.mod_lt _ (by decide)
  rw [coreKey, if_pos ha]
  simp only [lsTop, nearBase] at *
  cases map <;> simp <;> omega

/-- Distinct local-store addresses of a core have distinct keys. -/
theorem coreKey_local_inj {c a b : Nat} (map : Bool) (ha : a < lsTop) (hb : b < lsTop) (h : coreKey c map a = coreKey c map b) :
    a = b := by
  simp only [coreKey, if_pos ha, if_pos hb] at h
  cases map <;> simp [lsTop] at * <;> omega

/-- A cluster-store address of a core. -/
theorem coreKey_cluster {c a : Nat} (map : Bool) (ha : coreCs ≤ a) : coreKey c map a = nearAddr (clusterOf c) + (a - coreCs) := by
  have : ¬ a < lsTop := by simp [coreCs, lsTop] at *; omega
  simp only [coreKey, if_neg this]

theorem keyPut_local {m : Mod} {k : Nat} (b : Byte) (h : k < nearBase) :
    keyPut m k b = { m with lmem := sset memDefault m.lmem k b, ecc := eccDrop m.ecc 0 k } := by
  unfold keyPut; exact if_pos h

theorem keyPut_cluster {m : Mod} {k : Nat} (b : Byte) (h : nearBase ≤ k) (hs : carveSlot m k = none) :
    keyPut m k b = { m with mem := sset memDefault m.mem k b, ecc := eccDrop m.ecc 2 k } := by
  unfold keyPut
  rw [if_neg (by omega), hs]

/-- After a byte is written, only its own mark is gone. -/
theorem eccAt_drop {m m' : Mod} {st k u j : Nat} (h : m'.ecc = eccDrop m.ecc st k) (hs : st < 4) (hu : u < 4) :
    eccAt m' u j = if u = st ∧ j = k then false else eccAt m u j := by
  simp only [eccAt, h, eccDrop]
  split
  · next e => obtain ⟨rfl, rfl⟩ := e; exact sget_sset_self _ _ _
  · next e => exact sget_sset_ne _ _ (by omega)

/-- Marks freed for one byte and then for the others of a range. -/
theorem EccFreed.cons {m m1 m' : Mod} {st k n : Nat} {f : Nat → Nat} (hs : st < 4) (h1 : m1.ecc = eccDrop m.ecc st k) (hk : k = f 0)
    (h : EccFreed m1 m' st (fun j => ∃ i, i < n ∧ j = f (i + 1))) : EccFreed m m' st (fun j => ∃ i, i < n + 1 ∧ j = f i) := by
  intro u j hu
  obtain ⟨ha, hb⟩ := h u j hu
  by_cases hi : u = st ∧ ∃ i, i < n ∧ j = f (i + 1)
  · obtain ⟨hu', i, hi, rfl⟩ := hi
    exact ⟨fun _ => ha ⟨hu', i, hi, rfl⟩, fun hn => absurd ⟨hu', i + 1, by omega, rfl⟩ hn⟩
  · rw [hb hi, eccAt_drop h1 hs hu]
    refine ⟨fun ⟨e, i, hin, hj⟩ => ?_, fun hn => if_neg (fun e => hn ⟨e.1, 0, by omega, e.2.trans hk⟩)⟩
    cases i with
    | zero => exact if_pos ⟨e, hj.trans hk.symm⟩
    | succ i => exact absurd ⟨e, i, by omega, hj⟩ hi

theorem EccFreed.none (m : Mod) (st : Nat) (f : Nat → Nat) : EccFreed m m st (fun j => ∃ i, i < 0 ∧ j = f i) :=
  fun _ _ _ => ⟨fun h => absurd h.2.choose_spec.1 (Nat.not_lt_zero _), fun _ => rfl⟩

theorem keyByte_local {m : Mod} {k : Nat} (h : k < nearBase) : keyByte m k = sget memDefault m.lmem k := by
  unfold keyByte; exact if_pos h

theorem keyByte_cluster {m : Mod} {k : Nat} (h : nearBase ≤ k) (hs : carveSlot m k = none) :
    keyByte m k = sget memDefault m.mem k := by
  unfold keyByte
  rw [if_neg (by omega), hs]

/-- Bytes written into the local store: the module after it, up to the new store. -/
theorem coreWrite_local {m : Mod} {c a : Nat} (map : Bool) (bs : List Byte) (hc : c < 80000) (h : InLocal a bs.length) :
    ∃ l e, coreWrite m c map a bs = { m with lmem := l, ecc := e } ∧ LocalWrite m { m with lmem := l, ecc := e } c map a bs := by
  induction bs generalizing m a with
  | nil => exact ⟨m.lmem, m.ecc, rfl, by simp, by simp, rfl, rfl, EccFreed.none m 0 (fun i => coreKey c map (a + i))⟩
  | cons b bs ih =>
    simp only [InLocal, List.length_cons] at h
    have ha : a < lsTop := by omega
    obtain ⟨l, e, hl, h1, h2, -, -, h3⟩ := ih (m := keyPut m (coreKey c map a) b) (a := a + 1) (by simp [InLocal]; omega)
    rw [keyPut_local b (coreKey_local_lt map hc ha)] at hl h2 h3
    refine ⟨l, e, ?_, ?_, ?_, rfl, rfl, EccFreed.cons (f := fun i => coreKey c map (a + i)) (by omega) rfl rfl
      (by simpa only [Nat.add_assoc, Nat.add_comm 1] using h3)⟩
    · rw [coreWrite, keyPut_local b (coreKey_local_lt map hc ha), hl]
    · intro i hi
      cases i with
      | zero =>
        have hk := h2 (coreKey c map a) (fun i hi he => by
          have := coreKey_local_inj map ha (by omega) he; omega)
        simpa using hk
      | succ i =>
        have := h1 i (by simpa using hi)
        rw [show a + (i + 1) = a + 1 + i by omega]; simpa using this
    · intro k hk
      have := h2 k (fun i hi => by rw [show a + 1 + i = a + (i + 1) by omega]; exact hk (i + 1) (by simpa using hi))
      simp only [this]
      exact sget_sset_ne _ _ (by simpa using hk 0 (by simp))

/-- Carve-out slots are found from the pins and the carve-out registers alone. -/
theorem carveSlot_mem (m : Mod) (mem : Sparse Byte) (ecc : Sparse Bool) (k : Nat) :
    carveSlot { m with mem := mem, ecc := ecc } k = carveSlot m k := rfl

/-- Bytes written into the cluster store, outside the carve-out slots in use. -/
theorem coreWrite_cluster {m : Mod} {c a : Nat} (map : Bool) (bs : List Byte) (h : InCluster m c a bs.length) :
    ∃ l e, coreWrite m c map a bs = { m with mem := l, ecc := e } ∧ ClusterWrite m { m with mem := l, ecc := e } c a bs := by
  induction bs generalizing m a with
  | nil => exact ⟨m.mem, m.ecc, rfl, by simp, by simp, rfl, rfl,
      EccFreed.none m 2 (fun i => nearAddr (clusterOf c) + (a + i - coreCs))⟩
  | cons b bs ih =>
    obtain ⟨ha, hb, hs⟩ := h
    simp only [List.length_cons] at hb hs
    have hk : keyPut m (coreKey c map a) b =
        { m with mem := sset memDefault m.mem (coreKey c map a) b, ecc := eccDrop m.ecc 2 (coreKey c map a) } := by
      rw [coreKey_cluster map ha]
      exact keyPut_cluster b (le_trans (nearBase_le _) (Nat.le_add_right _ _)) (by simpa using hs 0 (by simp))
    obtain ⟨l, e, hl, h1, h2, -, -, h3⟩ := ih (m := keyPut m (coreKey c map a) b) (a := a + 1) (by
      refine ⟨by omega, by omega, fun i hi => ?_⟩
      rw [hk, carveSlot_mem]
      have := hs (i + 1) (by omega)
      rwa [show a + 1 + i = a + (i + 1) by omega])
    rw [hk] at hl h2 h3
    refine ⟨l, e, ?_, ?_, ?_, rfl, rfl, EccFreed.cons (f := fun i => nearAddr (clusterOf c) + (a + i - coreCs)) (by omega) rfl
      (coreKey_cluster map ha) (by simpa only [Nat.add_assoc, Nat.add_comm 1] using h3)⟩
    · rw [coreWrite, hk, hl]
    · intro i hi
      cases i with
      | zero =>
        have hz := h2 (coreKey c map a) (fun i hi he => by rw [coreKey_cluster map ha] at he; omega)
        simp only [coreKey_cluster map ha] at hz ⊢
        simpa using hz
      | succ i =>
        have := h1 i (by simpa using hi)
        rw [show a + (i + 1) = a + 1 + i by omega]; simpa using this
    · intro k hk'
      have := h2 k (fun i hi => by rw [show a + 1 + i = a + (i + 1) by omega]; exact hk' (i + 1) (by simpa using hi))
      simp only [this]
      exact sget_sset_ne _ _ (by rw [coreKey_cluster map ha]; simpa using hk' 0 (by simp))

theorem coreRead_local {m : Mod} {c a n : Nat} (map : Bool) (hc : c < 80000) (h : InLocal a n) :
    coreRead m c map a n = localBytes m c map a n := by
  induction n generalizing a with
  | zero => rfl
  | succ n ih =>
    simp only [InLocal] at h
    rw [coreRead, ih (by simp [InLocal]; omega), keyByte_local (coreKey_local_lt map hc (by omega))]
    simp only [localBytes, List.range_succ_eq_map, List.map_cons, List.map_map, Nat.add_zero]
    congr 1
    apply List.map_congr_left
    intro i _; simp [Nat.add_comm, Nat.add_left_comm]

theorem coreRead_cluster {m : Mod} {c a n : Nat} (map : Bool) (h : InCluster m c a n) :
    coreRead m c map a n = clusterBytes m c a n := by
  induction n generalizing a with
  | zero => rfl
  | succ n ih =>
    obtain ⟨ha, hb, hs⟩ := h
    rw [coreRead, ih ⟨by omega, by omega, fun i hi => by have := hs (i + 1) (by omega); rwa [show a + 1 + i = a + (i + 1) by omega]⟩,
      coreKey_cluster map ha,
      keyByte_cluster (le_trans (nearBase_le _) (Nat.le_add_right _ _)) (by simpa using hs 0 (by simp))]
    simp only [clusterBytes, List.range_succ_eq_map, List.map_cons, List.map_map, Nat.add_zero]
    refine List.cons_eq_cons.mpr ⟨rfl, List.map_congr_left (fun i _ => ?_)⟩
    rw [Function.comp_apply, show a + i.succ = a + 1 + i by omega]

end Sys2Proof.Machine
end

