-- ==== Sys2Proof/Laws/RegMap.lean ====
section
/-!
SUPPORT. The register map: the offsets of a cluster's block as numbers, and the registers at them. Offsets are compared with omega after
these equations; unfolding the definitions in a goal makes the kernel compute with large literals.
-/
namespace Sys2Proof.Laws
open Sys2Proof Sys2Proof.Machine

/-- The base of a die's block. -/
theorem dieBase_eq (d : Nat) : dieBase d = 0x01000000 + d * 0x100000 := by rw [dieBase]
/-- The base of a cluster's block, by its die. -/
theorem clBase_die (k : Nat) : clBase k = dieBase (k / 625) + k % 625 * 0x400 := by rw [clBase]
/-- The base of a cluster's block. -/
theorem clBase_eq (k : Nat) : clBase k = 0x01000000 + k / 625 * 0x100000 + k % 625 * 0x400 := by rw [clBase_die, dieBase_eq]
/-- The base of a channel's registers. -/
theorem chBase_eq (k ch : Nat) : chBase k ch = clBase k + 0x30 * ch := by rw [chBase]
/-- DOLLY_CH_STAT. -/
theorem rChStat_eq (k ch : Nat) : rChStat k ch = clBase k + 0x30 * ch + 8 := by rw [rChStat, chBase_eq]

/-- No arbiter block lies in a cluster's block. -/
theorem arbOfOffset_cluster (off : Nat) (h : off % 0x100000 < 625 * 0x400) (h1 : 0x01000000 ≤ off) (h2 : off < 0x01800000) :
    arbOfOffset off = none := by
  unfold arbOfOffset
  rw [if_pos ⟨h1, h2⟩]
  exact if_neg (by omega)

/-- The registers of the dies' cluster blocks. -/
theorem regInfo_cluster (off : Nat) (h : off % 0x100000 < 625 * 0x400) (h1 : 0x01000000 ≤ off) (h2 : off < 0x01800000) :
    regInfo off = clusterReg (off % 0x400) := by
  unfold regInfo
  simp only [arbOfOffset_cluster off h h1 h2]
  iterate 13 rw [if_neg (by omega)]
  exact (if_pos ⟨h1, h2⟩).trans (if_pos h)

/-- A register of a cluster's block. -/
theorem regInfo_clBase (k o : Nat) (hk : k < 5000) (ho : o < 0x400) : regInfo (clBase k + o) = clusterReg o := by
  have e : clBase k + o = (k % 625 * 0x400 + o) + (16 + k / 625) * 0x100000 := by rw [clBase_eq]; omega
  have h1 : k / 625 < 8 := by omega
  have h2 : k % 625 < 625 := by omega
  have m : (clBase k + o) % 0x100000 = k % 625 * 0x400 + o := by
    rw [e, Nat.add_mul_mod_self_right]; exact Nat.mod_eq_of_lt (by omega)
  have m2 : (clBase k + o) % 0x400 = o := by rw [clBase_eq]; omega
  rw [regInfo_cluster _ (by omega) (by omega) (by omega), m2]

/-- DOLLY_CH_STAT resets to 0. -/
theorem clusterReg_chStat (ch : Nat) (h : ch < 16) : (clusterReg (0x30 * ch + 8)).map (·.reset) = some 0 := by
  unfold clusterReg
  rw [if_pos (by omega), show (0x30 * ch + 8) % 0x30 = 8 by omega]
  rfl


/-- DOLLY_CH_STAT, by its offset in its cluster's block. -/
theorem rChStat_block (k ch : Nat) : rChStat k ch = clBase k + (0x30 * ch + 8) := by rw [rChStat_eq, Nat.add_assoc]

/-- The register at DOLLY_CH_STAT. -/
theorem regInfo_chStat (k ch : Nat) (hk : k < 5000) (hc : ch < 16) : regInfo (rChStat k ch) = clusterReg (0x30 * ch + 8) := by
  rw [rChStat_block]; exact regInfo_clBase k _ hk (by omega)

/-- The reset value of a register of the map. -/
theorem regReset_of (o n : Nat) (h : (regInfo o).map (·.reset) = some n) : regReset o = BitVec.ofNat 64 n := by
  unfold regReset
  cases hr : regInfo o with
  | none => rw [hr] at h; cases h
  | some r => rw [hr] at h; show BitVec.ofNat 64 r.reset = _; rw [show r.reset = n from Option.some.inj h]

/-- The reset value is in the map. -/
theorem regInfo_chStat_reset (k ch : Nat) (hk : k < 5000) (hc : ch < 16) : (regInfo (rChStat k ch)).map (·.reset) = some 0 := by
  rw [regInfo_chStat k ch hk hc]; exact clusterReg_chStat ch hc

/-- Every channel is Off at reset. -/
theorem chStat_reset (k ch : Nat) (hk : k < 5000) (hc : ch < 16) : regReset (rChStat k ch) = 0 :=
  regReset_of _ 0 (regInfo_chStat_reset k ch hk hc)

end Sys2Proof.Laws
end

