-- ==== Sys2Proof/WellFormed.lean ====
section
/-!
DEFINITION. What makes a command well formed: its operands lie in the ranges that the spec gives their fields. The meanings take
every operand; a statement may ask for a well-formed one.
-/
namespace Sys2Proof

/-- Control space is 64 MiB (Table 14.4), the doorbell pages of BAR2 stand after it (log 33), and an access has 1 to 8 bytes. -/
def accessOk (top off size : Nat) : Bool := decide (off < top) && decide (1 ≤ size) && decide (size ≤ 8)

/-- A BAR4 access lies in the window of its function (Table 14.4) and has at least one byte. -/
def windowOk (fn : Fn) (off len : Nat) : Bool :=
  decide (1 ≤ len) && decide (off + len ≤ (match fn with | .pf => 2 ^ 40 | .vf _ => 2 ^ 37))

/-- Requesters of an arbiter (Table 10.1). -/
def requesters : ArbId → Nat
  | .store _ _ => 18
  | .mesh _ _ => 5
  | .block b _ => if b.val < 56 then (if b.val % 7 < 2 then 10 else if b.val % 7 < 6 then 7 else 5)
                  else if b.val < 63 then 4 else 13

/-- A request names a requester of its arbiter and has at least one beat. -/
def requestOk (a : ArbId) (r : ArbReq) : Bool := decide (r.rq < requesters a) && decide (1 ≤ r.beats)

/-- A head flit has eight words (Table 12.3), and the body is in whole flits. -/
def messageOk (h : Head) (body : List Byte) : Bool := h.length == 8 && body.length % 64 == 0

/-- A record's branches are numbered 0 to 3. -/
def contributionOk (x : Contribution) : Bool := x.branches.all (fun b => decide (b.b < 4))

/-- The operands of a command are in range. -/
def wellFormed : Instr → Bool
  | .registerWrite _ off size _ | .registerRead _ off size => accessOk 0x5000000 off size
  | .blockLatchRead _ off size => accessOk 0x4000000 off size
  | .dlyStrConfigWrite _ _ off size _ => accessOk 0x100 off size
  | .mctpReadRegister off => decide (off < 0x4000000) && off % 4 == 0
  | .bar4Read fn off len => windowOk fn off len
  | .bar4Write fn off data => windowOk fn off data.length
  | .granuleOwnerWrite _ far g _ | .granuleZeroDone far g => far || decide (g.val < 768)
  | .clRungRequest _ _ req => decide (1 ≤ req.toNat % 8) && decide (req.toNat % 8 ≤ 5)
  | .printEnableWrite _ _ val | .dlyStrEnable _ _ val => val.toNat.testBit 0
  | .dlyStrDisable _ _ val => !val.toNat.testBit 0
  | .memFarCfgLock _ val => val.toNat.testBit 31
  | .arbDecision a _ ready => ready.all (requestOk a)
  | .arbPreempt a req _ => requestOk a req
  | .arbCancel a r _ ready => decide (r.rq < requesters a) && ready.all (requestOk a)
  | .arbStarveTimeout a r _ => decide (r < requesters a)
  | .reelSegment _ h data => messageOk h data
  | .messageRoute _ h body => messageOk h body
  | .linkFrame _ bytes => bytes.length == 1344
  | .linkTrainDone _ lanes _ _ => decide (lanes ≤ 16)
  | .exchangeRows _ h rows _ => decide (h.src < 32768) && rows.length % 64 == 0
  | .bulkCopyData _ _ _ _ _ data => data.length % 64 == 0 && decide (data.length ≤ 65536)
  | .contribution _ _ x => contributionOk x
  | .censusReply _ _ _ _ ms | .newGroup _ _ _ ms => ms.all (fun x => decide (x < 32768))
  | .hbmPatrolBurst _ line ce ue => decide (line < 2 ^ 30) && (ce ++ ue).all (fun l => decide (line ≤ l) && decide (l < line + 64))
  | .wearTick temps hbm _ => temps.length == 8 && hbm.length == 16
  | .bootReady _ _ _ defects => decide (defects.length ≤ 4096)
  | .telemEvent e | .alarmRaise e => decide (e.src.toNat / 16 ≤ 8)
  | .meterFrame bytes _ => bytes.length == 192
  | .nvmeInitDone _ _ n _ _ _ _ => decide (n.pairs ≤ 65536) && decide (n.depth ≤ 65536)
  | _ => true

end Sys2Proof
end

