-- ==== Sys2Proof/Tests/Slice0.lean ====
section
/-!
SUPPORT. The model's own tests: well-formedness refuses an ill-formed term for each check; words written out from the spec's encoding
decode to the instruction they stand for; small effects; and, for every statement with hypotheses, concrete states and operands that
meet them, each clause at a boundary of its range.
-/
namespace Sys2Proof.Tests
open Sys2Proof Sys2Proof.Machine
set_option Elab.async false

/-- A powered module at Ready. -/
def readyMod : Mod :=
  wrN { Mod.reset with boot := { BootSt.reset with house := true, input := true, dies := true } } rBootStat (2 * 2 ^ 28)

/-- The state with that module. -/
def s0 : State := { State.reset with mod := readyMod }

/-- Registers of it at other values. -/
def regs (l : List (Nat × Nat)) : State := s0.onMod (fun m => l.foldl (fun m e => wrN m e.1 e.2) m)

/-- Core 0 Running with a record, its cluster at Rolling, and the word of an instruction at word 0, under a guard. -/
def at0 (o : Octix) (x : CoreSt) (g : Option PReg := none) : State :=
  s0.onMod (fun m => { setCore (wrN m (rGafClStat 0) 0) 0 { x with state := .running } with
    imem := writeList [] 0 (leBytes 8 (encodeWord g o).toNat) })

/-- A module whose partition 1 is Active with bay 0 and whose core 0 is so too. -/
def inPart (s : State) : State := s.onMod (fun m => wrN (wrN m (rPartStat 1) (2 * 2 ^ 28)) (rPartBays 1) 1)

abbrev y0 : CoreSt := CoreSt.reset

/-! ## Hypotheses that are met -/

/-- Every register is the PF's to write once the module is Ready. -/
theorem reaches_pf (s : State) (h : fnThere s.mod .pf = true) (off : Nat) : Reaches s.mod .pf off :=
  ⟨h, m64, rfl, by decide⟩

/-- AluRegisterRows: d = s0 and d = s31. -/
theorem met_AluRegisterRows : (∀ r ∈ aluRows, IssuesFree (at0 (.alu r.2.1 0 31 31) y0).mod 0 (.alu r.2.1 0 31 31) [0, 31, 31] []) ∧
    (∀ r ∈ aluRows, IssuesFree (at0 (.alu r.2.1 31 0 31) y0).mod 0 (.alu r.2.1 31 0 31) [31, 0, 31] []) := by
  unfold IssuesFree Issues; decide +kernel

/-- AluImmediateRows. -/
theorem met_AluImmediateRows : (∀ r ∈ aluIRows, IssuesFree (at0 (.aluI r.2.1 0 31 63) y0).mod 0 (.aluI r.2.1 0 31 63) [0, 31] []) ∧
    (∀ r ∈ movRows, IssuesFree (at0 (.mov r.2.1 31 0xFFFFFFFF) y0).mod 0 (.mov r.2.1 31 0xFFFFFFFF) [31] []) ∧
    (∀ r ∈ countRows, IssuesFree (at0 (.count r.2.1 0 31) y0).mod 0 (.count r.2.1 0 31) [0, 31] []) ∧
    IssuesFree (at0 (.sel 0 7 31 31) y0).mod 0 (.sel 0 7 31 31) [0, 31, 31] [] := by
  unfold IssuesFree Issues; decide +kernel

/-- PredicateRows: pd = p0 and p7. -/
theorem met_PredicateRows : (∀ r ∈ cmpRows, IssuesFree (at0 (.cmp r.2.1 0 31 0) y0).mod 0 (.cmp r.2.1 0 31 0) [31, 0] []) ∧
    (∀ r ∈ cmpIRows, IssuesFree (at0 (.cmpI r.2.1 7 31 0x80000000) y0).mod 0 (.cmpI r.2.1 7 31 0x80000000) [31] []) ∧
    (∀ r ∈ predRows, Issues (at0 (.pred r.2.1 0 7 7) y0).mod 0 (.pred r.2.1 0 7 7)) ∧
    Issues (at0 (.pnot 0 7) y0).mod 0 (.pnot 0 7) := by
  unfold IssuesFree Issues; decide +kernel

/-- ScalarLoads: the last bytes of the local store, the first of the cluster store, and a load that returns. -/
theorem met_ScalarLoads : (∀ r ∈ loadRows, ∀ a ∈ [lsTop - r.2.2.2.1, coreCs], ∀ s ∈ [at0 (.ld r.2.1 r.2.2.1 0 (.reg 0) (BitVec.ofNat 32 a)) y0],
      IssuesFree s.mod 0 (.ld r.2.1 r.2.2.1 0 (.reg 0) (BitVec.ofNat 32 a)) [0, 0] [] ∧ memAddr (coreAt s.mod 0) (.reg 0) (BitVec.ofNat 32 a) = a ∧
      a % r.2.2.2.1 = 0 ∧ memBusy 0 (coreAt s.mod 0) [(a, r.2.2.2.1)] [] = false ∧
      (a = coreCs → InCluster s.mod 0 a r.2.2.2.1) ∧ (a ≠ coreCs → InLocal a r.2.2.2.1 ∧ Sound s.mod 0 (coreAt s.mod 0).stageMap [(a, r.2.2.2.1)]) ∧
      (coreAt s.mod 0).loads.length < 8) ∧
    (∀ s ∈ [at0 .nop { y0 with loads := [⟨0, 0, 1, 0⟩, ⟨1, 31, 2, 15⟩] }], (coreAt s.mod 0).loads = [⟨0, 0, 1, 0⟩, ⟨1, 31, 2, 15⟩] ∧ clRolling s.mod 0 = true) := by
  unfold IssuesFree Issues InCluster InLocal Sound; and_intros <;> decide +kernel

/-- ScalarStores: the last bytes of each store. -/
theorem met_ScalarStores : ∀ r ∈ storeRows, ∀ a ∈ [lsTop - r.2.2, coreCsTop - r.2.2],
    ∀ s ∈ [at0 (.st r.2.1 31 (.gen 7) (BitVec.ofNat 32 a)) y0],
      IssuesFree s.mod 0 (.st r.2.1 31 (.gen 7) (BitVec.ofNat 32 a)) [31] [] ∧ memAddr (coreAt s.mod 0) (.gen 7) (BitVec.ofNat 32 a) = a ∧
      a % r.2.2 = 0 ∧ memBusy 0 (coreAt s.mod 0) [] [(a, r.2.2)] = false ∧ (InLocal a r.2.2 ∨ InCluster s.mod 0 a r.2.2) ∧
      Sound s.mod 0 (coreAt s.mod 0).stageMap [(a, r.2.2)] := by
  unfold IssuesFree Issues InCluster InLocal Sound; decide +kernel

/-- SpecialRegisters: the first and the last register of each kind. -/
theorem met_SpecialRegisters : (∀ n ∈ [0x000, 0x0A7], IssuesFree (at0 (.mfsr 31 (fin 4096 n)) y0).mod 0 (.mfsr 31 (fin 4096 n)) [31] [] ∧
      n ∈ (specialValues 0 (cycled (coreAt (at0 (.mfsr 31 (fin 4096 n)) y0).mod 0))).map (·.1)) ∧
    (∀ n ∈ [0x040, 0x043, 0x044, 0x047], IssuesFree (at0 (.mfsr 0 (fin 4096 n)) y0).mod 0 (.mfsr 0 (fin 4096 n)) [0] []) ∧
    (∀ n ∈ [0x001, 0x0A7], IssuesFree (at0 (.mtsr (fin 4096 n) 31) y0).mod 0 (.mtsr (fin 4096 n) 31) [31] [] ∧
      n ∈ (specialWrites (cycled (coreAt (at0 (.mtsr (fin 4096 n) 31) y0).mod 0)) 0).map (·.1)) ∧
    (∀ n ∈ [0x000, 0x02B, 0x047], IssuesFree (at0 (.mtsr (fin 4096 n) 31) y0).mod 0 (.mtsr (fin 4096 n) 31) [31] [] ∧ specialReadOnly n) := by
  unfold IssuesFree Issues specialReadOnly; and_intros <;> decide +kernel

/-- A core with some scalar registers. -/
def yS (l : List (Nat × W64)) : CoreSt := { y0 with s := l }

/-- MovesEnterTheQueue: lengths 0 and 64, the last bytes of a store, a queue of three. -/
theorem met_MovesEnterTheQueue :
    (∀ n ∈ [0, 64], ∀ s ∈ [at0 (.cp (.reg 1) (.reg 2) 3) (yS [(1, 0x1FFC0), (2, 0x100000), (3, BitVec.ofNat 64 n)])],
      IssuesFree s.mod 0 (.cp (.reg 1) (.reg 2) 3) [3, 1, 2] [] ∧ Aligned64 [0x1FFC0, 0x100000, n] ∧
      (baseAddr (coreAt s.mod 0) (.reg 1)).toNat = 0x1FFC0 ∧ (rs32 (coreAt s.mod 0) 3).toNat = n ∧
      InStore s.mod 0 0x1FFC0 64 ∧ InStore s.mod 0 0x100000 64 ∧
      MoveReady s.mod 0 (moveEntry (coreAt s.mod 0) .copy 0x100000 0x1FFC0 64)) ∧
    (∀ s ∈ [at0 (.vld 15 (.reg 0) 0x1FF80) y0], IssuesFree s.mod 0 (.vld 15 (.reg 0) 0x1FF80) [0] [15] ∧ Aligned64 [0x1FF80] ∧ InStore s.mod 0 0x1FF80 128 ∧
      MoveReady s.mod 0 (moveEntry (coreAt s.mod 0) (.vld 15) (baseAddr (coreAt s.mod 0) (.reg 0) + 0x1FF80) 0 128)) ∧
    (∀ s ∈ [at0 (.vst 0 (.gen 7) 0x1FFF80) y0], IssuesFree s.mod 0 (.vst 0 (.gen 7) 0x1FFF80) [] [0] ∧ Aligned64 [0x1FFF80] ∧ InStore s.mod 0 0x1FFF80 128 ∧
      MoveReady s.mod 0 (moveEntry (coreAt s.mod 0) (.vst (rv (coreAt s.mod 0) 0)) 0 (baseAddr (coreAt s.mod 0) (.gen 7) + 0x1FFF80) 128)) ∧
    (∀ s ∈ [at0 (.tld 3 (.reg 0) 0x1FC00) y0], IssuesFree s.mod 0 (.tld 3 (.reg 0) 0x1FC00) [0] [] ∧ Aligned64 [0x1FC00] ∧ InLocal 0x1FC00 1024 ∧
      MoveReady s.mod 0 (moveEntry (coreAt s.mod 0) (.tld 3) (baseAddr (coreAt s.mod 0) (.reg 0) + 0x1FC00) 0 1024) ∧
      accWriteBusy (coreAt s.mod 0) false [3] = false) ∧
    (∀ s ∈ [at0 (.tst 0 (.reg 0) 0) y0], IssuesFree s.mod 0 (.tst 0 (.reg 0) 0) [0] [] ∧ Aligned64 [0] ∧ InLocal 0 1024 ∧
      MoveReady s.mod 0 (moveEntry (coreAt s.mod 0) (.tst 0) 0 (baseAddr (coreAt s.mod 0) (.reg 0) + 0) 1024) ∧
      accReadBusy (coreAt s.mod 0) [0] = false) ∧
    (∀ n ∈ [0, 64], ∀ s ∈ [inPart (at0 (.push 15 0 (.reg 2) 3) (yS [(2, 0x1FFC0), (3, BitVec.ofNat 64 n)]))],
      IssuesFree s.mod 0 (.push 15 0 (.reg 2) 3) [3, 0, 2] [] ∧ Aligned64 [0x1FFC0, n, 0] ∧ (rs32 (coreAt s.mod 0) 3).toNat = n ∧
      pushTarget 0 15 = some (15, 0) ∧ samePart s.mod 0 15 = true ∧ InStore s.mod 0 0x1FFC0 64 ∧
      MoveReady s.mod 0 (moveEntry (coreAt s.mod 0) (.push 15 0) 0x1FFC0 0 64)) := by
  unfold IssuesFree Issues InStore InCluster InLocal MoveReady Sound Aligned64; and_intros <;> decide +kernel

set_option synthInstance.maxSize 20000 in
set_option synthInstance.maxHeartbeats 2000000 in
/-- MoveCompletes: an entry of each kind at the head, at the ends of a store. -/
theorem met_MoveCompletes : ∀ e ∈ [(MoveKind.copy, (0x1FFC0 : W32), (0x100000 : W32), (64 : W32)), (.vld 15, 0x1FF80, 0, 128), (.vst (List.replicate 32 0), 0, 0x1FFF80, 128),
      (.tld 3, 0x1FC00, 0, 1024), (.tst 0, 0, 0, 1024), (.push 15 0, 0x1FFC0, 0, 64)],
    ∀ q ∈ [(⟨0, e.1, 0, true, e.2.1, e.2.2.1, e.2.2.2⟩ : MoveOp)], ∀ s ∈ [at0 .nop { y0 with mq := [q, q] }],
      NextMove s.mod 0 q [q] ∧ InStore s.mod 0 q.src.toNat q.len.toNat ∧ InStore s.mod 0 q.dst.toNat q.len.toNat ∧ q.len.toNat % 64 = 0 ∧
      earlierUse (coreAt s.mod 0) q.seq [3] = false ∧ pushTarget 0 15 = some (15, 0) ∧
      (q.src.toNat + q.len.toNat ≤ q.dst.toNat ∨ q.dst.toNat + q.len.toNat ≤ q.src.toNat ∨ q.len.toNat = 64 ∨ q.kind ≠ .copy) := by
  unfold NextMove Sound InStore InCluster InLocal; decide +kernel

/-- LaneMovesSwapAndFence. -/
theorem met_LaneMovesSwapAndFence : IssuesFree (at0 (.vext 0 15 31) y0).mod 0 (.vext 0 15 31) [0] [15] ∧
    IssuesFree (at0 (.vins 15 31 0) y0).mod 0 (.vins 15 31 0) [31] [15] ∧ IssuesFree (at0 (.vbcast 0 31) y0).mod 0 (.vbcast 0 31) [31] [0] ∧
    (Issues (at0 .swap y0).mod 0 .swap ∧ stageABusy 0 (coreAt (at0 .swap y0).mod 0) = false) ∧
    (Issues (at0 .mfence y0).mod 0 .mfence ∧ (coreAt (at0 .mfence y0).mod 0).mq = [] ∧
      ∀ e ∈ (at0 .mfence y0).mod.cores, ∀ u ∈ e.2.haloIn, u.sender ≠ 0) := by
  unfold IssuesFree Issues; and_intros <;> decide +kernel

/-- HaloUnitLands: a unit that just fits, and one that just does not. -/
theorem met_HaloUnitLands : ∀ u ∈ [(⟨15, 15, 0, List.replicate 64 1⟩ : HaloUnit), ⟨15, 15, 64, List.replicate 64 1⟩],
    ∀ s ∈ [at0 .nop { y0 with haloIn := [u], haloBase := 0x1FFC0, haloSize := 64 }],
      clRolling s.mod 0 = true ∧ rrPick 20 (coreAt s.mod 0).haloPos (unitReady s.mod (coreAt s.mod 0)) = some 15 ∧
      (coreAt s.mod 0).haloIn.find? (fun u => u.pos == 15) = some u ∧ u.data.length = 64 ∧ (coreAt s.mod 0).wait = none ∧
      (coreAt s.mod 0).haloCredit ≠ BitVec.allOnes 32 ∧
      (u.off = 0 → u.off.toNat < (coreAt s.mod 0).haloSize.toNat ∧ (coreAt s.mod 0).haloBase.toNat / 64 * 64 + u.off.toNat + 64 ≤ 0x20000) ∧
      (u.off = 64 → (coreAt s.mod 0).haloSize.toNat ≤ u.off.toNat) := by
  decide +kernel

/-- A core with an arrival on its cluster's clapper 7. -/
def withArrival (s : State) (n : Option W32) (rel : Bool) : State := s.onMod (fun m => { m with arrivals := [⟨0, 7, n, rel⟩] })

/-- ClapperInstructions: the highest number of each scope, with and without a pending arrival, and a core of no partition. -/
theorem met_ClapperInstructions :
    (∀ op ∈ [ClapOp.both, .arrive, .wait], ∀ s ∈ [at0 (.clap op 0 7 0) y0], IssuesFree s.mod 0 (.clap op 0 7 0) [0] [] ∧
      clapKey s.mod 0 0 7 = some 7 ∧ pendingArrival s.mod 0 7 = none ∧ fenceMet s.mod 0 (coreAt s.mod 0) = true ∧
      IssuesFree (withArrival s none false).mod 0 (.clap op 0 7 0) [0] [] ∧
      pendingArrival (withArrival s none false).mod 0 7 = some ⟨0, 7, none, false⟩) ∧
    (∀ op ∈ [ClapOp.both, .arrive, .wait], ∀ s ∈ [at0 (.clap op 2 15 0) y0], IssuesFree s.mod 0 (.clap op 2 15 0) [0] [] ∧
      partOfCluster s.mod (clusterOf 0) = none ∧ clapKey (inPart s).mod 0 2 15 = some (40320 + 16 + 15)) := by
  unfold IssuesFree Issues; and_intros <;> decide +kernel

/-- ClapperArrivals and ClapperReleases. -/
theorem met_ClapperArrivals : (∀ s ∈ [withArrival (at0 .nop y0) (some 1) false], clapKey s.mod 0 (scopeCode .cluster) 7 = some 7 ∧
      pendingArrival s.mod 0 7 = some ⟨0, 7, some 1, false⟩) ∧
    (∀ w ∈ [none, some (Wait.clap 7), some (.clapThen 7)], ∀ s ∈ [withArrival (at0 .nop { y0 with wait := w }) none true],
      pendingArrival s.mod 0 7 = some ⟨0, 7, none, true⟩ ∧ (coreAt s.mod 0).wait = w ∧ clRolling s.mod 0 = true ∧
      clRolling (s.onMod (fun m => wrN m (rGafClStat 0) 1)).mod 0 = false) := by
  and_intros <;> decide +kernel

/-- Events: the last event of each scope, and the first host event. -/
theorem met_Events : (∀ op ∈ [EvOp.set, .clr, .wait], ∀ e ∈ [(EvScope.cluster, (31 : Fin 64)), (.part, 47), (.part, 48)],
      ∀ s ∈ [inPart (at0 (.ev op e.1 e.2) y0)], Issues s.mod 0 (.ev op e.1 e.2) ∧ fenceMet s.mod 0 (coreAt s.mod 0) = true ∧ evKey s.mod 0 e.1 ≠ none) ∧
    (∀ s ∈ [at0 (.evTest 7 .cluster 0) y0], Issues s.mod 0 (.evTest 7 .cluster 0) ∧ evKey s.mod 0 .cluster = some 0) ∧
    (∀ s ∈ [at0 .nop { y0 with wait := some (.event .cluster 31 true) }], (coreAt s.mod 0).wait = some (.event .cluster 31 true) ∧
      (coreAt s.mod 0).wakeDone = false ∧ clRolling s.mod 0 = true) := by
  unfold Issues; and_intros <;> decide +kernel

/-- CreditAndVerdictWaits: count 0, the count held and one more; a verdict held and none. -/
theorem met_CreditAndVerdictWaits : (∀ n ∈ [0, 5, 6], ∀ s ∈ [at0 (.waitCr 15 (BitVec.ofNat 16 n)) { y0 with cred := [(15, 5)] }],
      Issues s.mod 0 (.waitCr 15 (BitVec.ofNat 16 n)) ∧ credit (coreAt s.mod 0) 15 = 5) ∧
    (∀ n ∈ [0, 5, 6], ∀ s ∈ [at0 (.waitCrr 15 1) { y0 with cred := [(15, 5)], s := [(1, BitVec.ofNat 64 n)] }],
      IssuesFree s.mod 0 (.waitCrr 15 1) [1] [] ∧ credit (coreAt s.mod 0) 15 = 5 ∧ (rs32 (coreAt s.mod 0) 1).toNat = n) ∧
    (∀ s ∈ [inPart (at0 (.waitVd 7) y0)], Issues s.mod 0 (.waitVd 7) ∧ partOfCluster s.mod (clusterOf 0) = some 1) := by
  unfold IssuesFree Issues; and_intros <;> decide +kernel

/-- ControlInstructions: the ends of the instruction store, extent 0 and 1, an inner loop. -/
theorem met_ControlInstructions : Issues (at0 .nop y0).mod 0 .nop ∧ Issues (at0 (.br 2047) y0).mod 0 (.br 2047) ∧
    IssuesFree (at0 (.brr 31) y0).mod 0 (.brr 31) [31] [] ∧ IssuesFree (at0 (.call 0 2047) y0).mod 0 (.call 0 2047) [0] [] ∧
    (∀ n ∈ [0, 1], ∀ s ∈ [at0 (.loop 1 1) { y0 with s := [(1, BitVec.ofNat 64 n)], loops := [⟨0, 2, 0, 1⟩] }], IssuesFree s.mod 0 (.loop 1 1) [1] [] ∧
      (coreAt s.mod 0).loops.length ≠ 4 ∧ (coreAt s.mod 0).pc.toNat < 1 ∧ (∀ l ∈ (coreAt s.mod 0).loops, 1 ≤ l.last) ∧
      (rs32 (coreAt s.mod 0) 1).toNat = n) ∧
    IssuesFree (at0 (.halt 0) y0).mod 0 (.halt 0) [0] [] ∧
    (Issues (at0 .fclr y0).mod 0 .fclr ∧ unitsIdle (coreAt (at0 .fclr y0).mod 0) = true) := by
  unfold IssuesFree Issues; and_intros <;> decide +kernel

/-- A tensor entry of an instruction. -/
def tEntry (o : Octix) : TensorOp := tensorEntry y0 o 0 0 0 0 0 0

abbrev mma0 : MmaFields := ⟨3, .bf16, .bf16, 0, 0, 0, 0, 0, false, false, true, true, 0⟩
abbrev cvt0 : CvtFields := ⟨2, .e4m3, 0, 0, .nearest, true, true, true, 0, 0, 3⟩
abbrev vec0 : VFields := ⟨15, 0, 0, 0, .fp32, .nearest, false, 0, 0, 0, false, false, false, false, false, false, 0, false, 0⟩

/-- Bytes of words with an uncorrectable error, as keys of `Mod.ecc`. -/
def struck (s : State) (ks : List Nat) : State := s.onMod (fun m => { m with ecc := ks.map (fun k => (k, true)) })

/-- CoreHaltsAndFaults: a core that halts with and without outstanding work, an illegal word, the word beyond the store, and errors in the last
word of the instruction store, in the last of the local store for each load and store and for a copy, and under a unit's reads. -/
theorem met_CoreHaltsAndFaults :
    (∀ s ∈ [at0 .nop { y0 with halting := some 0xFFFF }], (coreAt s.mod 0).halting = some 0xFFFF ∧ (coreAt s.mod 0).tq = [] ∧ (coreAt s.mod 0).vq = [] ∧
      (coreAt s.mod 0).mq = [] ∧ (coreAt s.mod 0).loads = [] ∧ ∀ e ∈ s.mod.cores, ∀ u ∈ e.2.haloIn, u.sender ≠ 0) ∧
    (∀ s ∈ [at0 .nop { y0 with halting := some 0, loads := [⟨0, 0, 0, 0⟩] }], (coreAt s.mod 0).halting = some 0 ∧ (coreAt s.mod 0).loads ≠ []) ∧
    (∀ s ∈ [(at0 .nop { y0 with pc := 2047 })], (coreAt s.mod 0).pc.toNat ≤ 2047 ∧ mayIssue s.mod 0 = true ∧
      fetchBad s.mod 0 2047 = false ∧ decodeOctix (fetchWord s.mod 0 2047) = none ∧ guardFails (coreAt s.mod 0) (fetchWord s.mod 0 2047) = false) ∧
    (∀ s ∈ [(at0 .nop { y0 with pc := 2048 })], 2047 < (coreAt s.mod 0).pc.toNat ∧ mayIssue s.mod 0 = true) ∧
    (∀ q ∈ [tEntry (.tmma mma0)], ∀ s ∈ [at0 .nop { y0 with tq := [q] }], (coreAt s.mod 0).tq = [q] ∧ (coreAt s.mod 0).state = .running ∧
      clRolling s.mod (clusterOf 0) = true ∧ meetsWord 0 q.map (tensorReads q) (coreKey 0 q.map 7) = true ∧ q.pc.toNat ≤ 2047) ∧
    (∀ q ∈ [vecEntry y0 .vtdec vec0], ∀ s ∈ [at0 .nop { y0 with vq := [q] }], (coreAt s.mod 0).vq = [q] ∧ (coreAt s.mod 0).state = .running ∧
      clRolling s.mod (clusterOf 0) = true ∧ meetsWord 0 q.map (vecReads q) (coreKey 0 q.map 7) = true ∧ q.pc.toNat ≤ 2047) ∧
    (∀ s ∈ [struck (at0 .nop { y0 with pc := 2047 }) [4 * (8 * 2047) + 1]], (coreAt s.mod 0).pc.toNat ≤ 2047 ∧ mayIssue s.mod 0 = true ∧
      fetchBad s.mod 0 2047 = true) ∧
    (∀ r ∈ loadRows, ∀ a ∈ [lsTop - r.2.2.2.1], ∀ s ∈ [struck (at0 (.ld r.2.1 r.2.2.1 0 (.reg 0) (BitVec.ofNat 32 a)) y0) [4 * (lsTop - 1)]],
      IssuesFree s.mod 0 (.ld r.2.1 r.2.2.1 0 (.reg 0) (BitVec.ofNat 32 a)) [0, 0] [] ∧ memAddr (coreAt s.mod 0) (.reg 0) (BitVec.ofNat 32 a) = a ∧
      a % r.2.2.2.1 = 0 ∧ InLocal a r.2.2.2.1 ∧ memBusy 0 (coreAt s.mod 0) [(a, r.2.2.2.1)] [] = false ∧
      coreBad s.mod 0 (coreAt s.mod 0).stageMap a = true) ∧
    (∀ r ∈ storeRows, ∀ a ∈ [lsTop - r.2.2], ∀ s ∈ [struck (at0 (.st r.2.1 31 (.gen 7) (BitVec.ofNat 32 a)) y0) [4 * (lsTop - 1)]],
      IssuesFree s.mod 0 (.st r.2.1 31 (.gen 7) (BitVec.ofNat 32 a)) [31] [] ∧ memAddr (coreAt s.mod 0) (.gen 7) (BitVec.ofNat 32 a) = a ∧
      a % r.2.2 = 0 ∧ InLocal a r.2.2 ∧ memBusy 0 (coreAt s.mod 0) [] [(a, r.2.2)] = false ∧ coreBad s.mod 0 (coreAt s.mod 0).stageMap a = true) ∧
    (∀ s ∈ [struck (at0 (.cp (.reg 1) (.reg 2) 3) (yS [(1, 0x100000), (2, 0x1FFC0), (3, 64)])) [4 * (lsTop - 1)]],
      IssuesFree s.mod 0 (.cp (.reg 1) (.reg 2) 3) [3, 1, 2] [] ∧
      ∀ q ∈ [moveEntry (coreAt s.mod 0) .copy (baseAddr (coreAt s.mod 0) (.reg 2)) (baseAddr (coreAt s.mod 0) (.reg 1)) (rs32 (coreAt s.mod 0) 3)],
        Aligned64 [q.dst.toNat, q.src.toNat, q.len.toNat] ∧ 0 < q.len.toNat ∧ InLocal q.src.toNat q.len.toNat ∧ InStore s.mod 0 q.dst.toNat q.len.toNat ∧
        moveBusy 0 (coreAt s.mod 0) q = false ∧ (coreAt s.mod 0).mq.length < 4 ∧ badOf s.mod 0 q.map (localSources q) = some 0x1FFF8) := by
  unfold IssuesFree Issues InStore InCluster InLocal Aligned64; and_intros <;> decide +kernel

/-- TensorSetUp. -/
theorem met_TensorSetUp : IssuesFree (at0 (.tset .m 0) y0).mod 0 (.tset .m 0) [0] [] ∧ IssuesFree (at0 (.tset .n 31) y0).mod 0 (.tset .n 31) [31] [] ∧
    IssuesFree (at0 (.tset .k 31) y0).mod 0 (.tset .k 31) [31] [] ∧ Issues (at0 (.tseth true) y0).mod 0 (.tseth true) := by
  unfold IssuesFree Issues; and_intros <;> decide +kernel

/-- TensorInstructionsEnter: each instruction with one place left in the queue, and tmma with a row offset at TX_H 16. -/
theorem met_TensorInstructionsEnter :
    (∀ o ∈ [Octix.tzero 3, .tbias 0 7, .tmma mma0, .tcvt cvt0], ∀ s ∈ [at0 o { y0 with nIssued := 1, tq := [tEntry (.tzero 1)] }],
      IssuesFree s.mod 0 o [0, 0] [] ∧ TensorReady 0 (coreAt s.mod 0) (tensorEntry (coreAt s.mod 0) o 0 0 (if o = .tcvt cvt0 then 0 else 0) 0 0 0)) ∧
    Issues (at0 (.tmma { mma0 with ro := 16 }) y0).mod 0 (.tmma { mma0 with ro := 16 }) ∧ (coreAt (at0 .nop y0).mod 0).txH = 16 := by
  unfold IssuesFree Issues TensorReady Aligned64 InLocal; and_intros <;> decide +kernel

/-- TensorCompletes: each instruction at the head, its rows in the local store. -/
theorem met_TensorCompletes : ∀ o ∈ [Octix.tzero 3, .tbias 0 7, .tmma mma0, .tcvt cvt0], ∀ s ∈ [at0 .nop { y0 with tq := [{ tEntry o with sa := 0x1000 }] }],
    NextTensor s.mod 0 { tEntry o with sa := 0x1000 } [] ∧ InLocal (tEntry o).a.toNat 64 ∧
    (∀ r ∈ tensorWrites { tEntry o with sa := 0x1000 }, InLocal r.1 r.2) := by
  unfold NextTensor Sound InLocal; decide +kernel

/-- VectorInstructionsEnter: each instruction whose unused fields are zero. -/
theorem met_VectorInstructionsEnter : ∀ r ∈ vecRows, ∀ f ∈ [{ vec0 with vd := if (vUse r.2).vd then 15 else 0 }], ∀ s ∈ [at0 (.vec r.2 f) y0],
    IssuesFree s.mod 0 (.vec r.2 f) [f.s, f.rs] (vecNames r.2 f) ∧ VecReady 0 (coreAt s.mod 0) (vecEntry (coreAt s.mod 0) r.2 f) := by
  unfold IssuesFree Issues VecReady Aligned64 InLocal; decide +kernel

set_option synthInstance.maxSize 4000 in
set_option synthInstance.maxHeartbeats 200000 in
/-- VectorLanesComplete and TileStepsComplete: every instruction at the head of the queue. -/
theorem met_VectorLanesComplete : ∀ r ∈ vecRows, ∀ q ∈ [vecEntry y0 r.2 { vec0 with sb := r.2 == .vpk }], ∀ s ∈ [at0 .nop { y0 with vq := [q] }],
    NextVec s.mod 0 q [] ∧ q.op = r.2 ∧ q.va.length = 32 ∧ (∀ r ∈ vecReads q, InLocal r.1 r.2) := by
  unfold NextVec Sound InLocal; decide +kernel

/-- A machine with registers and more of the module set. -/
def st (l : List (Nat × Nat)) (f : Mod → Mod := id) : State := (regs l).onMod f

/-- Context 5 of partition 1 is Active; its page table maps the first GiB of its addresses to the first of the module. -/
def mapped (m : Mod) : Mod :=
  setCtx (memWrite (memWrite (memWrite (wrN m (rHbmOwn 0) 1) 0 (leBytes 8 0x1003)) 0x1000 (leBytes 8 0x2003)) 0x2000 (leBytes 8 7)) 5
    { CtxSt.reset with active := true, part := 1 }

/-- Channel 15 of cluster 0, in state `n`, with hidden state `x`. -/
def chan (n : Nat) (x : ChanSt) (l : List (Nat × Nat) := []) : State :=
  st ([(rGafClStat 0, 0), (rChStat 0 15, n * 2 ^ 28)] ++ l) (fun m => setChan m 0 15 x)

/-- A descriptor within the cluster store: words 2 and 6. -/
def qd (w2 : Nat) (w6 : Nat := 18) : QDesc := ⟨[0, 0x100, BitVec.ofNat 64 w2, 0, 0, 0, BitVec.ofNat 64 w6, 0], 1, false⟩

abbrev c0 : ChanSt := { ChanSt.reset with lead := 1, maxOut := 1 }

/-- DollyCommands: the registers of a channel are the PF's to write. -/
theorem met_DollyCommands : (∀ op ∈ [Octix.darm 15, .dstop 15, .ddis 15], Issues (at0 op y0).mod 0 op) ∧
    fnThere s0.mod .pf = true := by
  unfold Issues; and_intros <;> decide +kernel

/-- DollyLaunchWaitQuery: a channel Off and one with three descriptors; the last descriptor address; counts half a range apart. -/
theorem met_DollyLaunchWaitQuery : (∀ n ∈ [0, 1], ∀ s ∈ [(at0 (.dlaunch 2 15 1) (yS [(1, 0x1FFC0)])).onMod (fun m =>
        setChan (wrN m (rChStat 0 15) (n * 2 ^ 28)) 0 15 { c0 with queue := [qd 0, qd 0, qd 0] })],
      IssuesFree s.mod 0 (.dlaunch 2 15 1) [1, 2] [] ∧ fenceMet s.mod 0 (coreAt s.mod 0) = true ∧ (rs32 (coreAt s.mod 0) 1).toNat = 0x1FFC0 ∧
      InStore s.mod 0 0x1FFC0 64 ∧ memBusy 0 (coreAt s.mod 0) [(0x1FFC0, 64)] [] = false ∧ chState s.mod 0 15 = n ∧
      Sound s.mod 0 (coreAt s.mod 0).stageMap [(0x1FFC0, 64)] ∧ (chanAt s.mod 0 15).queue.length + (chanAt s.mod 0 15).kept.length = 3) ∧
    (∀ s ∈ [(at0 (.dwait 15 1) (yS [(1, 1)])).onMod (fun m => wrN (wrN m (rChStat 0 15) (2 ^ 28)) (rChDone 0 15) 0x80000000)],
      IssuesFree s.mod 0 (.dwait 15 1) [1] [] ∧ ((rd s.mod (rChDone 0 15)).truncate 32 - rs32 (coreAt s.mod 0) 1).toNat = 2 ^ 31 - 1) ∧
    (∀ b ∈ [true, false], IssuesFree (at0 (.dq b 31 0) y0).mod 0 (.dq b 31 0) [31] []) := by
  unfold IssuesFree Issues InStore InCluster InLocal Sound; and_intros <;> decide +kernel

/-- DollyChannelEvents: every event of a channel; rows 0 of 2, and the last row. -/
theorem met_DollyChannelEvents :
    (∀ s ∈ [chan 1 { c0 with queue := [qd 0] }], (chanAt s.mod 0 15).queue = [qd 0] ∧ (chanAt s.mod 0 15).active = none ∧
      chState s.mod 0 15 = 1 ∧ clRolling s.mod 0 = true ∧ dCheck s.mod 0 15 (qd 0) = 0) ∧
    (∀ d ∈ [qd 0 (18 + 2 ^ 57)], ∀ s ∈ [chan 3 { c0 with active := some d } [(rRlGo 0, 0x10001), (rRlLanded 0, 1)]],
      chState s.mod 0 15 = 3 ∧ gateOpen s.mod d = true ∧ (chanAt s.mod 0 15).active = some d) ∧
    (∀ s ∈ [chan 2 { c0 with active := some (qd 0x10000 (18 + 2 ^ 51)), wrRow := 1 }],
      (chanAt s.mod 0 15).row < (chanAt s.mod 0 15).wrRow ∧ chState s.mod 0 15 = 2 ∧ (chanAt s.mod 0 15).row + 1 ≠ dRows (qd 0x10000 (18 + 2 ^ 51)) ∧
      s.mod.cores = []) ∧
    (∀ s ∈ [chan 2 { c0 with active := some (qd 0), awaiting := true, backs := [⟨0, 0x2000, 0⟩] }], (chanAt s.mod 0 15).active = some (qd 0) ∧
      (chanAt s.mod 0 15).awaiting = true ∧ (chanAt s.mod 0 15).refused = false ∧ ownDrain s.mod 0 = false ∧
      ∀ b ∈ (chanAt s.mod 0 15).backs, meetHeld (memMeet s.mod 0 b.addr) = false) ∧
    (∀ e ∈ [(0, 1), (1, 0)], ∀ s ∈ [chan 2 { c0 with active := some (qd 0x10000), row := 1, rdDesc := e.1, rdRow := e.2 }],
      (chanAt s.mod 0 15).row = 1 ∧ 1 ≤ (if (chanAt s.mod 0 15).rdDesc = 0 then (chanAt s.mod 0 15).rdRow else dRows (qd 0x10000) - 1) ∧
      1 < dRows (qd 0x10000)) ∧
    (∀ n ∈ [5, 6], chState (chan n c0).mod 0 15 = n ∧ (chanAt (chan n c0).mod 0 15).active = none) := by
  and_intros <;> decide +kernel

/-- Every core of a state with no core's record waits for nothing. -/
theorem met_noWait (s : State) (h : s.mod.cores = []) (c : Nat) : (coreAt s.mod c).wait = none := by
  unfold coreAt sget; rw [h]; rfl

set_option synthInstance.maxSize 4000 in
set_option synthInstance.maxHeartbeats 200000 in
/-- DollyBurstsAndFaults: the one granule of a row read, an index line read, the granule written in the cluster store and in space 3, a read
refused while the cluster drains, a write to a core that is scrubbed, a page fault, and no channel ready. -/
theorem met_DollyBurstsAndFaults :
    (∀ s ∈ [chan 2 { c0 with active := some (qd 0) }], clRolling s.mod 0 = true ∧ chGrant (dollyRespond s.mod 0) 0 false = some 15 ∧
      rdNext (chServed (dollyRespond s.mod 0) 0 false 15) 0 15 = some (⟨0, 0, 0, 1, qd 0, 0, false⟩, .ok 0) ∧ dLen (qd 0) = 1) ∧
    (∀ d ∈ [qd 0 (18 + 2 ^ 56)], ∀ s ∈ [chan 2 { c0 with active := some d }], clRolling s.mod 0 = true ∧
      chGrant (dollyRespond s.mod 0) 0 false = some 15 ∧ rdNext (chServed (dollyRespond s.mod 0) 0 false 15) 0 15 = some (⟨0, 0, 0, 0, d, 0, true⟩, .ok 0)) ∧
    (∀ d ∈ [qd 0], ∀ s ∈ [chan 2 { c0 with active := some d, rdRow := 1, bufs := [⟨0, 0, [List.replicate 16 7]⟩] }], clRolling s.mod 0 = true ∧
      chGrant (dollyRespond s.mod 0) 0 true = some 15 ∧
      wrNext (chServed (dollyRespond s.mod 0) 0 true 15) 0 15 = some (⟨0, 1, d, 0x100, [List.replicate 16 7]⟩, .ok 0x100) ∧
      (chanAt s.mod 0 15).wrGran + 1 = dLen d ∧ dDstSpace d ≠ 3) ∧
    (∀ d ∈ [qd 0 (2 + 3 * 8)], ∀ s ∈ [(chan 2 { c0 with active := some d, rdRow := 1, bufs := [⟨0, 0, [List.replicate 16 7]⟩] }).onMod (fun m =>
        wrN (mapped m) (rChCtl 0 15) (5 * 2 ^ 16))], clRolling s.mod 0 = true ∧ chGrant (dollyRespond s.mod 0) 0 true = some 15 ∧
      wrNext (chServed (dollyRespond s.mod 0) 0 true 15) 0 15 = some (⟨0, 1, d, 0x100, [List.replicate 16 7]⟩, .ok 0x100) ∧ dDstSpace d = 3) ∧
    (∀ s ∈ [chan 2 { c0 with active := some (qd 0) } [(rGafClStat 0, 64 + 8 * 1)]], clRolling s.mod 0 = true ∧
      chGrant (dollyRespond s.mod 0) 0 false = some 15 ∧ rdNext (chServed (dollyRespond s.mod 0) 0 false 15) 0 15 = some (⟨0, 0, 0, 1, qd 0, 0, false⟩, .retry)) ∧
    (∀ d ∈ [qd 0 (2 + 2 ^ 20)], ∀ s ∈ [(chan 2 { c0 with active := some d, rdRow := 1, bufs := [⟨0, 0, [List.replicate 16 7]⟩] }).onMod
        (fun m => setCore m 0 { y0 with scrubbing := true })], clRolling s.mod 0 = true ∧ chGrant (dollyRespond s.mod 0) 0 true = some 15 ∧
      wrNext (chServed (dollyRespond s.mod 0) 0 true 15) 0 15 = some (⟨0, 1, d, 0x100, [List.replicate 16 7]⟩, .retry)) ∧
    (∀ d ∈ [qd 0 19], ∀ s ∈ [chan 2 { c0 with active := some d }], rdNext s.mod 0 15 = some (⟨0, 0, 0, 1, d, 0, false⟩, .fault 3) ∧
      (chanAt s.mod 0 15).row = 0 ∧ (chanAt s.mod 0 15).bufs = [] ∧ rowFault s.mod 0 15 d 0 ((idxOf s.mod 0 15 0 d 0).getD 0) = some (0, 0, 3) ∧
      chState s.mod 0 15 = 2) ∧
    (∀ w ∈ [true, false], clRolling (chan 1 c0).mod 0 = true ∧ chGrant (dollyRespond (chan 1 c0).mod 0) 0 w = none) ∧ clRolling s0.mod 0 = false := by
  and_intros <;> decide +kernel

/-- An arbiter of HBM block 0 with requests and a grant. -/
def arb (x : ArbSt) (l : List (Nat × Nat) := []) : State := st ([(rArbCtl 0, 0x10000)] ++ l) (fun m => setArb m (.block 0 31) x)

/-- A request of requester `r` that it knows by `id`, of 4 beats. -/
def aR (r id : Nat) : ArbReq := ⟨r, 0, 4, false, 0, id, 0, 0, 0, false, none⟩
/-- A grant of requester 0's request 9, its first beat done. -/
def aG : ArbRun := ⟨0, 9, none, false, 1, 4, false⟩
/-- HBM block 0 of die 0, channel 31. -/
abbrev a0 : ArbId := .block 0 31

set_option synthInstance.maxSize 20000 in
set_option synthInstance.maxHeartbeats 2000000 in
/-- ArbiterDecisions: nothing running for one beat and for many, a grant at its last beat, a decision that is due; a plain choice, a privileged
one, and none. -/
theorem met_ArbiterDecisions :
    (∀ e ∈ [(ArbSt.reset, 1), (ArbSt.reset, 1000), ({ ArbSt.reset with run := some aG }, 3), ({ ArbSt.reset with due := true }, 0)],
      ∀ s ∈ [arb e.1], ∀ x ∈ [arbAt s.mod a0], x = e.1 ∧
      ((x.run = none ∧ x.due = false ∧ (e.2 = 1 ∨ 1 ≤ e.2 ∧ x.reqs = [])) ∨ (x.run = some aG ∧ x.due = false ∧ e.2 = arbLeft x) ∨
        (x.due = true ∧ e.2 = 0)) ∧
      (∀ j ∈ [arbMet s.mod a0 e.2 [aR 0 1]], (arbChoose j a0 (arbAt j a0)).map (fun c => (c.1.rq, c.1.id, c.2.1)) = some (0, 1, false)) ∧
      (∀ j ∈ [arbMet s.mod a0 e.2 []], (arbChoose j a0 (arbAt j a0)).isNone = true) ∧
      (∀ j ∈ [arbMet (arb e.1 [(rArbPriv 0, 1)]).mod a0 e.2 [aR 0 1]], (arbChoose j a0 (arbAt j a0)).map (fun c => (c.1.rq, c.1.id, c.2.1)) = some (0, 1, true))) := by
  decide +kernel

/-- ArbiterEvents: a cancel of a waiting request before the decision beat and in it, of a running grant and of an interrupted one; a
pre-emption; and a wait of one beat too many. -/
theorem met_ArbiterEvents :
    (∀ e ∈ [(ArbSt.reset, 1, true), ({ ArbSt.reset with run := some aG }, 2, false), ({ ArbSt.reset with due := true }, 0, true)],
      ∀ s ∈ [arb e.1], ∀ x ∈ [arbAt s.mod a0], ((x.due = true ∧ e.2.1 = 0) ∨ (x.due = false ∧ x.run = none ∧ e.2.1 = 1) ∨
        (x.due = false ∧ x.run ≠ none ∧ e.2.1 ≤ arbLeft x)) ∧ (x.due || x.run.isNone || e.2.1 == arbLeft x) = e.2.2 ∧
      ((arbAt (arbStopped s.mod a0 e.2.1 [aR 0 1] e.2.2) a0).reqs.find? (fun p => p.rq == 0 && p.id == 1)).isSome = true) ∧
    (∀ s ∈ [arb { ArbSt.reset with run := some aG }], ∀ y ∈ [arbAt (arbStopped s.mod a0 2 [] false) a0],
      y.reqs.find? (fun p => p.rq == 0 && p.id == 9) = none ∧ y.run = some { aG with own := 3 } ∧ aG.rq = 0 ∧ aG.id = 9 ∧ aG.late = false) ∧
    (∀ g ∈ [(⟨1, 8, none, false, 1, 4, false⟩ : ArbRun)], ∀ s ∈ [arb { ArbSt.reset with run := some aG, cut := some g }], 2 ≤ arbLeft (arbAt s.mod a0) ∧
      ∀ y ∈ [arbAt (arbStopped s.mod a0 2 [] false) a0], y.reqs.find? (fun p => p.rq == 1 && p.id == 8) = none ∧
        y.run = some { aG with own := 3 } ∧ y.cut = some g ∧ g.rq = 1 ∧ g.id = 8 ∧ g.late = false) ∧
    (∀ s ∈ [arb { ArbSt.reset with run := some aG } [(rArbPriv 0, 2)]], ∀ x ∈ [arbAt s.mod a0], x.run ≠ none ∧ x.cut = none ∧ x.due = false ∧
      x.spent = false ∧ 1 < arbLeft x ∧ ∀ j ∈ [arbJoined s.mod a0 1 [aR 1 2]], (arbAt j a0).run = some { aG with own := 2 } ∧
        (arbPick a0 (arbAt j a0) (arbUrgent j a0 (arbAt j a0))).isSome = true) ∧
    (∀ q ∈ [({ toArbReq := aR 0 1, starved := false } : ArbPend)], ∀ s ∈ [arb { ArbSt.reset with reqs := [q] } [(rArbCtl 0, 0x01010000)]],
      arbPhase s.mod a0 = 1 ∧ fld s.mod (rArbCtl 0) 31 24 = 1 ∧ (arbAt s.mod a0).reqs.find? (fun q => q.rq == 0 && !q.starved &&
        decide (fld s.mod (rArbCtl 0) 31 24 * arbPeriod s.mod a0 < q.age + (arbPeriod s.mod a0 + 1))) = some q) ∧ Reaches s0.mod .pf (rArbCmd 63) := by
  refine ⟨by decide +kernel, by decide +kernel, by decide +kernel, by decide +kernel, by decide +kernel, reaches_pf s0 (by decide +kernel) _⟩

/-- Reel 15: context 5, one segment of 64 bytes in a block, a ring of two modules, two slots at 0x10000. -/
def reel (l : List (Nat × Nat)) (x : ReelSt := ReelSt.reset) : State :=
  st ([(rRlCtl 15, 0x00050011), (rRlRing 15, 0x00010002), (rRlSeg 15, 0x1000), (rRlTaps 15, 1), (rRlBuf 15, 0x10001)] ++ l)
    (fun m => setReel (mapped m) 15 x)

/-- Status 1 of pass 1. -/
def pass1 : Nat × Nat := (rRlGo 15, 0x00010101)

/-- ReelPasses: a running reel, a refused configuration, buffers mapped and not, a stalled pass. -/
theorem met_ReelPasses : reelRuns (reel [pass1]).mod 15 = true ∧ reelRuns s0.mod 15 = false ∧ reelBad s0.mod 15 ∧
    (∀ e ∈ [(true, reel []), (false, reel [(rRlSrc 15, 0x40000000)]), (false, reel [(rRlCtl 15, 0x00050021)])], reelRuns e.2.mod 15 = false ∧ ¬ reelBad e.2.mod 15 ∧
      (ctxOf e.2.mod (reelCtx e.2.mod 15) (fld e.2.mod (rRlCtl 15) 7 4) && rangeMapped e.2.mod (reelCtx e.2.mod 15) (fld e.2.mod (rRlSrc 15) 56 6 * 64) (reelSegBytes e.2.mod 15 * reelB e.2.mod 15) &&
        rangeMapped e.2.mod (reelCtx e.2.mod 15) (reelBuf e.2.mod 15) (65536 * reelZ e.2.mod 15)) = e.1) ∧
    reelStatus (reel [pass1, (rRlStall 15, 1)]).mod 15 = 1 ∧ fld (reel [pass1, (rRlStall 15, 1)]).mod (rRlStall 15) 23 0 = 1 := by
  unfold reelBad; and_intros <;> decide +kernel

/-- The head of segment `n` of ring `id` and pass `p`. -/
def segHead (id p n : Nat) : Head := [0, BitVec.ofNat 64 (id + p * 2 ^ 16 + n * 2 ^ 32)]

/-- ReelSegments: segment 0 as expected and with one before it not landed, of an aborted pass, of another pass, and of no ring; landing,
taps, sending. -/
theorem met_ReelSegments :
    (∀ f ∈ [fun (s : State) (h : Head) => (List.range 16).find? (fun r => fld s.mod (rRlCtl r) 0 0 == 1 &&
        fld s.mod (rRlRing r) 31 16 == bits (h.getD 1 0) 15 0 && fld s.mod (rRlRing r) 14 12 == 0)],
      f (reel [pass1]) (segHead 2 1 0) = none ∧ f (reel [pass1]) (segHead 1 1 0) = some 15) ∧
    (∀ s ∈ [reel [pass1]], reelRuns s.mod 15 = true ∧ bits ((segHead 1 1 0).getD 1 0) 23 16 = fld s.mod (rRlGo 15) 15 8 ∧
      bits ((segHead 1 1 0).getD 1 0) 63 32 = fld s.mod (rRlLanded 15) 31 0 + (reelAt s.mod 15).arrived.length ∧ 0 < reelLen s.mod 15 ∧
      bits ((segHead 1 1 0).getD 1 0) 23 16 ∉ (reelAt s.mod 15).dead ∧
      bits ((segHead 1 2 0).getD 1 0) 23 16 ≠ fld s.mod (rRlGo 15) 15 8 ∧ bits ((segHead 1 1 1).getD 1 0) 63 32 ≠ fld s.mod (rRlLanded 15) 31 0) ∧
    (∀ s ∈ [reel [pass1] { ReelSt.reset with dead := [2] }], bits ((segHead 1 2 0).getD 1 0) 23 16 ∈ (reelAt s.mod 15).dead) ∧
    (∀ s ∈ [reel [(rRlGo 15, 0x00050100)] { ReelSt.reset with dead := [1], tapMsgs := [0] }], reelStatus s.mod 15 = 5 ∧ reelDead s.mod 15 = true ∧
      0 ∈ (reelAt s.mod 15).tapMsgs) ∧
    (∀ s ∈ [reel [pass1] { ReelSt.reset with arrived := [(0, List.replicate 64 1)], tapMsgs := [0] }],
      (reelAt s.mod 15).arrived = [(0, List.replicate 64 1)] ∧ reelRuns s.mod 15 = true ∧ 0 ∈ (reelAt s.mod 15).tapMsgs ∧ reelDead s.mod 15 = false ∧
      rangeBusy s.mod (reelCtx s.mod 15) (reelBuf s.mod 15) 64 true = false ∧ fld s.mod (rRlLanded 15) 31 0 ≤ 0) ∧
    (∀ s ∈ [reel [pass1, (rRlLanded 15, 1)] { ReelSt.reset with tapMsgs := [0] }], 0 < fld s.mod (rRlLanded 15) 31 0 ∧ tapsDone s.mod 15 0 = false) ∧
    (∀ n ∈ [0, 1], ∀ s ∈ [reel [pass1, (rRlCredit 15, 1), (rRlLanded 15, 1)] { ReelSt.reset with next := n, taps := [(0, 1)] }],
      (reelAt s.mod 15).next = n ∧ (reelAt s.mod 15).sending = none ∧ 0 < fld s.mod (rRlCredit 15) 15 0 ∧ n < reelLen s.mod 15 ∧
      rangeBusy s.mod (reelCtx s.mod 15) (if n = 0 then 0 else 0x10000) 64 false = false ∧ (n < reelB s.mod 15 ∨ (n - reelB s.mod 15 < fld s.mod (rRlLanded 15) 31 0 ∧ tapsDone s.mod 15 (n - reelB s.mod 15) = true))) := by
  and_intros <;> decide +kernel

/-- Stream 63: a sum of 128 bytes of partition 1, which is Formed with this module alone, context 5. -/
def coll (l : List (Nat × Nat)) (x : StreamSt := StreamSt.reset) : State :=
  st ([(rCsCtl 63, 0x0000000500000011), (rCsLen 63, 128), (rCsRbuf 63, 0x10000), (rCsLand 63, 0x100000), (rGrpStat 1, 2), (rGrpCtl 1, 0x00070001)] ++ l)
    (fun m => setCs (setGrp (mapped m) 1 { GroupSt.reset with members := [myCoord m] }) 63 x)

/-- Status 1 of run 1. -/
def run1 : Nat × Nat := (rCsGo 63, 0x00010101)

def part0 : CollPart := ⟨0, false, false, 0, 0, []⟩
/-- A partial or a result, of group `tag` and run `run`. -/
def cMsg (tag run : Nat) (result : Bool) : CollMsg := ⟨0, 0, BitVec.ofNat 16 tag, 0, BitVec.ofNat 8 run, 0, false, result, 0, 0, List.replicate 32 1⟩

/-- CollectiveStreams: starts allowed, refused for a length and for a foreign context; messages of another group, of another run and current;
credits held and waited for; exchange rows that complete a source and that do not; a stalled stream. -/
theorem met_CollectiveStreams :
    (∀ e ∈ [(true, coll []), (false, coll [(rCsLen 63, 127)]), (false, coll [(rCsCtl 63, 0x0000000500000021)])],
      (fld e.2.mod (rCsCtl 63) 0 0 == 1 && decide (csPart e.2.mod 63 ≤ 11) && grpState e.2.mod (csPart e.2.mod 63) == 2 && csAllowed e.2.mod 63 &&
        ctxOf e.2.mod (csCtx e.2.mod 63) (csPart e.2.mod 63) && csMapped e.2.mod 63) = e.1) ∧
    (∀ s ∈ [coll [run1]], csRuns s.mod 63 = true ∧ csRun s.mod 63 = 1 ∧
      (∀ c ∈ [cMsg 7 1 false, cMsg 7 1 true, cMsg 7 2 true], grpMatch s.mod (csPart s.mod 63) ⟨c.tag, c.epoch⟩ = true) ∧
      grpMatch s.mod (csPart s.mod 63) ⟨(cMsg 8 1 true).tag, 0⟩ = false ∧ grpMatch s.mod (csPart s.mod 63) ⟨7, 1⟩ = false ∧
      rangeBusy s.mod (csCtx s.mod 63) (csRbuf s.mod 63 + 64 * 0) 128 true = false) ∧
    (∀ s ∈ [coll [run1] { StreamSt.reset with credits := [7, 8, 8, 8, 8, 8] }], (csAt s.mod 63).waiting.find? (fun c => c.dim == 0 && c.asc == false) = none) ∧
    (∀ s ∈ [coll [run1] { StreamSt.reset with waiting := [part0] }], (csAt s.mod 63).waiting.find? (fun c => c.dim == 0 && c.asc == false) = some part0) ∧
    (∀ s ∈ [coll [run1, (rCsCtl 63, 0x0000000500000311), (rCsXcap 63, 0x00010002)]], csRuns s.mod 63 = true ∧ csKind s.mod 63 = 3 ∧ 0 < csMembers s.mod 63 ∧
      csMembers s.mod 63 ≤ 1 ∧ csCap s.mod 63 = 2 ∧ csRowBytes s.mod 63 = 64 ∧ rangeBusy s.mod (csCtx s.mod 63) (csRbuf s.mod 63) 128 true = false ∧
      sget (fun _ => 0) (csAt s.mod 63).rowsIn 0 = 0) ∧
    csKind (coll [run1]).mod 63 ≠ 3 ∧ (∀ s ∈ [coll [run1, (rCsStall 63, 1)]], csStatus s.mod 63 = 1 ∧ fld s.mod (rCsStall 63) 23 0 = 1) := by
  and_intros <;> decide +kernel

/-- Engine 1: its partition has bay 0, context 5 is mapped, every arbiter is in Normal, and an open would be taken. -/
def pr (ph : Nat) (l : List (Nat × Nat) := []) (x : PrintSt := PrintSt.reset) (f : Mod → Mod := id) : State :=
  st ((List.range 64).map (fun b => (rArbCtl b, 0x10000)) ++ [(rPartStat 1, 2 * 2 ^ 28), (rPartBays 1, 1), (rPrCtl 1, 0x401), (rPrStat 1, ph),
    (rPrId 1, 5 * 2 ^ 24), (rPrAtab 1, 0x4000), (rPrAtabN 1, 1), (rPrStgN 1, 2), (rPrStgSz 1, 64)] ++ l) (fun m => f (setPr (mapped m) 1 x))

/-- PrintCommands: every phase a command is for, opens taken and refused, a warm engine without a journal, and mode changes. -/
theorem met_PrintCommands : (∀ n ∈ [0, 1, 2, 6, 7], prPhase (pr n).mod 1 = n) ∧ openRefused (pr 0).mod 1 = false ∧ openRefused s0.mod 1 = true ∧
    (∀ s ∈ [pr 6], fld s.mod (rSbCtl 1) 0 0 = 0 ∧ fld s.mod (rStrCtl 1) 0 0 = 0 ∧ ∀ i, i < 64 → fld s.mod (rCsCtl i) 0 0 = 0) ∧
    (∀ s ∈ [pr 0 [] { PrintSt.reset with warm := true }], (prAt s.mod 1).warm = true ∧
      rangeBusy s.mod (prCtx s.mod 1) (jBase s.mod 1) 256 false = false ∧ ∀ m' ∈ [onPr (wr s.mod (rPrCtl 1) 1) 1 (fun x => { x with warm := false })],
        journalRead m' 1 = none ∧ eccRead m' (prCtx m' 1) (jBase m' 1) 256 (some 1) = m') ∧
    (∀ n ∈ [3, 4], fld (pr (7 + n * 2 ^ 20)).mod (rPrStat 1) 23 20 = n ∧ prPhase (pr (7 + n * 2 ^ 20)).mod 1 = 7) ∧
    (∀ n ∈ [0, 1, 2], modeState (pr 0 [(rPrModeCtl 1, n * 2 ^ 16)]).mod 1 = n) ∧
    (∀ s ∈ [pr 0 [(rPrMeOff 1 0, rPrTmo 1)]], modeOffOk s.mod 1 (rd s.mod (rPrMeOff 1 0)).toNat = true ∧
      (rd s.mod (rPrSlate 1)).toNat ≤ (rd s.mod (rPrModeSlate 1)).toNat ∧ modeOffOk s.mod 1 0xFFFFFFC = false) := by
  and_intros <;> decide +kernel

/-- A verdict, a result and messages of slate 0, attempt 0. -/
def vd (k : VerdictKind) : VerdictMsg := ⟨0, 0, 0, 0, k, if k = .failed then 1 else 0, false, 1, []⟩

/-- Partition 1 in a group whose tree has a child at port 5. -/
def child (m : Mod) : Mod := setGrp (wrN m (rGrpStat 1) 2) 1 { GroupSt.reset with children := [5] }

/-- PrintVerdicts: the close condition met and not, a timeout with no fail code and with one, a child's message and another's, each verdict. -/
theorem met_PrintVerdicts :
    (∀ s ∈ [pr 2], prPhase s.mod 1 = 2 ∧ closeMet s.mod 1 = true ∧ (prAt s.mod 1).formed = none ∧ grpState s.mod 1 = 0) ∧
    (∀ s ∈ [pr 2 [(rPrTmo 1, 1)] { PrintSt.reset with fail := 1 } (fun m => setCore m 0 { y0 with state := .running })],
      closeMet s.mod 1 = false ∧ rd s.mod (rPrTmo 1) = 1 ∧ (prAt s.mod 1).fail = 1) ∧
    (∀ s ∈ [pr 1 [(rPrTmo 1, 1)]], prPhase s.mod 1 = 1 ∧ (prAt s.mod 1).fail = 0) ∧
    (∀ s ∈ [pr 2 [] PrintSt.reset child], (5 : Nat) ∈ treeChildren s.mod 1 ∧ (4 : Nat) ∉ treeChildren s.mod 1 ∧ treeOther s.mod 1 0 0 = false ∧ treeOther s.mod 1 1 0 = true ∧
      rd s.mod (rPrSlate 1) = 0 ∧ fld s.mod (rPrStat 1) 15 8 = 0 ∧ (prAt s.mod 1).parts = []) ∧
    (∀ k ∈ [VerdictKind.finite, .nonfinite, .failed], ∀ s ∈ [pr 3 [] { PrintSt.reset with formed := some (vd k) }], prPhase s.mod 1 = 3 ∧
      grpState s.mod 1 = 0 ∧ (prAt s.mod 1).formed = some (vd k) ∧ s.mod.cores = []) := by
  and_intros <;> decide +kernel

/-- The apply table's one entry at 0x4000: 64 bytes at 0x5000, the last of its group. -/
def atab (m : Mod) : Mod := memWrite m 0x4000 (leBytes 8 (0x5000 + 2 ^ 62) ++ leBytes 8 64)

/-- A copy for engine 1. -/
def job (dst : Nat) : MoverJob := ⟨.apply 1, 5, 0x6000, dst, 64, none, false⟩

/-- PrintApplyAndVote: an invalid entry and a valid group; a copy that faults and one that ends; replay, vote and its result. -/
theorem met_PrintApplyAndVote :
    (∀ s ∈ [pr 4], prPhase s.mod 1 = 4 ∧ (prAt s.mod 1).copying = false ∧ fld s.mod (rPrApplied 1) 31 0 = (prAt s.mod 1).stagedHi ∧
      (prAt s.mod 1).stagedHi < fld s.mod (rPrAtabN 1) 31 0 ∧
      rangeBusy s.mod (prCtx s.mod 1) (fld s.mod (rPrAtab 1) 56 5 * 32 + 32 * (prAt s.mod 1).stagedHi)
        (32 * min (fld s.mod (rPrAtabN 1) 31 0 - (prAt s.mod 1).stagedHi) (rd s.mod (rPrStgN 1)).toNat) false = false ∧ groupEnd s.mod 1 (rd s.mod (rPrStgN 1)).toNat (prAt s.mod 1).stagedHi = none) ∧
    (∀ s ∈ [pr 4 [(rPrStaged 1, 1)] PrintSt.reset atab], groupEnd s.mod 1 (rd s.mod (rPrStgN 1)).toNat (prAt s.mod 1).stagedHi = some 0 ∧
      0 < (rd s.mod (rPrStaged 1)).toNat ∧
      (journalWrite (onPr s.mod 1 (fun x => { x with stagedHi := 0 + 1 })) 1 1 (rd s.mod (rPrSlate 1))).isSome = true) ∧
    (∀ d ∈ [0x5000, 0x40000000], ∀ s ∈ [pr 4 [] { PrintSt.reset with copying := true, stagedHi := 1 } (fun m => setMover m 7 (some (job d)))],
      prMover s.mod 1 = some (7, job d) ∧ (job d).refused = false ∧ (∀ l ∈ moverTodo (job d), lineHeld s.mod (job d) l = false) ∧ s.mod.ecc = [] ∧
      (jobFault s.mod (job d)).isNone = (d == 0x5000) ∧ (prAt s.mod 1).leftOut = false ∧
      fld s.mod (rPrAtabN 1) 31 0 ≤ fld s.mod (rPrApplied 1) 31 0 + 1) ∧
    (∀ s ∈ [pr 8], prPhase s.mod 1 = 8 ∧ (prAt s.mod 1).copying = false ∧ (prAt s.mod 1).leftOut = false ∧ (prAt s.mod 1).stagedHi ≤ fld s.mod (rPrApplied 1) 31 0) ∧
    (∀ s ∈ [pr 5 [] { PrintSt.reset with acted := some (vd .finite) }], prPhase s.mod 1 = 5 ∧ (prAt s.mod 1).joined = false ∧
      (prAt s.mod 1).voteFormed = none ∧ grpState s.mod 1 = 0 ∧ prStagedOr s.mod 1 = false) ∧
    (∀ s ∈ [pr 5 [] PrintSt.reset child], (5 : Nat) ∈ treeChildren s.mod 1 ∧ treeOther s.mod 1 0 0 = false ∧ (prAt s.mod 1).joined = false ∧
      (prAt s.mod 1).votes = []) ∧
    (∀ s ∈ [pr 5], ∀ x ∈ [ownVote s.mod 1], ∀ s ∈ [pr 5 [] { PrintSt.reset with acted := some (vd .finite), joined := true, voteFormed := some x }],
      (prAt s.mod 1).voteFormed = some x ∧ modeState s.mod 1 ≠ 2 ∧ fld s.mod (rStrCtl 1) 0 0 = 0 ∧ ∀ e ∈ x.entries, e.equal = true) := by
  and_intros <;> decide +kernel

/-- Storyboard engine 1 Running at entry 0, which is at 0x4000 and has the words `ws`. -/
def sb (ws : List Nat) (l : List (Nat × Nat) := []) (f : Mod → Mod := id) : State :=
  st ([(rPartStat 1, 2 * 2 ^ 28), (rPartBays 1, 1), (rSbCtl 1, 0x00050001), (rSbBase 1, 0x4000), (rSbStat 1, 2 ^ 28)] ++ l)
    (fun m => f (memWrite (mapped m) 0x4000 (ws.flatMap (leBytes 8))))

/-- What makes SbOffered hold, for words that are the bytes read. -/
theorem met_sbOffered (m : Mod) (e op : Nat) (bs : List Byte) (h : sbState m e = 1 ∧ (sbAt m e).stopping = false ∧ (sbAt m e).restart = false ∧
    SbReads m e (sbAddr m e (sbIndex m e)) (some 3) ∧ (sbRead m e (sbAddr m e (sbIndex m e)) 64).toOption = some bs ∧
    (efld (words8 bs) 0 7 0 = op ∨ efld (words8 bs) 0 7 0 = 0 ∨ 7 < efld (words8 bs) 0 7 0) ∧ efld (words8 bs) 0 63 32 ≤ fld m (rSbCue e) 31 0) :
    SbOffered m e op (words8 bs) := by
  obtain ⟨a, p, q, r, b, c, d⟩ := h
  refine ⟨a, p, q, r, ⟨bs, ?_, rfl⟩, c, d⟩
  cases hr : sbRead m e (sbAddr m e (sbIndex m e)) 64 with
  | error f => rw [hr] at b; cases b
  | ok v => rw [hr] at b; cases b; rfl

/-- The words and bytes of an entry. -/
def eb (ws : List Nat) : List Byte := (ws ++ List.replicate (8 - ws.length) 0).flatMap (leBytes 8)

/-- Entries of each op: LAUNCH and REST of the last cluster of bay 0, MOVE, PIN and UNPIN of one granule, SCREEN, each with its cue reached and not, and END. -/
def entries : List (Nat × List Nat) := [(1, [1, 0x5000, 0, 0, 124 * 16 + 2 ^ 14 + 15 * 2 ^ 24]), (2, [2, 0x5000, 0x6000, 64]), (3, [3, 0x6000, 0, 2048, 124 * 16]),
  (4, [4, 0x6000, 0, 2048]), (5, [5, 0, 0, 1, 124 * 16 + 2 ^ 14]), (6, [6, 0, 0, 0, 124 * 16 + 2 ^ 14]),
  (5, [5, 0, 0, 1 + 2 ^ 32, 124 * 16 + 2 ^ 14]), (6, [6, 0, 0, 2 ^ 32, 124 * 16 + 2 ^ 14]), (7, [7])]

/-- StoryboardEngine: an entry of each op offered, free and right; one that waits, one of op 0; the state each op needs. -/
theorem met_StoryboardEngine :
    (∀ n ∈ [0, 1, 5], sbState (sb [] [(rSbStat 1, n * 2 ^ 28)]).mod 1 = n) ∧
    (∀ e ∈ entries, ∀ s ∈ [sb e.2], ∀ bs ∈ [eb e.2], sbState s.mod 1 = 1 ∧ (sbAt s.mod 1).stopping = false ∧
      (sbAt s.mod 1).restart = false ∧ SbReads s.mod 1 (sbAddr s.mod 1 (sbIndex s.mod 1)) (some 3) ∧ (sbAt s.mod 1).redo = [] ∧
      (sbRead s.mod 1 (sbAddr s.mod 1 (sbIndex s.mod 1)) 64).toOption = some bs ∧ efld (words8 bs) 0 7 0 = e.1 ∧ efld (words8 bs) 0 63 32 ≤ fld s.mod (rSbCue 1) 31 0 ∧ sbCheck s.mod 1 (words8 bs) = 0 ∧
      efld (words8 bs) 0 8 8 = 0 ∧ (sbAt s.mod 1).resumeAt = none ∧ sbIndex s.mod 1 + 1 < 2 ^ 20) ∧
    (∀ s ∈ [sb (List.replicate 16 0 ++ [0x107]) [(rSbStat 1, 2 ^ 28 + 2)] (fun m => setSb m 1 { SbSt.reset with out := [⟨0, 1, [], true, 0⟩] })],
      (sbRead s.mod 1 (sbAddr s.mod 1 (sbIndex s.mod 1)) 64).toOption = some (eb [0x107]) ∧ efld (words8 (eb [0x107])) 0 8 8 = 1 ∧
      ¬ SbIdle s.mod 1 ∧ ∃ o ∈ (sbAt s.mod 1).out, o.index < sbIndex s.mod 1 ∧ outDone s.mod o = false) ∧ SbIdle (sb []).mod 1 ∧
    sbCheck (sb [0]).mod 1 (words8 (eb [0])) = 1 ∧
    (∀ n ∈ [0, 1, 5], ∀ s ∈ [sb [] [(rChStat 124 15, n * 2 ^ 28)]], chState s.mod 124 15 = n ∧ (sbRead s.mod 1 0x5000 64).isOk = true) ∧
    (∀ s ∈ [sb []], (List.range 8).find? (fun i => (moverAt s.mod i).isNone) = some 0 ∧ (translate s.mod 5 0x6000 false).toOption = some 0x6000 ∧
      carveSlots s.mod 124 = 0 ∧ s.mod.pins = [] ∧ s.mod.migQ = [] ∧ (sbRead s.mod 1 0x40000000 64).isOk = false ∧
      inDark (sb [] [(rGafClStat 124, 5)]).mod 124 = true ∧ s.mod.ecc = [] ∧ (strAt s.mod 1).held = false ∧ rangeBusy s.mod (sbCtx s.mod 1) 0x5000 64 false = false ∧ restRung s.mod 0 1 ≠ 0) ∧
    (∀ s ∈ [sb [] [(rGafClStat 124, 0)]], rungBlocked s.mod 124 = false ∧ clPhase s.mod 124 = 0 ∧ clRung s.mod 124 = 0 ∧ inDark s.mod 124 = false) ∧
    (∀ s ∈ [sb [] [] (fun m => setStr m 1 { StrSt.reset with held := true })], (strAt s.mod 1).held = true) ∧
    (∀ w ∈ [true, false], ∀ s ∈ [sb [] [] (fun m => { m with pins := [(12, some ⟨124, 0, w⟩)] })],
      sget (fun _ => none) s.mod.pins (0x6000 / 2048) = some ⟨124, 0, w⟩) ∧
    (∀ s ∈ [sb [] [(rClCarve 124, 8)]], (List.range (carveSlots s.mod 124)).find? (fun n => !(slotsUsed s.mod 124).contains n) = some 0) ∧
    (∀ s ∈ [sb [] [] (fun m => (List.range 8).foldl (fun m i => setMover m i (some (job 0))) m)], ∀ i, i < 8 → moverAt s.mod i ≠ none) := by
  unfold SbReads SbIdle; and_intros <;> decide +kernel

/-- MemoryTiers: the last granule of HBM pinned and unpinned, written and not, its cluster at Rolling, draining and in Dark; carve-outs free and
in use; far-tier configurations. -/
theorem met_MemoryTiers : (∀ g ∈ [hbmTop / 2048 - 1], 2048 * g + 2048 ≤ hbmTop ∧
      (∀ e ∈ [(0, Meet.ok (nearAddr 4999)), (64 + 8, .retry), (5, .wait)], ∀ s ∈ [st [(rGafClStat 4999, e.1)]], granuleBusy s.mod (2048 * g) = false ∧
        nearMeet s.mod 5000 (nearAddr 4999) = e.2) ∧
      (∀ spoilt ∈ [true, false], ∀ s ∈ [st [] (fun m => { m with migQ := [⟨true, g, 4999, 255, 0, 0, 0, spoilt⟩] })],
        (s.mod.migQ.find? (fun j => j.pin && j.cluster == 4999)).isSome = true ∧ (sbAt s.mod 0).stopping = false) ∧
      (∀ w ∈ [true, false], ∀ s ∈ [st [] (fun m => { m with migQ := [⟨false, g, 4999, 255, 0, 0, 0, false⟩], pins := [(g, some ⟨4999, 255, w⟩)] })],
        (s.mod.migQ.find? (fun j => !j.pin && j.cluster == 4999)).isSome = true ∧ sget (fun _ => none) s.mod.pins g = some ⟨4999, 255, w⟩ ∧
        slotsUsed s.mod 4999 ≠ [])) ∧
    (∀ s ∈ [st [] (fun m => setMover m 7 (some { job 0 with refused := true }))], (moverAt s.mod 7).isSome = true) ∧ slotsUsed s0.mod 4999 = [] ∧
    fld s0.mod rFarCfg 31 31 = 0 ∧ fld (regs [(rFarCfg, 2 ^ 31)]).mod rFarCfg 31 31 = 1 := by
  and_intros <;> decide +kernel

/-- A sample of an ingest stream at position 7, one block long, and a batch of it that begins at cursor 0. -/
def smp (proj : Option Nat) (done : Bool) (path : Nat := 0) : DlySample :=
  ⟨0, 7, 0, 0, [BitVec.ofNat 64 (path * 2 ^ 32 + 1), 0, 512, 0], 1, 512, 1, 1, [], [], proj, done⟩
def bat (s : DlySample) (launched : Bool := false) : DlyBatch := ⟨0, 0, [s], false, launched⟩

/-- Stream 11 with one block of 2 x 2 pixels in a token, and hidden state `x`. -/
def str (en : Nat) (x : StrSt := StrSt.reset) (l : List (Nat × Nat) := []) (f : Mod → Mod := id) : State :=
  st ([(rStrCtl 11, en), (rFrmCrop 11, 2 * 2 ^ 24 + 2 * 2 ^ 36), (rFrmOut 11, 0), (rFrmTok 11, 0x101), (rFrmCol 11, 0), (rStrN 11, 2 ^ 48), (rStrStep 11, 1), (rStrShare 11, 2 ^ 24)] ++ l)
    (fun m => f (setStr m 11 x))

/-- An outstanding Read of the sample on port 1, at its attempt `t`. -/
def rdg (t : Nat) (either : Bool := false) : DlyRead := ⟨9, 11, 0, 7, 1, either, 1, 0, 1, t, true, true⟩

/-- Both ports have namespace 1 of 512-byte blocks; the sample's Read is outstanding. -/
def reading (t w : Nat) (l : List (Nat × Nat) := []) : State :=
  str 1 { StrSt.reset with batches := [bat (smp none false w)] } l
    (fun m => { m with reads := [rdg t (w == 2)], nvs := [(0, ⟨[⟨1, 512, 0, false, true⟩], 0, 256⟩), (1, ⟨[⟨1, 512, 0, false, true⟩], 0, 256⟩)] })

/-- NvmePorts: a port off, being initialised and Ready; a Read with tries left, at the last, on samples of path 1 and 2, the next port
taking it and not. -/
theorem met_NvmePorts : (∀ n ∈ [0, 1, 2], nvState (regs [(rNvStat 1, n * 2 ^ 28)]).mod 1 = n) ∧
    (∀ r ∈ s0.mod.reads, r.issued = true) ∧
    (∀ t ∈ [0, fld s0.mod rDlyCfg 3 0], ∀ w ∈ [1, 2], ∀ n ∈ [1, 2], ∀ s ∈ [reading t w [(rNvStat 0, n * 2 ^ 28 + 1), (rNvStat 1, n * 2 ^ 28 + 1)]],
      readOf s.mod 1 9 = some (rdg t (w == 2)) ∧ batchAt (strAt s.mod 11) 0 = some (bat (smp none false w)) ∧
      [smp none false w].find? (fun x => x.pos == 7) = some (smp none false w) ∧ sampleFailed (smp none false w) = false ∧
      ((nvNs s.mod 1 1).map (fun x => x.lba)).getD 0 = 512 ∧ (List.replicate 512 (0 : Byte)).length = (rdg t).n * 512 ∧
      (∀ r ∈ s.mod.reads, r.issued = true) ∧ nextRead s.mod 0 = none ∧ nextRead s.mod 1 = none ∧
      (∀ q2 ∈ [if w = 2 then 0 else 1], nvState s.mod q2 = n ∧
        (nvOut { s.mod with reads := s.mod.reads.erase (rdg t (w == 2)) } q2).length < nvCap { s.mod with reads := s.mod.reads.erase (rdg t (w == 2)) } q2 ∧
        (nvNs { s.mod with reads := s.mod.reads.erase (rdg t (w == 2)) } q2 1).isSome = true) ∧
      fld s.mod rDlyCfg 3 0 = fld s0.mod rDlyCfg 3 0) ∧
    0 < fld s0.mod rDlyCfg 3 0 := by
  and_intros <;> decide +kernel

/-- IngestStreams: a valid configuration and an invalid one, enabled and not; samples free, in a projector and done, with a Read still out
and without, the write-back arbiter admitting the stream and masking it; a decode of a discarded batch. -/
theorem met_IngestStreams : (∀ n ∈ [0, 1], fld (str n).mod (rStrCtl 11) 0 0 = n) ∧ s0.mod.ecc = [] ∧
    (∀ m ∈ [wr (str 0).mod (rStrCtl 11) (BitVec.ofNat 64 (mixBits (rd (str 0).mod (rStrCtl 11)).toNat (nput 0 0 0 1) 0x0FFFFF81))],
      strValid m 11 = true ∧ strNamed m 11 = [0] ∧ recsFree m 11 0 = true) ∧
    strValid s0.mod 11 = false ∧ (strAt (str 0).mod 11).batches = [] ∧ (str 1).mod.ecc = [] ∧ (∀ r ∈ (str 1).mod.reads, r.issued = true) ∧
    (∀ s ∈ [str 1 StrSt.reset [(rStrProj 10, 2 ^ 47)]], projOverlap s.mod 11 (2 ^ 47) = true ∧ projOverlap s.mod 11 (2 ^ 46) = false) ∧
    projOverlap (str 0).mod 11 (2 ^ 47) = false ∧
    (∀ s ∈ [str 1 { StrSt.reset with batches := [bat (smp none false)] } [(rStrProj 11, 2 ^ 47)]], strOn s.mod 11 = true ∧
      (List.range 48).find? (fun j => bit (rd s.mod (rStrProj 11)) j && !bit (rd s.mod rDlyProjBusy) j) = some 47 ∧
      (strAt s.mod 11).batches.findSome? (fun b => (b.samples.find? (fun x => x.proj.isNone && !x.done)).map (fun x => (b.start, x.pos))) = some (0, 7)) ∧
    (∀ x ∈ [bat (smp (some 47) false)], ∀ s ∈ [str 1 { StrSt.reset with batches := [x], dropped := [46] }],
      projSample s.mod 11 47 = some (x, smp (some 47) false) ∧ readsDone s.mod 11 0 (smp (some 47) false) = true ∧ wbOpen s.mod 11 = true ∧
      rangeBusy s.mod (strCtx s.mod 11) (regionBase s.mod 11 x (smp (some 47) false)) (strStride s.mod 11) true = false ∧
      projSample s.mod 11 46 = none ∧ 46 ∈ (strAt s.mod 11).dropped ∧ projSample s.mod 11 45 = none ∧ 45 ∉ (strAt s.mod 11).dropped ∧
      readsDone { s.mod with reads := [rdg 0] } 11 0 (smp (some 47) false) = false) ∧
    (∀ s ∈ [str 1 { StrSt.reset with batches := [bat (smp (some 47) false)] } [(rArbCtl 63, 4 * 2 ^ 16)]],
      projSample s.mod 11 47 = some (bat (smp (some 47) false), smp (some 47) false) ∧ wbOpen s.mod 11 = false) ∧
    (∀ s ∈ [str 1 { StrSt.reset with batches := [bat (smp (some 47) true)] }],
      (strAt s.mod 11).batches.find? (fun b => !b.ready && b.samples.all (fun x => x.done)) = some (bat (smp (some 47) true)) ∧
      (strAt s.mod 11).waiting ≠ some 0) := by
  and_intros <;> decide +kernel

/-- Partition 11 in a state, with bay 39. -/
def part (n : Nat) (l : List (Nat × Nat) := []) (f : Mod → Mod := id) : State :=
  st ([(rPartStat 11, n * 2 ^ 28), (rPartBays 11, 2 ^ 39)] ++ l) f

/-- PartitionsAndGranules: bays good and not; every state; a set-up whose clusters are Rolling, and a release of halted cores; the last granules. -/
theorem met_PartitionsAndGranules : (∀ s ∈ [part 0 [(rRepBayOk, 2 ^ 39)]], BaysGood s.mod 11 ∧ partState s.mod 11 = 0) ∧
    (∀ s ∈ [part 0 [(rRepBayOk, 0)]], ¬ BaysGood s.mod 11) ∧ (∀ n ∈ [1, 2, 3], partState (part n).mod 11 = n) ∧
    (∀ n ∈ [0, 1], fld (part 2 [(rPartStat 11, 2 * 2 ^ 28 + n)]).mod (rPartStat 11) 12 0 = n) ∧
    (∀ s ∈ [part 1 ((List.range 125).map (fun i => (rGafClStat (4875 + i), 0)))], ∀ k ∈ clustersOfPart s.mod 11, clRolling s.mod k = true) ∧
    (∀ n ∈ [0, 1], fld (part 2 [(rPartOwner 11, n)]).mod (rPartOwner 11) 11 0 = n) ∧
    (∀ s ∈ [(part 2).onMod (fun m => setCore m 79999 { y0 with state := .waiting })], ∃ c ∈ [79999], c ∈ coresOfPart s.mod 11 ∧ (coreAt s.mod c).state = .waiting) ∧
    (∀ c ∈ coresOfPart (part 2).mod 11, (coreAt (part 2).mod c).state = .halted) ∧
    (∀ far ∈ [true, false], ∀ n ∈ [0, 1], ∀ g ∈ [if far then 4095 else 767], fld (regs [(rGranule far g, n * 128)]).mod (rGranule far g) 7 7 = n) ∧
    (∀ ds ∈ [[], [7]], (st [] (fun m => { m with boot := { m.boot with dead := ds } })).mod.boot.dead.contains (767 / 96) = (ds == [7])) := by
  unfold BaysGood; and_intros <;> decide +kernel

/-- The clusters of partition 11 have nothing left to end: no core has a record, and no channel register is written. -/
theorem met_releaseDone : partState (part 3).mod 11 = 3 ∧ (∀ k ∈ clustersOfPart (part 3).mod 11,
    (∀ c ∈ coresOf k, (coreAt (part 3).mod c).state = .halted) ∧ ∀ ch, ch < 16 → chState (part 3).mod k ch = 0) := by
  and_intros <;> decide +kernel

/-- Context 5 of partition 1, Active, with rings of 16 entries. -/
abbrev cx : CtxSt := { CtxSt.reset with active := true, part := 1, sq := ⟨4, 0, 0, true⟩, cq := ⟨0x1004, 0, 0, true⟩, eq := ⟨0x2004, 0, 0, true⟩ }
def ctx (c : CtxSt) (l : List (Nat × Nat) := []) (f : Mod → Mod := id) : State :=
  st ([(rPartStat 1, 2 * 2 ^ 28), (rPartBays 1, 1)] ++ l) (fun m => f (setFn (setCtx m 5 c) 0 { fnAt m 0 with ctxSel := 5 }))

/-- ContextsAndDoorbells: a partition full and with room; contexts foreign, free, used and idle; ring sizes 3, 4, 16 and 17; index 15 and 16. -/
theorem met_ContextsAndDoorbells :
    (∀ s ∈ [regs [(rPartStat 1, 2 * 2 ^ 28 + 4), (rCtxNewPart, 1)], regs [(rPartStat 1, 2 * 2 ^ 28 + 4), (rPartCtl 1, 4 * 2 ^ 16), (rCtxNewPart, 1)]],
      fnPart s.mod .pf = 1 ∧ partState s.mod 1 = 2 ∧ fld s.mod (rPartStat 1) 12 0 = 4 ∧
      (List.range 4096).find? (fun x => !(ctxAt s.mod x).active) = some 0) ∧
    fld s0.mod (rPartCtl 1) 27 16 = 0 ∧ fld (regs [(rPartCtl 1, 4 * 2 ^ 16)]).mod (rPartCtl 1) 27 16 = 4 ∧ partState s0.mod (fnPart s0.mod .pf) ≠ 2 ∧
    (∀ s ∈ [ctx cx [] (fun m => setFn m 12 { FnSt.reset with enabled := true, ctxSel := 5 })], ctxSel s.mod 0 = 5 ∧ ctxForeign s.mod (.vf 11) 5 = true ∧
      fnThere s.mod (.vf 11) = true ∧
      ctxForeign s.mod .pf 5 = false ∧ (ctxAt s.mod 5).active = true ∧ dbReach s.mod .pf 5 = true ∧ dbReach s.mod (.vf 11) 5 = false ∧
      ringSize (ctxAt s.mod 5).sq = 16 ∧ (ctxAt s.mod 5).waitingCpl = [] ∧ ctxUser s.mod 5 = 0 ∧ (ctxAt s.mod 5).sq.head = (ctxAt s.mod 5).sq.tail ∧ modState s.mod = 0 ∧ s.mod.evWait = [] ∧ s.mod.alarmWait = []) ∧
    (ctxAt s0.mod (ctxSel s0.mod 0)).active = false ∧ (ctxAt (ctx { cx with sq := ⟨4, 0, 15, true⟩ }).mod 5).sq.tail = 15 ∧
    modState (regs [(rGafModStat, 2)]).mod = 2 ∧
    (∀ s ∈ [(ctx cx).onMod (fun m => setFn m 0 { fnAt m 0 with invalidating := some 5 })], (fnAt s.mod 0).invalidating ≠ none) ∧
    (∀ n ∈ [3, 17], bits (BitVec.ofNat 64 n) 4 0 < 4 ∨ 16 < bits (BitVec.ofNat 64 n) 4 0) := by
  and_intros <;> decide +kernel

/-- A context is used by a channel of another partition's cluster, by a reel, and by nothing. -/
theorem met_ctxUser : ctxUser (st [(rChCtl 4999 15, 5 * 2 ^ 16), (rChStat 4999 15, 2 ^ 28)] (fun m => setCtx m 5 { CtxSt.reset with active := true, part := 1 })).mod 5 = 2 ∧
    ctxUser (st [(rRlCtl 15, 0x00050001)] (fun m => setCtx m 5 { CtxSt.reset with active := true, part := 11 })).mod 5 = 3 ∧
    ctxUser (st [] (fun m => setCtx m 5 { CtxSt.reset with active := true, part := 11 })).mod 5 = 0 := by
  and_intros <;> decide +kernel

/-- Context 5's submission ring holds the command `ws`; more of the module. -/
def cmd (ws : List Nat) (l : List (Nat × Nat) := []) (f : Mod → Mod := id) : State :=
  ctx { cx with sq := ⟨4, 0, 1, true⟩ } l (fun m => f (memWrite m hostBase ((ws ++ List.replicate (8 - ws.length) 0).flatMap (leBytes 8))))

/-- Commands of each op: for cluster 124 and its core 15; of no op; and with a reserved bit. -/
def cmds : List (Nat × List Nat) := [(0, [0]), (1, [1, 124 * 16 + 2 ^ 14 + 2 ^ 39]), (2, [2, 124 * 16 + 2 ^ 14 + 2 ^ 39]), (3, [3, 0x80008000]),
  (4, [4, 64, 0, 64]), (5, [5, 2])]

/-- The words of a command as the ring gives them. -/
def cw (ws : List Nat) : List W64 := words8 (eb ws)

/-- HostCommands: a command of each op ready, one of none and one with a reserved bit; ranges in and out of the partition; every state of its core. -/
theorem met_HostCommands :
    (∀ e ∈ cmds, ∀ s ∈ [cmd e.2], sqHead s.mod 5 = some (cw e.2) ∧ cfld (cw e.2) 0 7 0 = e.1 ∧ cmdBad (cw e.2) = false) ∧ sqHead s0.mod 5 = none ∧
    (∀ e ∈ cmds, ∀ b ∈ [e.2.headD 0 + 2 ^ 31], sqHead (cmd [b]).mod 5 = some (cw [b]) ∧ cmdBad (cw [b]) = true) ∧ cmdBad (cw [255]) = true ∧
    (∀ w ∈ [[1, 124 * 16 + 2 ^ 14 + 2 ^ 39]], ∀ s ∈ [cmd w], cmdRange s.mod 5 (cw w) = none ∧ cmdCores (cw w) = [1999] ∧
      toReclaim s.mod 5 (cw w) = [] ∧ (5 : Nat) ∉ fillers s.mod 1 ∧ (coreAt s.mod 1999).state = .halted ∧ (coreAt s.mod 1999).scrubbing = false ∧
      cmdClusters (cw w) = [124] ∧ (coreAt s.mod 1999).lastCtx = none) ∧
    (∀ n ∈ [0, 5], inDark (cmd [1, 124 * 16 + 2 ^ 14 + 2 ^ 39] [(rGafClStat 124, n)]).mod 124 = (n == 5)) ∧
    cmdRange (cmd []).mod 5 (cw [1, 125 * 16 + 2 ^ 14]) = some 2 ∧ cmdRange (cmd []).mod 5 (cw [1, 0]) = some 3 ∧
    (∀ w ∈ [[2, 124 * 16 + 2 ^ 14 + 2 ^ 39]], ∀ r ∈ [CoreState.halted, .running], ∀ s ∈ [cmd w [] (fun m => setCore m 1999 { y0 with state := r })],
      cmdRange s.mod 5 (cw w) = none ∧ (∀ c ∈ cmdCores (cw w), (coreAt s.mod c).scrubbing = false) ∧ (cmdCores (cw w)).filter (fun c => decide ((coreAt s.mod c).state = .running ∨ (coreAt s.mod c).state = .waiting)) =
        if r = .halted then [] else [1999]) ∧
    (∀ s ∈ [cmd [] [(rGafClStat 124, 0)] (fun m => setCore m 1999 { y0 with scrubbing := true })], (coreAt s.mod 1999).scrubbing = true ∧
      clRolling s.mod (clusterOf 1999) = true ∧ ∀ e ∈ s.mod.ctxs, e.2.cmds = []) ∧
    (∀ s ∈ [(cmd [] [(rGafClStat 124, 0)] (fun m => setCore m 1999 { y0 with scrubbing := true })).onMod (fun m => setCtx m 5
        { cx with cmds := [⟨cw [1, 124 * 16 + 2 ^ 14 + 2 ^ 39], [1999], 0, 0, 0, 0xFFFF, none⟩] })], (s.mod.ctxs.findSome? (fun e =>
        (e.2.cmds.find? (fun q => cfld q.words 0 7 0 == 1 && q.cores.contains 1999)).map (fun q => (e.1, q)))).isSome = true) ∧
    (∀ s ∈ [cmd [4, 64, 0, 64] [] (fun m => (List.range 8).foldl (fun m i => setMover m i (some (job 0))) m)], ∀ i, i < 8 → moverAt s.mod i ≠ none) ∧
    (List.range 8).find? (fun i => (moverAt s0.mod i).isNone) = some 0 ∧
    (∀ n ∈ [0, 1], prPhase (cmd [5, 2] [(rPrStat 1, n)]).mod 1 = n) := by
  and_intros <;> decide +kernel

/-- A mover of an engine's entry or of a COPY, in context 5 of `mapped`. -/
def mvr (j : MoverJob) (l : List (Nat × Nat) := []) (q : List CtxCmd := []) : State :=
  (st [] (fun m => setMover (setCtx (mapped m) 5 { ctxAt (mapped m) 5 with cmds := q }) 7 (some j))).onMod (fun m => l.foldl (fun m e => wrN m e.1 e.2) m)

def cc (rem : Nat) : CtxCmd := ⟨cw [4, 64, 0, 64, rem], [], 0, 0, 0, 0, none⟩

/-- MoversAndCopies: jobs that translate, fault and meet a busy granule, of an engine's entry and of a COPY; a remote COPY whose source is
free and busy; entries of this run, a further one and another run's; data for a context of the group and not; the last line of HBM through
BAR4, held and not, one beyond it and an access beyond the window. -/
theorem met_MoversAndCopies :
    (∀ o ∈ [MoveFor.entry 1 0 0, .command 5 (cw [4, 64, 0, 64])], ∀ e ∈ [((0x5000 : Nat), (0 : Nat), true, false), (0x5000, 128, true, true), (0x40000000, 0, false, false)],
      ∀ j ∈ [(⟨o, 5, 0x6000, e.1, 64, none, false⟩ : MoverJob)], ∀ s ∈ [mvr j [(rHbmOwn 0, 1 + e.2.1)] [cc 0]], moverAt s.mod 7 = some j ∧
        (moverFault s.mod j).isNone = e.2.2.1 ∧ moverTodo j = [0] ∧ (e.2.2.1 = true → lineHeld s.mod j 0 = e.2.2.2) ∧ s.mod.ecc = [] ∧
        (sbAt s.mod 1).stopping = false ∧ (ctxAt s.mod 5).cmds.find? (fun q => q.words == cw [4, 64, 0, 64]) = some (cc 0)) ∧
    copyRemote (cw [4, 64, 0, 64]) = false ∧ copyRemote (cw [4, 64, 0, 64, 1]) = true ∧
    (∀ n ∈ [0, 128], ∀ j ∈ [(⟨.command 5 (cw [4, 64, 0, 64, 1]), 5, 0x6000, 0, 64, none, false⟩ : MoverJob)], ∀ s ∈ [mvr j [(rHbmOwn 0, 1 + n)] [cc 1]],
      moverAt s.mod 7 = some j ∧ moverFault s.mod j = none ∧ rangeBusy s.mod j.ctx j.src j.len false = (n == 128) ∧ s.mod.ecc = []) ∧
    (∀ run ∈ [0, 1], ∀ r ∈ [none, some (0, 0, 1)], ∀ j ∈ [(⟨.entry 1 run 0, 5, 0x6000, 0x40000000, 64, none, false⟩ : MoverJob)],
      ∀ s ∈ [(mvr j).onMod (fun m => setSb m 1 { sbAt m 1 with resumeAt := r })], moverAt s.mod 7 = some j ∧ moverFault s.mod j ≠ none ∧
        (sbAt s.mod 1).restart = false ∧ (sbAt s.mod 1).run = 0 ∧ (sbAt s.mod 1).resumeAt = r ∧ s.mod.ecc = []) ∧
    (∀ s ∈ [mvr (job 0) [] [cc 1]], remoteCopy s.mod 5 = some (cc 1) ∧ (ctxAt s.mod 5).cmds.find? (fun c => c.words == (cc 1).words) = some (cc 1)) ∧
    (∀ n ∈ [0, 128], ∀ s ∈ [mvr (job 0) [(rGrpCtl 1, 0x00070001), (rHbmOwn 0, 1 + n)]], (ctxAt s.mod 5).active = true ∧
      grpId s.mod (ctxAt s.mod 5).part.val = 7 ∧ rangeBusy s.mod 5 0x5000 1 true = (n == 128) ∧
      (n = 0 → (vaWrite s.mod 5 0x5000 [1]).isOk = true ∧ rangeBusy s.mod 5 0x40000000 1 true = false ∧
        (vaWrite s.mod 5 0x40000000 [1]).isOk = false)) ∧ (ctxAt s0.mod 5).active = false ∧
    fnThere s0.mod .pf = true ∧ modState s0.mod = 0 ∧ bar4Addr s0.mod .pf (hbmTop - 64) 64 = some (hbmTop - 64) ∧ bar4Addr s0.mod .pf hbmTop 64 = none ∧
    inBar4 s0.mod .pf hbmTop 64 = true ∧ inBar4 s0.mod .pf (2 ^ 40) 64 = false ∧
    (∀ n ∈ [0, 128], bar4Held (regs [(rHbmOwn 767, n)]).mod (hbmTop - 64) 64 = (n == 128)) ∧
    (∀ b ∈ [true, false], (fnAt (st [] (fun m => setFn m 12 { FnSt.reset with enabled := b })).mod 12).enabled = b) := by
  and_intros <;> decide +kernel

/-- Cluster 4999 with GAFFER_CL_STAT `v`. -/
def gcl (v : Nat) (l : List (Nat × Nat) := []) (x : ClusterSt := ClusterSt.reset) (f : Mod → Mod := id) : State :=
  st ([(rGafClStat 4999, v), (rPartStat 11, 2 * 2 ^ 28), (rPartBays 11, 2 ^ 39)] ++ l) (fun m => f (setCl m 4999 x))

/-- PowerLadder, a cluster: requests 0, 1, 5 and 6; each phase, quiet and not, with and without forced entry; rungs 4 and 5; a wake latched. -/
theorem met_PowerLadder_cluster : (∀ n ∈ [0, 1, 5, 6], bits (BitVec.ofNat 32 n) 2 0 = n) ∧ fnThere s0.mod .pf = true ∧
    (∀ n ∈ [0, 1, 2, 3], clPhase (gcl (n * 64)).mod 4999 = n ∧ clQuiet (gcl (n * 64)).mod 4999 = true) ∧
    (∀ n ∈ [0, 1], ∀ s ∈ [gcl 64 [(rGafClCtl 4999, n * 16), (rChStat 4999 0, 2 * 2 ^ 28)]], clQuiet s.mod 4999 = false ∧ fld s.mod (rGafClCtl 4999) 4 4 = n ∧
      ∀ c ∈ coresOf 4999, (coreAt s.mod c).state ≠ .running) ∧
    (∃ c ∈ coresOf 4999, (coreAt (gcl 64 [] ClusterSt.reset (fun m => setCore m 79999 { y0 with state := .running })).mod c).state = .running) ∧
    (∀ r ∈ [1, 4, 5], ∀ w ∈ [0, 1], ∀ s ∈ [gcl (128 + 8 * r + 2048 * w)], clPhase s.mod 4999 = 2 ∧ fld s.mod (rGafClStat 4999) 5 3 = r ∧
      fld s.mod (rGafClStat 4999) 11 11 = w ∧ (clAt s.mod 4999).held = none ∧ (clAt s.mod 4999).reload = false) ∧
    (∀ s ∈ [gcl (128 + 40) [] { ClusterSt.reset with reload := true }], clPhase s.mod 4999 = 2 ∧ (clAt s.mod 4999).reload = true) ∧
    (∀ r ∈ [1, 5], ∀ s ∈ [gcl (192 + r)], clPhase s.mod 4999 = 3 ∧ clRung s.mod 4999 = r ∧ partOfCluster s.mod 4999 = some 11 ∧ (clAt s.mod 4999).held = none ∧
      ∀ c ∈ coresOf 4999, (coreAt s.mod c).state = .halted ∧ (coreAt s.mod c).waking = false ∧ (coreAt s.mod c).wait = none ∧ (coreAt s.mod c).wakeDone = false) ∧
    (∀ s ∈ [gcl 0 [(rGafClCtl 4999, 256), (rGafCtl 7, 0x00010100)]], fld s.mod (rGafClCtl 4999) 8 8 = 1 ∧ fld s.mod (rGafCtl 7) 23 16 = 1 ∧
      fld s.mod (rGafCtl 7) 15 8 = 1 ∧ rungBlocked s.mod 4999 = false ∧ clRung s.mod 4999 = 0) ∧
    fld (gcl 0 [(rGafClCtl 4999, 0)]).mod (rGafClCtl 4999) 8 8 = 0 ∧ (clAt (gcl 0 [] { ClusterSt.reset with restCue := some 0xFFFFFFFF }).mod 4999).restCue ≠ none := by
  and_intros <;> decide +kernel

/-- PowerLadder, the module and its dies: each state of standby with a wake and without, thresholds met exactly and missed by one. -/
theorem met_PowerLadder_module : (∀ n ∈ [0, 1, 2, 3], ∀ w ∈ [true, false], ∀ s ∈ [st [(rGafModStat, n)] (fun m => { m with standbyWake := w })],
      modState s.mod = n ∧ s.mod.standbyWake = w) ∧ standbyAllowed (at0 .nop y0).mod = false ∧
    (∀ t ∈ [92 * 16, 92 * 16 - 1, 82 * 16, 82 * 16 + 1], ∀ s ∈ [st [(rGafTherm 7, 0x6E64620A + 0 * t), (rGafTemp 7, t)] (fun m => setGaf m 7 { GafSt.reset with hot := true })],
      hottest s.mod 7 = t ∧ throttleAt s.mod 7 = 92 * 16 ∧ releaseAt s.mod 7 = 82 * 16 ∧ (gafAt s.mod 7).hot = true) ∧ (gafAt s0.mod 7).hot = false := by
  and_intros <;> decide +kernel

/-- No transfers are in flight in a module whose channels' registers are at reset. -/
theorem met_inFlight (m : Mod) (h : ∀ k ch, k < 5000 → ch < 16 → rd m (rChStat k ch) = 0) :
    (List.range 5000).all (fun k => !inFlight m k) = true := by
  rw [List.all_eq_true]
  intro k hk
  have : inFlight m k = false := by
    rw [inFlight, List.any_eq_false]
    intro ch hc
    rw [chState, fld, h k ch (List.mem_range.mp hk) (List.mem_range.mp hc)]
    decide
  rw [this]; rfl

/-- The one register that the ready module has away from its reset value. -/
theorem met_readyRegs : s0.mod.regs = [(rBootStat, 0x20000000)] := by decide +kernel

/-- The channels of the ready module are Off. -/
theorem met_chansOff (k ch : Nat) (hk : k < 5000) (hc : ch < 16) : rd s0.mod (rChStat k ch) = 0 := by
  have n : rChStat k ch ≠ rBootStat := by rw [Laws.rChStat_eq, Laws.clBase_eq, rBootStat]; omega
  rw [rd, met_readyRegs, sget, if_neg n, sget]
  exact Laws.chStat_reset k ch hk hc

/-- Standby may be entered from a module with nothing in progress. -/
theorem met_standbyAllowed : standbyAllowed s0.mod = true := by
  unfold standbyAllowed
  rw [met_inFlight _ met_chansOff, Bool.and_true]
  decide +kernel

/-- A record: kind 1, logical cluster 4999's place. -/
def rec1 (m : Mod) : W64 := put (put (put (put (0 : W64) 63 60 1) 57 54 7) 53 49 24) 48 44 (physicalOf m 4999)

/-- ReliabilityAndTelemetry, repair and screen: records invalid, new, held, and one too many; clusters eligible, held, at the last step. -/
theorem met_Reliability : recValid (recCore 0) = false ∧ recValid (recCore (rec1 s0.mod)) = true ∧ repMap s0.mod = [] ∧
    (∀ s ∈ [st [] (fun m => { m with infield := [rec1 m] })], repMap s.mod = [rec1 s0.mod]) ∧
    (List.replicate 4096 (0 : W64)).length = 4096 ∧ recCore 0 ≠ recCore (rec1 s0.mod) ∧
    (∀ s ∈ [st [(rScrCtl, 5)]], fld s.mod rScrCtl 0 0 = 1 ∧ ∀ j ∈ bayClusters 7 4, (clAt s.mod j).screenHeld = false ∧ screenEligible s.mod j = true ∧
      (clAt s.mod j).lastPass = 0) ∧
    (∀ s ∈ [st [(rScrCtl, 1)]], ∀ j ∈ bayClusters 7 4, screenEligible s.mod j = false) ∧
    (∀ n ∈ [0, 3327, 3328, 3615, 3616], ∀ s ∈ [gcl 0 [] { ClusterSt.reset with screenHeld := true, screenStep := n, screenCue := some 0 }],
      (clAt s.mod 4999).screenHeld = true ∧ clRolling s.mod 4999 = true ∧ (clAt s.mod 4999).screenStep = n ∧ ((n + 1 = passSteps) = (n = 3616)) ∧
      partOfCluster s.mod 4999 = some 11 ∧ (clAt s.mod 4999).screenCue ≠ none) ∧
    recOf s0.mod 4999 (rec1 s0.mod) = true ∧ recKind (rec1 s0.mod) = 1 ∧ stepKind 3327 = 0 ∧
    (∀ s ∈ [gcl 2 [(rPartBays 11, 0)] ClusterSt.reset (fun m => { m with infield := [put (rec1 m) 58 58 1] })], repPending s.mod 4999 = true ∧
      partOfCluster s.mod 4999 = none ∧ rungBlocked s.mod 4999 = false ∧ slotsUsed s.mod 4999 = [] ∧ clPhase s.mod 4999 = 0 ∧ clRung s.mod 4999 = 2) := by
  and_intros <;> decide +kernel

/-- An event. -/
def ev (src code : Byte) (cls : EvClass) : TelemEv := ⟨src, code, cls, []⟩
def te : TelemEntry := ⟨ev 0 1 .error, false, true, 1, 0, 0⟩

/-- ReliabilityAndTelemetry, telemetry: patrol on and off; events of each class; the queue one short of full; rings with space and without. -/
theorem met_Telemetry : (∀ n ∈ [0, 1, 8, 9], fld (regs [(rScrCtl, n)]).mod rScrCtl 3 3 = n / 8 ∧ fld (regs [(rScrCtl, n)]).mod rScrCtl 0 0 = n % 2) ∧
    (∀ n ∈ [0, 1], fld (regs [(rTelCtl, n)]).mod rTelCtl 0 0 = n) ∧
    telemListed (ev 0 1 .trace) = none ∧ telemListed (ev 0x90 1 .warning) = none ∧ telemListed (ev 0 3 .alarm) ≠ none ∧
    (∀ x ∈ [ev 0x80 4 .warning, ev 0x73 2 .error, ev 0x73 1 .trace, ev 0x74 1 .trace], telemListed x = some { x with detail := List.replicate 24 0 }) ∧
    ((0x80 : Byte).toNat % 16 ≠ 3 ∧ (0x80 : Byte).toNat % 16 ≠ 4) ∧ (0x73 : Byte).toNat / 16 = 7 ∧ (0x74 : Byte).toNat % 16 = 4 ∧
    evField { ev 0x74 1 .trace with detail := List.replicate 24 0 } 0 1 < 16 ∧
    (List.replicate 255 te).length < 256 ∧
    (∀ s ∈ [st [] (fun m => { m with modEq := ⟨4, 0, 14, true⟩, telemQ := [te], alarmWait := [[]] })], ringSpace s.mod.modEq = true ∧ s.mod.telemQ = [te] ∧
      s.mod.alarmWait = [[]] ∧ s.mod.evWait = []) ∧
    (∀ s ∈ [st [] (fun m => { m with modEq := ⟨4, 0, 15, true⟩ })], ringSpace s.mod.modEq = false) ∧
    (alarmUnread s0.mod).find? (fun i => (alarmBytes s0.mod i).getD 16 0 == 0) = none ∧
    (∀ s ∈ [st [(rAlTail, 1)]], (alarmUnread s.mod).find? (fun i => (alarmBytes s.mod i).getD 16 0 == 0) = some 0) := by
  and_intros <;> decide +kernel

/-- A module with another boot state. -/
def bt (f : BootSt → BootSt) (l : List (Nat × Nat) := []) : State := st l (fun m => { m with boot := f m.boot })

/-- ResetsAndBoot: each pin asserted and not, 999 and 1000 ns, each reset with its trigger over and not, supplies on and off, temperatures at each threshold. -/
theorem met_ResetsAndBoot : (∀ b ∈ [true, false], (bt (fun x => { x with input := b, perst := b, rstN := b, house := b, dies := b })).mod.boot.perst = b) ∧
    (∀ n ∈ [0, 1, 2], bootState (regs [(rBootStat, n * 2 ^ 28)]).mod = n) ∧
    (∀ t ∈ [1, 2], ∀ src ∈ [1, 2, 3], ∀ s ∈ [bt (fun x => { x with inReset := some (t, src) })], s.mod.boot.inReset = some (t, src) ∧
      triggerOver s.mod.boot src = true ∧ (∀ i, i < 16 → fld s.mod rMemCap i i = 1)) ∧
    triggerOver (bt (fun x => { x with inReset := some (1, 1), rstN := true })).mod.boot 1 = false ∧
    s0.mod.boot.perst = false ∧ bootState s0.mod = 2 ∧ (fnAt s0.mod 12).enabled = false ∧
    (∀ s ∈ [bt (fun x => { x with inReset := some (0, 0), input := false })], s.mod.boot.input = false ∧ s.mod.boot.house = true ∧ s.mod.boot.dies = true ∧
      (s.mod.boot.inReset.map (·.1)) = some 0 ∧ (s.mod.boot.inReset.map (·.2)) ≠ some 2) ∧
    (∀ s ∈ [st [(rGafTherm 7, 0x6E64620A)]], shutAt s.mod 7 = 110 * 16 ∧ tripAt s.mod 7 = 100 * 16 ∧ throttleAt s.mod 7 = 92 * 16 ∧ releaseAt s.mod 7 = 82 * 16) ∧
    fld s0.mod (rCxlStat 3) 8 8 = 0 ∧ fld (regs [(rCxlStat 3, 256)]).mod (rCxlStat 3) 8 8 = 1 ∧
    (([⟨3, 64, 8, 5⟩] : List CxlDev).find? (fun x => x.port.val == 3)).isSome = true := by
  and_intros <;> decide +kernel

/-- ResetsAndBoot: whichever images verify, a boot has an image or none. -/
theorem met_bootImage (b : BootSt) (h0 : Config.fwVerifies b.fw0 = false) (h1 : Config.fwVerifies b.fw1 = false) : bootImage b = none := by
  unfold bootImage; rw [h0, h1]

/-- ManagementInterfaces: house supply and ROM on and off, the lock of the torus, a register of 4 bytes. -/
theorem met_ManagementInterfaces : (∀ h ∈ [true, false], ∀ r ∈ [true, false], ∀ s ∈ [bt (fun x => { x with house := h, rom := r, rstN := r })],
      s.mod.boot.house = h ∧ s.mod.boot.rom = r ∧ s.mod.boot.rstN = r) ∧ fld s0.mod rZwLock 0 0 = 0 ∧ fld (regs [(rZwLock, 1)]).mod rZwLock 0 0 = 1 ∧
    regSize rRstCtl = 4 ∧ rRstCtl % 4 = 0 := by
  and_intros <;> decide +kernel

/-- MeterRecordsAndFrames: the unit supplied and not, open and not, with records and none; MOD_ID undecided and decided; the link up and down. -/
theorem met_MeterRecordsAndFrames : (∀ a ∈ [true, false], ∀ b ∈ [true, false], ∀ d ∈ [{ Mdm.reset with supplied := a, opened := b, caseOpen := b }],
      d.supplied = a ∧ d.opened = b ∧ d.caseOpen = b) ∧ Mdm.reset.records = [] ∧ s0.mod.boot.house = true ∧
    (∀ n ∈ [0, 1, 0xFF], fld (regs [(rModId, n)]).mod rModId 7 0 = n) ∧ (∀ n ∈ [0, 1], fld (regs [(rMtStat, n * 128)]).mod rMtStat 7 7 = n) ∧
    (∀ n ∈ [0, 1, 2], (rd (regs [(rMtSeq, n)]).mod rMtSeq).toNat = n) ∧ (List.replicate 192 (1 : Byte)).length = 192 ∧
    0 < recNat (List.replicate 192 1) 16 8 := by
  and_intros <;> decide +kernel

/-- RegisterAccesses: a function that is not there; bad sizes; a reserved offset; a VF's reach; the lock; a latched half and a latched block. -/
theorem met_RegisterAccesses : fnThere s0.mod .pf = true ∧ fnThere s0.mod (.vf 11) = false ∧ ([2, 3, 5, 0].all (fun n => !([1, 4, 8].contains n))) = true ∧
    1 % 4 ≠ 0 ∧ accessAt 0x3FFFFFC 4 = .reserved ∧ reachMask s0.mod .pf 0x3FFFFFC ≠ none ∧ regSize rRstCtl = 4 ∧
    (∀ s ∈ [st [] (fun m => setFn m 12 { FnSt.reset with enabled := true })], fnThere s.mod (.vf 11) = true ∧ accessAt rRstCtl 4 = .whole rRstCtl ∧
      reachMask s.mod (.vf 11) rRstCtl = none) ∧
    (∀ n ∈ [0, 1], fld (regs [(rGafModLock, n)]).mod rGafModLock 0 0 = n) ∧ fld s0.mod rGafModPcap 15 0 ≠ 0 ∧
    (bar2At 1 = none ∧ bar2At 0x3FFFFFC = none ∧ bar2At rRstCtl = none ∧ modState (ctx cx).mod = 0 ∧ dbReach (ctx cx).mod .pf 5 = true ∧
      dbReach (ctx cx).mod .pf 6 = false ∧ fnThere (ctx cx).mod .pf = true) ∧
    (∀ o ∈ [rPartBar4 11], ∀ s ∈ [st [] (fun m => setFn m 0 { fnAt m 0 with highLatched := [(o, 7)] })],
      (fnAt s.mod 0).highLatched.find? (fun e => e.1 == o) = some (o, 7)) ∧
    (∀ ws, blockOf rRstCtl = some ws → ws.headD 0 ≠ rRstCtl) ∧
    (∀ o ∈ [rPrLast 11 0, rMtRec 0, rAlarm 31 0], ∀ s ∈ [st [] (fun m => setFn m 0 { fnAt m 0 with block := [(o + 56, 7)] })],
      (fnAt s.mod 0).block.find? (fun e => e.1 == o + 8 * 7) = some (o + 8 * 7, 7)) := by
  refine ⟨by decide +kernel, by decide +kernel, by decide +kernel, by decide, by decide +kernel, by decide +kernel, by decide +kernel, by decide +kernel,
    by decide +kernel, by decide +kernel, by decide +kernel, by decide +kernel, ?_, by decide +kernel⟩
  intro ws h
  have : blockOf rRstCtl = none := by decide +kernel
  rw [this] at h; cases h

/-- GuardedWords: an instruction and an undefined word under a guard that reads 0. -/
theorem met_GuardedWords : (∀ s ∈ [at0 .nop y0 (some 2)], (coreAt s.mod 0).pc.toNat ≤ 2047 ∧ mayIssue s.mod 0 = true ∧
      decodeOctix (fetchWord s.mod 0 (coreAt s.mod 0).pc.toNat) = some .nop ∧ (rowOf .nop).isSome = true ∧
      guardFails (coreAt s.mod 0) (fetchWord s.mod 0 (coreAt s.mod 0).pc.toNat) = true) ∧
    (∀ s ∈ [(at0 .nop y0).onMod (fun m => { m with imem := writeList [] 0 (leBytes 8 0x000A000000000000) })],
      decodeOctix (fetchWord s.mod 0 (coreAt s.mod 0).pc.toNat) = none ∧ mayIssue s.mod 0 = true ∧
      guardFails (coreAt s.mod 0) (fetchWord s.mod 0 (coreAt s.mod 0).pc.toNat) = true) ∧
    bit (0x0008000000000000 : W64) 51 = true ∧ bits (0x0008000000000000 : W64) 50 48 = 0 := by
  and_intros <;> decide +kernel

/-- RecordsStayConsecutive: the unit at reset holds no record, and one that has closed one holds it. -/
theorem met_RecordsHeld : RecordsHeld Mdm.reset := by
  unfold RecordsHeld
  simp [Mdm.reset]

/-- OctixRoundTrip: an instruction of each class that R98 allows. -/
theorem met_OctixRoundTrip : ([Octix.nop, .halt 31, .tzero 3, .mfsr 0 0, .dstop 15, .swap, .clap .both 2 15 31].all octixLegal) = true := by decide +kernel

/-- The memories of the module at reset are in their canonical form. -/
theorem reset_memWf : State.reset.mod.memWf := by decide +kernel

/-! ## Well-formedness -/

/-- A request of a requester with a number of beats. -/
def wfR (r beats : Nat) : ArbReq := ⟨r, 0, beats, false, 0, 0, 0, 0, 0, false, none⟩

/-- An ill-formed command for each check of `wellFormed` is refused. -/
theorem test_wellFormed_refuses : ([.registerWrite .pf 0x5000000 4 0, .registerRead .pf 0 9, .blockLatchRead .pf 0 0, .blockLatchRead .pf 0x4000000 8,
    .dlyStrConfigWrite .pf 0 0x100 4 0,
    .mctpReadRegister 2, .mctpReadRegister 0x4000000, .bar4Read (.vf 0) (2 ^ 37) 1, .bar4Read .pf 0 0, .bar4Write .pf 0 [], .granuleOwnerWrite .pf false 768 0,
    .granuleZeroDone false 768, .clRungRequest .pf 0 0, .clRungRequest .pf 0 6, .printEnableWrite .pf 0 0, .dlyStrEnable .pf 0 0, .dlyStrDisable .pf 0 1,
    .memFarCfgLock .pf 0, .arbDecision (.block 0 0) 1 [wfR 10 1], .arbDecision (.block 0 0) 1 [wfR 0 0],
    .arbPreempt (.block 2 0) (wfR 7 1) 0, .arbCancel (.block 6 0) ⟨5, 0⟩ 0 [], .arbCancel (.block 6 0) ⟨0, 0⟩ 0 [wfR 5 1],
    .arbStarveTimeout (.store 0 0) 18 0, .reelSegment 0 [] [], .messageRoute .own (List.replicate 8 0) [0], .linkFrame 0 [], .linkTrainDone 0 17 0 0,
    .exchangeRows 0 ⟨⟨0, 0⟩, 0, 32768, 0⟩ [] 0, .exchangeRows 0 ⟨⟨0, 0⟩, 0, 0, 0⟩ [0] 0, .bulkCopyData 0 0 0 0 0 [0],
    .contribution 0 0 ⟨0, 0, 0, 0, false, 0, false, false, 1, [⟨4, 0, 0, 0⟩]⟩, .telemEvent ⟨0x90, 1, .warning, []⟩, .alarmRaise ⟨0x90, 1, .alarm, []⟩,
    .censusReply 0 0 true ⟨0, 0, 0⟩ [32768], .newGroup 0 0 ⟨0, 0⟩ [32768], .hbmPatrolBurst 0 (2 ^ 30) [] [], .hbmPatrolBurst 0 64 [63] [], .hbmPatrolBurst 0 64 [] [128],
    .wearTick [] (List.replicate 16 0) 0, .wearTick (List.replicate 8 0) [] 0, .bootReady 0 none none (List.replicate 4097 0), .meterFrame [] 0,
    .nvmeInitDone 0 true ⟨65537, 0⟩ 0 [] 0 0, .nvmeInitDone 0 true ⟨0, 65537⟩ 0 [] 0 0] : List Instr).all (fun i => !wellFormed i) = true := by
  decide +kernel

/-- The ends of the ranges are well formed. -/
theorem test_wellFormed_accepts : ([.registerWrite .pf 0x4FFFFFF 8 0, .mctpReadRegister 0x3FFFFFC, .bar4Read (.vf 0) (2 ^ 37 - 1) 1, .granuleZeroDone false 767,
    .clRungRequest .pf 0 1, .clRungRequest .pf 0 5, .arbDecision (.block 0 0) 0 [wfR 9 1], .hbmPatrolBurst 0 64 [64] [127],
    .linkTrainDone 0 16 0 0, .powerOnReset] : List Instr).all wellFormed = true := by
  decide +kernel

/-! ## Decoding: words put together from Table 4.1 and the formats of Table 4.2 -/

/-- The header of a word, unpredicated. -/
def hdr (major minor : Nat) : Nat := major * 2 ^ 58 + minor * 2 ^ 52

/-- Both words of 04_octix_isa.md's first worked example, and the all-zero word (R100). -/
theorem test_decode_example : decodeOctix 0x041A38C0FFFFFFD8 = some (.aluI .add 7 3 0xFFFFFFD8) ∧ guardOf 0x041A38C0FFFFFFD8 = some 2 ∧
    decodeOctix 0x041A38D0FFFFFFD8 = none ∧ decodeOctix 0x3820000000000025 = some (.br 37) ∧ guardOf 0x3820000000000025 = none ∧
    decodeOctix 0 = none := by decide +kernel

/-- 05_tensor_unit.md: `tmma.z.m t2, e4m3, e4m3, ag0, ag1, ag3, ag4, 32`. -/
theorem test_decode_tmma : decodeOctix 0x40108CC16FCF0000 = some (.tmma ⟨2, .e4m3, .e4m3, 0, 1, 3, 4, 31, true, true, true, true, 0⟩) := by decide +kernel

/-- Formats G, I, P, Q: sub, sel, movhi, cltu and cleui. -/
theorem test_decode_scalar : decodeOctix (BitVec.ofNat 64 (hdr 0 2 + 1 * 2 ^ 43 + 2 * 2 ^ 38 + 3 * 2 ^ 33)) = some (.alu .sub 1 2 3) ∧
    decodeOctix (BitVec.ofNat 64 (hdr 2 0xC + 1 * 2 ^ 43 + 2 * 2 ^ 38 + 3 * 2 ^ 33 + 5 * 2 ^ 25)) = some (.sel 1 5 2 3) ∧
    decodeOctix (BitVec.ofNat 64 (hdr 1 0x11 + 31 * 2 ^ 43 + 9)) = some (.mov .movhi 31 9) ∧
    decodeOctix (BitVec.ofNat 64 (hdr 4 4 + 6 * 2 ^ 45 + 2 * 2 ^ 40 + 3 * 2 ^ 35)) = some (.cmp .ltu 6 2 3) ∧
    decodeOctix (BitVec.ofNat 64 (hdr 4 0x16 + 6 * 2 ^ 45 + 2 * 2 ^ 40 + 0xFFFFFFFF)) = some (.cmpI .leu 6 2 0xFFFFFFFF) ∧
    decodeOctix (BitVec.ofNat 64 (hdr 3 5 + 64)) = none := by decide +kernel

/-- Formats M, X, C, N: ld.bu, st.d by a generator, mtsr, cp and push. -/
theorem test_decode_memory : decodeOctix (BitVec.ofNat 64 (hdr 5 2 + 1 * 2 ^ 43 + 2 * 2 ^ 38 + 4)) = some (.ld .b false 1 (.reg 2) 4) ∧
    decodeOctix (BitVec.ofNat 64 (hdr 5 0x14 + 1 * 2 ^ 43 + 2 ^ 37 + 7 * 2 ^ 34)) = some (.st .d 1 (.gen 7) 0) ∧
    decodeOctix (BitVec.ofNat 64 (hdr 5 0x14 + 1 * 2 ^ 43 + 2 * 2 ^ 38 + 2 ^ 37 + 7 * 2 ^ 34)) = none ∧
    decodeOctix (BitVec.ofNat 64 (hdr 6 2 + 3 * 2 ^ 43 + 0x0A7)) = some (.mtsr (fin 4096 0x0A7) 3) ∧
    decodeOctix (BitVec.ofNat 64 (hdr 8 1 + 1 * 2 ^ 43 + 2 * 2 ^ 38 + 3 * 2 ^ 33)) = some (.cp (.reg 1) (.reg 2) 3) ∧
    decodeOctix (BitVec.ofNat 64 (hdr 9 1 + 1 * 2 ^ 43 + 3 * 2 ^ 33 + 15 * 2 ^ 28 + 2 ^ 27 + 6 * 2 ^ 24)) = some (.push 15 1 (.gen 6) 3) := by decide +kernel

/-- Formats B, L, S, E, W: halt, loop, clap.a, ev.test, wait.cr and wait.vd; move classes vext and tst. -/
theorem test_decode_control : decodeOctix (BitVec.ofNat 64 (hdr 0xE 6 + 3 * 2 ^ 43)) = some (.halt 3) ∧
    decodeOctix (BitVec.ofNat 64 (hdr 0xE 5 + 3 * 2 ^ 43 + 2047)) = some (.loop 3 2047) ∧
    decodeOctix (BitVec.ofNat 64 (hdr 0xC 2 + 2 * 2 ^ 46 + 15 * 2 ^ 42 + 4 * 2 ^ 37)) = some (.clap .arrive 2 15 4) ∧
    decodeOctix (BitVec.ofNat 64 (hdr 0xC 2 + 3 * 2 ^ 46)) = none ∧
    decodeOctix (BitVec.ofNat 64 (hdr 0xD 4 + 31 * 2 ^ 40 + 7 * 2 ^ 37)) = some (.evTest 7 .cluster 31) ∧
    decodeOctix (BitVec.ofNat 64 (hdr 0xD 0x11 + 15 * 2 ^ 43 + 0xFFFF)) = some (.waitCr 15 0xFFFF) ∧
    decodeOctix (BitVec.ofNat 64 (hdr 0xD 0x21 + 7 * 2 ^ 35)) = some (.waitVd 7) ∧
    decodeOctix (BitVec.ofNat 64 (hdr 0xA 5 + 1 * 2 ^ 43 + 15 * 2 ^ 38 + 3)) = some (.vext 1 15 3) ∧
    decodeOctix (BitVec.ofNat 64 (hdr 0xA 4 + 3 * 2 ^ 43 + 2 * 2 ^ 38 + 1024)) = some (.tst 3 (.reg 2) 1024) := by decide +kernel

/-- Format V: vfma v1, v2, v3, v4, and vadd with the broadcast of s31. -/
theorem test_decode_vector : (match decodeOctix (BitVec.ofNat 64 (hdr 0x18 4 + 1 * 2 ^ 44 + 2 * 2 ^ 40 + 3 * 2 ^ 36 + 4 * 2 ^ 32)) with
      | some (.vec .vfma f) => f.vd == 1 && f.va == 2 && f.vb == 3 && f.vc == 4 | _ => false) = true ∧
    (match decodeOctix (BitVec.ofNat 64 (hdr 0x18 1 + 1 * 2 ^ 44 + 2 * 2 ^ 40 + 31 * 2 ^ 17 + 2 ^ 14)) with
      | some (.vec .vadd f) => f.vd == 1 && f.va == 2 && f.bs && f.s == 31 | _ => false) = true ∧
    decodeOctix (BitVec.ofNat 64 (hdr 0x18 1 + 3 * 2 ^ 36 + 2 ^ 14)) = none := by decide +kernel

/-- Formats V and D: an undefined minor of each class is refused, and darm is channel arm. -/
theorem test_decode_dolly : decodeOctix (BitVec.ofNat 64 (hdr 0x20 1 + 15 * 2 ^ 44)) = some (.darm 15) ∧
    decodeOctix (BitVec.ofNat 64 (hdr 0x20 1 + 15 * 2 ^ 44 + 1)) = none ∧ decodeOctix (BitVec.ofNat 64 (hdr 0x23 1)) = none ∧
    decodeOctix (BitVec.ofNat 64 (hdr 0x07 1)) = none ∧ decodeOctix (BitVec.ofNat 64 (hdr 0x3F 0)) = none := by decide +kernel

/-! ## Effects -/

/-- The module after a command. -/
def after (i : Instr) (s : State) : Machine.Mod := match exec i s with | .next t => t.mod | _ => Machine.Mod.reset

/-- R107: division rounds toward zero (-7 by 2 is -3), and division by zero gives all ones. -/
theorem test_div_rounds : (∀ n ∈ [(2, 0xFFFFFFFFFFFFFFFD), (0, 0xFFFFFFFFFFFFFFFF)],
    (rs (coreAt (after (.div 0) (at0 (.alu .div 3 1 2) (yS [(1, 0xFFFFFFFFFFFFFFF9), (2, BitVec.ofNat 64 n.1)]))) 0) 3).toNat = n.2) := by
  decide +kernel

/-- R65: s0 reads 0 after an add that names it. -/
theorem test_add_s0 : rs (coreAt (after (.add 0) (at0 (.alu .add 0 1 1) (yS [(1, 5)]))) 0) 0 = 0 := by decide +kernel

/-- R80, R100: the all-zero word raises fault 0x01. -/
theorem test_illegal_word : (coreAt (after (.illegalWord 0) ((at0 .nop y0).onMod (fun m => { m with imem := [] }))) 0).state = .faulted := by
  decide +kernel

/-- R471: a byte-sized read of a 4-byte register is a bad access. -/
theorem test_bad_access : fld (after (.registerRead .pf rRstCtl 2) s0) rModErr 2 2 = 1 := by decide +kernel

/-- R480: a warm reset begins a boot. -/
theorem test_warm_reset : bootState (after (.modRstCmdWarm .pf) s0) = 1 := by decide +kernel

/-- The queue: a step takes the command in front, and none idles. -/
theorem test_step_front : (match step { s0 with pending := [.registerRead .pf rRstCtl 2, .powerOnReset] } with
    | .next t => t.pending == [.powerOnReset] | _ => false) = true := by decide +kernel

/-- A left fold that has its number before it goes on, for the kernel's sake. -/
def foldN {α : Type} (f : Nat → α → Nat) : List α → Nat → Nat
  | [], a => a
  | b :: l, 0 => foldN f l (f 0 b)
  | b :: l, n + 1 => foldN f l (f (n + 1) b)

theorem foldl_eq_foldN {α : Type} (f : Nat → α → Nat) (l : List α) (a : Nat) : l.foldl f a = foldN f l a := by
  induction l generalizing a with
  | nil => rfl
  | cons b l ih => cases a <;> exact ih _

/-- The CRC of a frame whose flits are zeros. -/
theorem frame_crc (l : List Byte) : crc32 (List.replicate 1280 0 ++ l) = Nat.xor (foldN crc32Byte l (foldN crc32Byte (List.replicate 1280 0) 0xFFFFFFFF)) 0xFFFFFFFF := by
  rw [crc32, List.foldl_append, foldl_eq_foldN, foldl_eq_foldN]

/-- A byte of a frame that begins with zeros. -/
theorem getD_zeros (n k : Nat) (l : List Byte) (h : k < n) : (List.replicate n (0 : Byte) ++ l).getD k 0 = 0 := by
  simp [List.getD_eq_getElem?_getD, List.getElem?_append_left, h]

theorem frameCode_zeros (n : Nat) (hn : n = 1280) (l : List Byte) (c : Nat) (h : c < 8) : frameCode (List.replicate n 0 ++ l) c =
    List.replicate 160 0 ++ ((List.range 4).map (fun i => (l.getD (c + 8 * i) 0).toNat) ++
      (List.range 4).map (fun i => (l.getD (32 + 4 * c + i) 0).toNat)) := by
  have e : ∀ k, n ≤ k → (List.replicate n (0 : Byte) ++ l).getD k 0 = l.getD (k - n) 0 := by
    intro k hk
    simp [List.getD_eq_getElem?_getD, List.getElem?_append_right, hk]
  have z : (List.range 160).map (fun i => ((List.replicate n (0 : Byte) ++ l).getD (c + 8 * i) 0).toNat) = List.replicate 160 0 := by
    rw [List.eq_replicate_iff]
    refine ⟨by simp, ?_⟩
    intro b hb
    obtain ⟨i, hi, rfl⟩ := List.mem_map.1 hb
    have := List.mem_range.1 hi
    rw [getD_zeros _ _ _ (by omega)]; rfl
  have q (k j : Nat) (hk : n ≤ k) (hj : k - n = j) : ((List.replicate n (0 : Byte) ++ l).getD k 0).toNat = (l.getD j 0).toNat := by
    rw [e k hk, hj]
  have r : List.range 164 = List.range 160 ++ [160, 161, 162, 163] := by decide +kernel
  have r4 : List.range 4 = [0, 1, 2, 3] := by decide
  rw [frameCode, r, List.map_append, z, List.append_assoc, r4]
  simp only [List.map_cons, List.map_nil]
  rw [q (c + 8 * 160) (c + 8 * 0) (by omega) (by omega), q (c + 8 * 161) (c + 8 * 1) (by omega) (by omega), q (c + 8 * 162) (c + 8 * 2) (by omega) (by omega),
    q (c + 8 * 163) (c + 8 * 3) (by omega) (by omega), q (1312 + 4 * c + 0) (32 + 4 * c + 0) (by omega) (by omega),
    q (1312 + 4 * c + 1) (32 + 4 * c + 1) (by omega) (by omega), q (1312 + 4 * c + 2) (32 + 4 * c + 2) (by omega) (by omega),
    q (1312 + 4 * c + 3) (32 + 4 * c + 3) (by omega) (by omega)]

theorem rsSyn_zeros (j n : Nat) (l : List Nat) : rsSyn j (List.replicate n 0 ++ l) = rsSyn j l := by
  have h : ∀ x, gfMul 0 x = 0 := by
    intro x
    simp [gfMul, gfMulGo]
  simp only [rsSyn, List.foldl_append]
  congr 1
  induction n with
  | zero => rfl
  | succ n ih => simpa [List.replicate_succ, h] using ih

theorem getD_map_range {α : Type} (f : Nat → α) (d : α) (n i : Nat) (h : i < n) : ((List.range n).map f).getD i d = f i := by
  simp [List.getD_eq_getElem?_getD, h]

/-- A frame that begins with zeros and whose codewords have no error. -/
theorem frameFix_zeros (n : Nat) (hn : n = 1280) (l : List Byte) (h : ∀ c, c < 8 → ∀ j, j < 4 → rsSyn j (frameCode (List.replicate n 0 ++ l) c) = 0)
    (hl : 32 ≤ l.length) : frameFix (List.replicate n 0 ++ l) = some (List.replicate n 0 ++ l.take 32, 0) := by
  have e : ∀ c, c < 8 → rsDecode (frameCode (List.replicate n 0 ++ l) c) = some (frameCode (List.replicate n 0 ++ l) c, 0) := by
    intro c hc
    simp only [rsDecode, h c hc 0 (by decide), h c hc 1 (by decide), h c hc 2 (by decide), h c hc 3 (by decide), and_self, if_true]
  have hm : (List.range 8).mapM (fun c => rsDecode (frameCode (List.replicate n 0 ++ l) c)) =
      some ((List.range 8).map (fun c => (frameCode (List.replicate n 0 ++ l) c, 0))) := by
    have r : List.range 8 = [0, 1, 2, 3, 4, 5, 6, 7] := by decide
    generalize frameCode (List.replicate n 0 ++ l) = F at e
    rw [r]
    simp [List.mapM_cons, e]
  rw [frameFix, hm]
  simp only [List.map_map]
  have hd : (List.range 1312).map (fun i => BitVec.ofNat 8
      ((((List.range 8).map (fun c => (frameCode (List.replicate n 0 ++ l) c, 0))).getD (i % 8) ([], 0)).1.getD (i / 8) 0)) =
      List.replicate n 0 ++ l.take 32 := by
    refine List.ext_getElem (by rw [List.length_map, List.length_range, List.length_append, List.length_replicate, List.length_take]; omega) ?_
    intro i hi hj
    rw [List.length_map, List.length_range] at hi
    have h8 : i % 8 < 8 := Nat.mod_lt _ (by decide)
    have h164 : i / 8 < 164 := by omega
    have e2 : i % 8 + 8 * (i / 8) = i := Nat.mod_add_div i 8
    have hlen : i < (List.replicate n (0 : Byte) ++ l).length := by
      rw [List.length_append, List.length_replicate]; omega
    have ht : (List.replicate n (0 : Byte) ++ l.take 32)[i] = (List.replicate n (0 : Byte) ++ l)[i] := by
      by_cases hz : i < n
      · rw [List.getElem_append_left (by rw [List.length_replicate]; exact hz), List.getElem_append_left (by rw [List.length_replicate]; exact hz)]
      · rw [List.getElem_append_right (by rw [List.length_replicate]; omega), List.getElem_append_right (by rw [List.length_replicate]; omega),
          List.getElem_take]
    rw [ht, List.getElem_map, List.getElem_range, getD_map_range _ _ _ _ h8, frameCode, List.getD_eq_getElem?_getD, List.getElem?_append_left (by
      rw [List.length_map, List.length_range]; exact h164), ← List.getD_eq_getElem?_getD, getD_map_range _ _ _ _ h164, e2, List.getD_eq_getElem?_getD, List.getElem?_eq_getElem hlen]
    rw [Option.getD_some, BitVec.ofNat_toNat, BitVec.setWidth_eq]
  have hn0 : (List.foldl (· + ·) 0 ((List.range 8).map ((·.2) ∘ fun c => (frameCode (List.replicate n 0 ++ l) c, 0)))) = 0 := by
    have r : List.range 8 = [0, 1, 2, 3, 4, 5, 6, 7] := by decide
    rw [r]; rfl
  rw [hd]
  exact congrArg (fun x => some (List.replicate n 0 ++ l.take 32, x)) hn0

/-- A frame whose flits are zeros: its control area, CRC and parity are `l`. -/
theorem frameData_zeros (n : Nat) (hn : n = 1280) (l : List Byte) (hl : l.length = 64)
    (h : ∀ c, c < 8 → ∀ j, j < 4 → rsSyn j (frameCode (List.replicate n 0 ++ l) c) = 0) :
    frameData (List.replicate n 0 ++ l) =
      if crc32 (List.replicate n 0 ++ l.take 28) = leNat ((l.take 32).drop 28) then some (List.replicate n 0 ++ l.take 32, 0) else none := by
  rw [frameData, frameFix_zeros n hn l h (by omega)]
  have h1 : (List.replicate n (0 : Byte) ++ l.take 32).take 1308 = List.replicate n 0 ++ l.take 28 := by
    rw [List.take_append, List.length_replicate, List.take_of_length_le (by rw [List.length_replicate]; omega), List.take_take, hn]
    rfl
  have h2 : (List.replicate n (0 : Byte) ++ l.take 32).drop 1308 = (l.take 32).drop 28 := by
    rw [List.drop_append, List.length_replicate, List.drop_eq_nil_of_le (by rw [List.length_replicate]; omega), List.nil_append, hn]
  have h3 : (List.replicate n (0 : Byte) ++ l).length = 1344 := by rw [List.length_append, List.length_replicate]; omega
  simp only [h1, h2, h3, true_and]

/-- What follows the flits of a frame of idle slots that carries nothing: its control area, CRC and the parity of its codewords
(R315, R316; put together outside the model). -/
def tail0 : List Byte := List.replicate 28 0 ++ [184, 159, 31, 156] ++ List.replicate 16 0 ++
  [166, 102, 89, 33, 118, 106, 151, 20, 165, 104, 65, 147, 103, 48, 31, 212]

/-- The same of a frame that asks for the frames after number 0 again. -/
def tailNak : List Byte := List.replicate 15 0 ++ [32] ++ List.replicate 12 0 ++ [77, 212, 97, 47] ++ List.replicate 16 0 ++
  [172, 66, 9, 170, 248, 156, 147, 35, 21, 185, 168, 101, 231, 65, 87, 254]

theorem frame_tail (n : Nat) (hn : n = 1280) (l : List Byte) (h : l = tail0 ∨ l = tailNak) :
    frameData (List.replicate n 0 ++ l) = some (List.replicate n 0 ++ l.take 32, 0) := by
  have hs : ∀ c, c < 8 → ∀ j, j < 4 → rsSyn j (frameCode (List.replicate n 0 ++ l) c) = 0 := by
    intro c hc j hj
    rw [frameCode_zeros n hn _ _ hc, rsSyn_zeros]
    rcases h with rfl | rfl <;> (revert j hj; revert c hc; decide +kernel)
  rw [frameData_zeros n hn _ (by rcases h with rfl | rfl <;> decide) hs, if_pos]
  subst hn; rw [frame_crc]
  rcases h with rfl | rfl <;> decide +kernel

theorem zeros_rejected (n : Nat) (hn : n = 1280) : frameData (List.replicate n 0 ++ List.replicate 64 0) = none := by
  have hs : ∀ c, c < 8 → ∀ j, j < 4 → rsSyn j (frameCode (List.replicate n 0 ++ List.replicate 64 0) c) = 0 := by
    intro c hc j hj
    rw [frameCode_zeros n hn _ _ hc, rsSyn_zeros]
    revert j hj; revert c hc; decide +kernel
  rw [frameData_zeros n hn _ (by decide) hs, if_neg]
  subst hn; rw [frame_crc]; decide +kernel

/-- Port 5 of a module at (0, 0, 0) in a torus of 4 x 4 x 4, in a state, with hidden state `x`. -/
def port (n : Nat) (x : PortSt := PortSt.reset) (l : List (Nat × Nat) := []) (f : Mod → Mod := id) : State :=
  st ([(rTopo, 3 * 2 ^ 15 + 3 * 2 ^ 20 + 3 * 2 ^ 25), (rPortStat 5, n)] ++ l) (fun m => f (setPort m 5 x))

/-- PortStates: every state of a port, committed to sleep and not; the peer that the torus gives and another. -/
theorem met_PortStates : (∀ n ∈ [1, 2, 3, 4, 5], ∀ b ∈ [true, false], ∀ s ∈ [port n { PortSt.reset with committed := b }], portState s.mod 5 = n ∧
      (portAt s.mod 5).committed = b ∧ NoCensusOver s.mod 5) ∧ peerOk (port 1).mod 5 (3 * 2 ^ 10) 4 = true ∧ peerOk (port 1).mod 5 (3 * 2 ^ 10) 5 = false ∧
    fnThere s0.mod .pf = true := by
  unfold NoCensusOver; and_intros <;> decide +kernel

/-- FramesAndRoutes, frames: a frame in order and out of order, one that asks for a replay of one that is kept, and one with a wrong CRC
with 14 rejected before it. -/
theorem met_FramesAndRoutes_frames : (∃ bs d n, frameData bs = some (d, n) ∧ nbits (leNat (d.drop 1280)) 125 125 = 0 ∧
      nbits (leNat (d.drop 1280)) 155 152 = 0 ∧ nbits (leNat (d.drop 1280)) 111 100 = 0) ∧
    (∃ bs d n, frameData bs = some (d, n) ∧ nbits (leNat (d.drop 1280)) 125 125 = 1 ∧ nbits (leNat (d.drop 1280)) 155 152 ≠ 5 ∧
      nbits (leNat (d.drop 1280)) 123 112 = 0) ∧ (∃ bs, frameData bs = none) ∧
    (∀ s ∈ [port 3 { PortSt.reset with rxSeq := 4095, rejects := 14 }], (portAt s.mod 5).rxSeq = 4095 ∧ (portAt s.mod 5).rejects + 1 < 16 ∧
      portState s.mod 5 = 3) ∧
    (∀ s ∈ [port 3 { PortSt.reset with kept := [(1, [])] }], (portAt s.mod 5).rxSeq = 0 ∧ keptAfter (portAt s.mod 5) 0 ≠ [] ∧
      (portAt s.mod 5).nakAt = 0 ∧ (portAt s.mod 5).nakCount + 1 < 8 ∧ portState s.mod 5 = 3) := by
  refine ⟨⟨_, _, _, frame_tail 1280 rfl _ (.inl rfl), ?_⟩, ⟨_, _, _, frame_tail 1280 rfl _ (.inr rfl), ?_⟩, ⟨_, zeros_rejected 1280 rfl⟩, ?_⟩ <;>
    decide +kernel

/-- A head flit of type `t` for partition `p` of the module at `dst`, with `n` body flits, on the virtual channel of the type. -/
def head (t p dst n : Nat) : Head :=
  [BitVec.ofNat 64 (dst + (typeVc (BitVec.ofNat 8 t).toNat).getD 0 * 2 ^ 30 + t * 2 ^ 32 + n * 2 ^ 40 + p * 2 ^ 51), 0, 0, 0, 0, 0, 0, 0]

/-- FramesAndRoutes, messages: malformed and well formed; for this module Ready and asleep, enabled and not; for another with a route and without. -/
theorem met_FramesAndRoutes_messages : malformed (head 0xFF 0 0 0) [] ∧ ¬ malformed (head 0x20 11 0 0) [] ∧
    ¬ malformed (head 0x20 0 1 1024) (List.replicate 65536 0) ∧ nextDim (port 3).mod 0 = none ∧ modState (port 3).mod = 0 ∧
    modState (port 3 PortSt.reset [(rGafModStat, 2)]).mod = 2 ∧ notEnabled (port 3).mod 0x20 11 = true ∧
    notEnabled (port 3 PortSt.reset [(rGrpCtl 11, 1)]).mod 0x20 11 = false ∧ nextDim (port 3).mod (3 * 2 ^ 10) = some 2 ∧
    (∀ q ∈ [ArrivePort.own, .port 4 true, .port 0 false], outputOf (port 3).mod q (3 * 2 ^ 10) 2 ≠ none ∧ outputOf (port 1).mod q (3 * 2 ^ 10) 2 = none) ∧
    bits ((head 0x01 0 0 0).getD 0 0) 39 32 = 1 ∧ ¬ malformed (head 0x01 0 (3 * 2 ^ 10) 0) [] ∧
    (∀ s ∈ [port 3], portUsable s.mod 5 = true ∧ portUsable s.mod 4 = false) ∧
    (∀ b ∈ [true, false], bit (rd (port 3 PortSt.reset [(rLinemap 2, 2 ^ 31 * b2n b)]).mod (rLinemap 2)) 31 = b) := by
  unfold malformed; and_intros <;> decide +kernel

/-- LinkSleep: each state of the handshake, with an empty queue and with a message that waits. -/
theorem met_LinkSleep : (∀ n ∈ [3, 4], ∀ a ∈ [true, false], ∀ b ∈ [true, false], ∀ c ∈ [true, false],
      ∀ s ∈ [port n { PortSt.reset with requested := a, committed := b, exiting := b, busy := a, asked := c } [(rPortCtl 5, 0x102)]],
      portState s.mod 5 = n ∧ (portAt s.mod 5).requested = a ∧ (portAt s.mod 5).committed = b ∧ (portAt s.mod 5).exiting = b ∧ (portAt s.mod 5).asked = c ∧
      (portAt s.mod 5).again = [] ∧ portQuiet s.mod 5 = true ∧ fld s.mod (rPortCtl 5) 1 1 = 1 ∧ fld s.mod (rPortCtl 5) 23 8 = 1) ∧
    portQuiet (port 3 PortSt.reset [] (fun m => { m with tx := [⟨5, false, [], [], 0, false⟩] })).mod 5 = false := by
  and_intros <;> decide +kernel

/-- Partition 11's group in a state, its box the whole torus, port 5 Up; the anchor here or at coordinate 1. -/
def grp (n : Nat) (here : Bool) (g : GroupSt := GroupSt.reset) (l : List (Nat × Nat) := []) (f : Mod → Mod := id) : State :=
  port 3 PortSt.reset ([(rGrpCtl 11, 0x00070051), (rGrpStat 11, n), (rGrpAnchor 11, if here then 0 else 1), (rGrpEpoch 11, 5),
    (rGrpBox 11, 3 * 2 ^ 15 + 3 * 2 ^ 20 + 3 * 2 ^ 25)] ++ l) (fun m => f (setGrp m 11 g))

/-- GroupCensus: groups Off, Forming, Formed, Reforming and Held, at the anchor and away from it, of this epoch and another; a census that is
known and a new one, with ports to go on over; a reply that is not the last; a message not acknowledged. -/
theorem met_GroupCensus : (∀ n ∈ [0, 1, 2, 3, 4], ∀ b ∈ [true, false], ∀ s ∈ [grp n b { GroupSt.reset with members := [0, 3 * 2 ^ 10], wave := 8 }],
      fld s.mod (rGrpCtl 11) 0 0 = 1 ∧ grpState s.mod 11 = n ∧ grpId s.mod 11 = 7 ∧
      grpAnchorHere s.mod 11 = b ∧ grpEpoch s.mod 11 = 5 ∧ boxPorts s.mod 11 = [5] ∧ (grpAt s.mod 11).warm = false ∧ (grpAt s.mod 11).wave = 8 ∧
      (grpAt s.mod 11).parent.any (portUsable s.mod) = false ∧ (n = 1 ∨ n = 2 ∨ n = 3 → censusPorts s.mod 11 (some 4) = [5])) ∧
    fld s0.mod (rGrpCtl 11) 0 0 = 0 ∧
    (∀ s ∈ [grp 2 false { GroupSt.reset with parent := some 5, wave := 8 }], (grpAt s.mod 11).wave = 8 ∧
      (grpAt s.mod 11).parent.any (portUsable s.mod) = true) ∧
    (∀ w ∈ [true, false], ∀ s ∈ [grp 2 false { GroupSt.reset with censusOpen := true, awaiting := [4, 5], wave := 8, warm := w }],
      (grpAt s.mod 11).censusOpen = true ∧ 5 ∈ (grpAt s.mod 11).awaiting ∧ (grpAt s.mod 11).awaiting.erase 5 ≠ [] ∧ (grpAt s.mod 11).warm = w ∧
      (grpAt s.mod 11).wave = 8 ∧ grpId s.mod 11 = 7 ∧ grpEpoch s.mod 11 = 5) ∧
    (∀ s ∈ [grp 2 false GroupSt.reset [] (fun m => { m with unacked := [(7, ⟨5, false, [], [], 0, false⟩)] })],
      s.mod.unacked.find? (fun u => u.1 == 7 && u.2.port == 5) = some (7, ⟨5, false, [], [], 0, false⟩) ∧ portUsable s.mod 5 = true) := by
  and_intros <;> decide +kernel

/-- Context 5 of `mapped` belongs to partition 11, whose page table and pages are. -/
def mapped11 (m : Mod) : Mod := let m := mapped m; wrN (setCtx m 5 { ctxAt m 5 with part := 11 }) (rHbmOwn 0) 11

/-- GroupFormation: a map that translates and one that does not; every state, at the anchor and away; the parent, a lost link, the phase of the
print engine; messages of this group and epoch and of another. -/
theorem met_GroupFormation : (∀ e ∈ [(0, true), (0x40000000, false)], ∀ b ∈ [true, false], ∀ s ∈ [grp 0 b GroupSt.reset [(rGrpMap 11, e.1)] mapped11],
      (grpState s.mod 11 == 0 && fld s.mod (rGrpCtl 11) 0 0 == 1 && ctxOf s.mod (fld s.mod (rGrpCtl 11) 15 4) 11 &&
        rangeMapped s.mod (fld s.mod (rGrpCtl 11) 15 4) (fld s.mod (rGrpMap 11) 56 12 * 4096) 4096) = e.2 ∧
      rangeBusy s.mod (fld s.mod (rGrpCtl 11) 15 4) (fld s.mod (rGrpMap 11) 56 12 * 4096) 4096 false = false ∧
      grpAnchorHere s.mod 11 = b ∧ boxPorts s.mod 11 ≠ []) ∧ (∀ n ∈ [1, 2, 3, 4], grpState (grp n true).mod 11 = n) ∧
    (∀ n ∈ [0, 1, 3], ∀ s ∈ [grp n false { GroupSt.reset with parent := some 5 }], grpState s.mod 11 = n ∧ grpAnchorHere s.mod 11 = false ∧
      (grpAt s.mod 11).parent = some 5 ∧ prPhase s.mod 11 = 0 ∧ (prAt s.mod 11).joined = false ∧ grpId s.mod 11 = 7 ∧
      epochOld s.mod 11 5 = false) ∧
    (∀ n ∈ [2, 3], ∀ s ∈ [grp n false], fld s.mod (rGrpCtl 11) 0 0 = 1 ∧ grpMatch s.mod 11 ⟨7, 5⟩ = true ∧ grpMatch s.mod 11 ⟨7, 6⟩ = false) ∧
    (∀ s ∈ [grp 2 false { GroupSt.reset with members := [0, 2 ^ 10] }], neighbour s.mod 4 ∈ (grpAt s.mod 11).members ∧ portUsable s.mod 4 = false) := by
  and_intros <;> decide +kernel

end Sys2Proof.Tests
end

section
/-!
PROOFS. Words under a guard that reads 0 (R66), obligation O55.

The idea: every row of the opcode table runs its core through `issue`, with a table of effects that takes the instructions of that row
(`Takes`). So the guard is looked at in one place, and `issue_guard` speaks for every row. That every word that decodes has a row comes
from what the decoder keeps (R98).
-/
namespace Sys2Proof.Machine

/-! ## What the decoder keeps (R98) -/

/-- What a decoder answers passes the check of R98. -/
def AnswersLegal (d : Option Octix) : Prop := ∀ o, d = some o → octixLegal o = true

@[simp] theorem answersLegal_none : AnswersLegal none := fun _ h => nomatch h

@[simp] theorem answersLegal_keep (b : Bool) (i : Octix) : AnswersLegal (keep b i) := by
  intro o h
  unfold keep at h
  split at h
  · next hb => cases h; exact (Bool.and_eq_true_iff.1 hb).2
  · cases h

@[simp] theorem answersLegal_decodeM (w : W64) (lim : Nat) (k : Nat → Base → W32 → Octix) : AnswersLegal (decodeM w lim k) := by
  unfold decodeM
  split <;> simp

/-- Every branch of a class's decoder ends in `keep`, in `decodeM` or in nothing; so in each class below. -/
@[simp] theorem answersLegal_decodeScalar (w : W64) (major minor : Nat) : AnswersLegal (decodeScalar w major minor) := by
  unfold decodeScalar
  (repeat' split) <;> simp

@[simp] theorem answersLegal_decodeMove (w : W64) (major minor : Nat) : AnswersLegal (decodeMove w major minor) := by
  unfold decodeMove
  dsimp only
  (repeat' split) <;> simp

@[simp] theorem answersLegal_decodeSync (w : W64) (major minor : Nat) : AnswersLegal (decodeSync w major minor) := by
  unfold decodeSync
  dsimp only
  (repeat' split) <;> simp

@[simp] theorem answersLegal_decodeTensor (w : W64) (major minor : Nat) : AnswersLegal (decodeTensor w major minor) := by
  unfold decodeTensor
  (repeat' split) <;> simp

@[simp] theorem answersLegal_decodeVector (w : W64) (major minor : Nat) : AnswersLegal (decodeVector w major minor) := by
  unfold decodeVector
  split <;> simp

@[simp] theorem answersLegal_decodeDolly (w : W64) (major minor : Nat) : AnswersLegal (decodeDolly w major minor) := by
  unfold decodeDolly
  split <;> simp

/-- A word decodes only to what R98 allows. -/
theorem answersLegal_decodeOctix (w : W64) : AnswersLegal (decodeOctix w) := by
  unfold decodeOctix
  dsimp only
  (repeat' split) <;> simp

/-- What R98 allows belongs to a row: it names no immediate form and no load that the opcode table lacks. -/
theorem rowOf_ne_none {o : Octix} (h : octixLegal o = true) : rowOf o ≠ none := by
  cases o with
  | aluI op d a imm => cases op <;> simp_all [octixLegal, rowOf, aluIRowOf]
  | ld sz sg d base off => cases sz <;> cases sg <;> simp_all [octixLegal, rowOf, loadRowOf]
  | _ => simp [rowOf]

/-! ## The rows -/

/-- In the state, the command is an issue cycle of core `c` with a table of effects that takes `o`. -/
def Takes (i : Instr) (s : State) (c : Nat) (o : Octix) : Prop :=
  ∃ eff f, exec i s = .next { s with mod := issue c eff s.mod } ∧ eff o = some f

theorem exec_nop (c : Core) (s : State) : exec (.nop c) s = .next { s with mod := nopRow c.val s.mod } := rfl

theorem exec_illegalWord (c : Core) (s : State) : exec (.illegalWord c) s = .next { s with mod := illegalRow c.val s.mod } := rfl

/-- At a word that decodes, the row of nop is an issue cycle like any other. -/
theorem takes_nop {s : State} {c : Core} (hd : decodeOctix (fetchWord s.mod c.val (coreAt s.mod c.val).pc.toNat) ≠ none) :
    Takes (.nop c) s c.val .nop := by
  unfold Takes
  rw [exec_nop, nopRow, if_neg (fun ⟨_, _, hn, _⟩ => hd (Option.isNone_iff_eq_none.1 hn))]
  exact ⟨_, _, rfl, rfl⟩

/-- The row of an instruction takes it, at a word that decodes to it: where several operations share a row's code, the row's table takes
its own operation. -/
theorem takes_rowOf {s : State} {c : Core} {o : Octix} {row : Core → Instr}
    (hd : decodeOctix (fetchWord s.mod c.val (coreAt s.mod c.val).pc.toNat) = some o) (hr : rowOf o = some row) :
    Takes (row c) s c.val o := by
  cases o with
  | alu op | count op | mov op | cmp op | cmpI op | pred op | st op | clap op | ev op | tset op | vec op =>
    cases hr
    cases op <;> exact ⟨_, _, rfl, if_pos rfl⟩
  | aluI op => cases op <;> cases hr <;> exact ⟨_, _, rfl, if_pos rfl⟩
  | ld sz sg => cases sz <;> cases sg <;> cases hr <;> exact ⟨_, _, rfl, if_pos ⟨rfl, rfl⟩⟩
  | nop => cases hr; exact takes_nop (by simp [hd])
  | _ => cases hr; exact ⟨_, _, rfl, rfl⟩

/-! ## A guard that reads 0 -/

/-- The row of the word's instruction, under a guard that reads 0: one cycle, and the core goes on. -/
theorem Takes.guarded {i : Instr} {s : State} {c : Nat} {o : Octix} (h : Takes i s c o) (hp : (coreAt s.mod c).pc.toNat ≤ 2047)
    (hi : mayIssue s.mod c = true) (hb : fetchBad s.mod c (coreAt s.mod c).pc.toNat = false)
    (hd : decodeOctix (fetchWord s.mod c (coreAt s.mod c).pc.toNat) = some o)
    (hg : guardFails (coreAt s.mod c) (fetchWord s.mod c (coreAt s.mod c).pc.toNat) = true) :
    Gives i s (fun t => CoreStep s t c (advance (cycled (coreAt s.mod c)))) := by
  obtain ⟨eff, f, he, hf⟩ := h
  rw [issue_guard hp hb hd hg hi hf] at he
  exact ⟨_, he, coreStep_set s c _⟩

/-- At a word that no instruction decodes from, under a guard that reads 0, the row of nop takes the cycle. -/
theorem nopRow_guarded {c : Nat} {m : Mod} (hp : (coreAt m c).pc.toNat ≤ 2047) (hi : mayIssue m c = true)
    (hb : fetchBad m c (coreAt m c).pc.toNat = false) (hd : decodeOctix (fetchWord m c (coreAt m c).pc.toNat) = none)
    (hg : guardFails (coreAt m c) (fetchWord m c (coreAt m c).pc.toNat) = true) :
    nopRow c m = setCore (tick m c) c (advance (cycled (coreAt m c))) := by
  simp only [nopRow]
  rw [if_pos ⟨hp, hb, by simp [hd], hg, hi⟩]
  simp only [applyAct, coreAt_tick]

/-- No row takes a word that no instruction decodes from. -/
theorem issue_undecoded {c : Nat} {m : Mod} {eff : Octix → Option (Mod → Act)} (hb : fetchBad m c (coreAt m c).pc.toNat = false)
    (hd : decodeOctix (fetchWord m c (coreAt m c).pc.toNat) = none) : issue c eff m = m := by
  simp only [issue, hb, hd, Option.bind_none]
  split <;> rfl

/-- Under a guard that reads 0, an illegal word raises no fault. -/
theorem illegalRow_guarded {c : Nat} {m : Mod} (hb : fetchBad m c (coreAt m c).pc.toNat = false)
    (hd : decodeOctix (fetchWord m c (coreAt m c).pc.toNat) = none)
    (hg : guardFails (coreAt m c) (fetchWord m c (coreAt m c).pc.toNat) = true) : illegalRow c m = m := by
  unfold illegalRow
  exact (if_neg (fun ⟨_, _, _, hh, _⟩ => hh hg)).trans (issue_undecoded hb hd)

/-- A guard that names p0 holds: p0 reads 1 (R65). -/
theorem guardFails_p0 (x : CoreSt) {w : W64} (h : bit w 51 = true) (hp : bits w 50 48 = 0) : guardFails x w = false := by
  have hw : guardOf w = some 0 := by rw [guardOf, if_pos h, hp]; rfl
  simp [guardFails, hw, rp]

/-- Settles O55: each row takes its word, so the guard alone decides; a word that does not decode is nop's. -/
theorem guardedWords : Obligations.GuardedWords := by
  unfold Obligations.GuardedWords
  refine ⟨?_, ?_, fun x _ h hp => guardFails_p0 x h hp, fun w o h => rowOf_ne_none (answersLegal_decodeOctix w o h)⟩
  · intro c s o row hp hi hb hd hr hg
    exact (takes_rowOf hd hr).guarded hp hi hb hd hg
  · intro c s hp hi hb hd hg
    unfold Gives
    rw [exec_nop, nopRow_guarded hp hi hb hd hg, exec_illegalWord, illegalRow_guarded hb hd hg]
    exact ⟨⟨_, rfl, coreStep_set s c.val _⟩, ⟨_, rfl, rfl⟩⟩

end Sys2Proof.Machine
end

section
/-!
PROOFS. Scalar arithmetic, compares and predicate logic (R65, R106 to R110), obligations O1 and O3.

The idea: `aluRow_step`, `cmpRow_step`, `cmpIRow_step`, `predRow_step` and `pnotRow_step` give the state after the row, with the value the
model computes. What is left is that each row of a table runs that shared row (`exec_aluRows` and its like), and that the model's value,
which goes through integers and naturals, is the bit-vector value of the table (`aluOp_aluRows` and its like).
-/
namespace Sys2Proof.Machine

/-- The immediate of R103 is the sign extension of the bit-vector library. -/
theorem sext32_toNat (i : W32) : sext32 i.toNat = i.signExtend 64 := by
  have hs : toSigned 32 i.toNat = i.toInt := by
    rw [toSigned, Nat.mod_eq_of_lt i.isLt, BitVec.toInt_eq_toNat_cond]
    congr 1
    exact propext (by omega)
  rw [sext32, hs, BitVec.signExtend]

/-! ## Values of Tables 4.4 and 4.5 -/

/-- The upper half of a 128-bit product is the quotient of the integer product by 2^64. -/
theorem truncate_ushiftRight_ofInt (p : Int) : (BitVec.ofInt 128 p >>> 64).truncate 64 = BitVec.ofInt 64 (p / 2 ^ 64) := by
  apply BitVec.eq_of_toNat_eq
  simp only [BitVec.truncate_eq_setWidth, BitVec.toNat_setWidth, BitVec.toNat_ushiftRight, BitVec.toNat_ofInt,
    Nat.shiftRight_eq_div_pow]
  omega

theorem aluOp_mulh (a b : W64) : aluOp .mulh a b = ((a.signExtend 128 * b.signExtend 128) >>> 64).truncate 64 := by
  have hp : a.signExtend 128 * b.signExtend 128 = BitVec.ofInt 128 (a.toInt * b.toInt) := (BitVec.ofInt_mul _ _).symm
  rw [hp, truncate_ushiftRight_ofInt, aluOp, Int.fdiv_eq_ediv_of_nonneg _ (by decide)]

theorem aluOp_mulhu (a b : W64) : aluOp .mulhu a b = ((a.zeroExtend 128 * b.zeroExtend 128) >>> 64).truncate 64 := by
  have hp : a.zeroExtend 128 * b.zeroExtend 128 = BitVec.ofInt 128 (a.toNat * b.toNat : Nat) := by
    rw [BitVec.ofInt_natCast, BitVec.ofNat_mul, BitVec.ofNat_toNat, BitVec.ofNat_toNat]
  rw [hp, truncate_ushiftRight_ofInt, aluOp, ← BitVec.ofInt_natCast]
  rfl

/-- R107: the one signed overflow is the quotient modulo 2^64, so only division by zero is a case of its own. -/
theorem aluOp_div (a b : W64) : aluOp .div a b = if b = 0 then BitVec.allOnes 64 else a.sdiv b := by
  rw [aluOp]
  split
  · rfl
  · exact BitVec.eq_of_toInt_eq (by rw [BitVec.toInt_ofInt, BitVec.toInt_sdiv])

theorem aluOp_divu (a b : W64) : aluOp .divu a b = if b = 0 then BitVec.allOnes 64 else a / b := by
  rw [aluOp]
  split
  · rfl
  · rw [← BitVec.toNat_udiv, BitVec.ofNat_toNat, BitVec.setWidth_eq]

theorem aluOp_rem (a b : W64) : aluOp .rem a b = a.srem b := by
  rw [aluOp]
  split
  · next h => rw [h]; exact BitVec.srem_zero.symm
  · rw [← Int.tmod_def, ← BitVec.toInt_srem, BitVec.ofInt_toInt]

theorem aluOp_remu (a b : W64) : aluOp .remu a b = a % b := by
  rw [aluOp]
  split
  · next h => rw [h]; exact BitVec.umod_zero.symm
  · rw [← BitVec.toNat_umod, BitVec.ofNat_toNat, BitVec.setWidth_eq]

theorem aluOp_min (a b : W64) : aluOp .min a b = if b.slt a then b else a := by
  simp only [aluOp, BitVec.slt_iff_toInt_lt, ← Int.not_lt, ite_not]

/-- Equal values are equal words, so either comparison picks the maximum. -/
theorem aluOp_max (a b : W64) : aluOp .max a b = if a.slt b then b else a := by
  simp only [aluOp, BitVec.slt_iff_toInt_lt]
  split_ifs with hle hlt hlt
  · rfl
  · exact BitVec.eq_of_toInt_eq (by omega)
  · omega
  · rfl

theorem aluOp_minu (a b : W64) : aluOp .minu a b = if b < a then b else a := by
  simp only [aluOp, BitVec.lt_def, ← Nat.not_lt, ite_not]

theorem aluOp_maxu (a b : W64) : aluOp .maxu a b = if a < b then b else a := by
  simp only [aluOp, BitVec.lt_def]
  split_ifs with hle hlt hlt
  · rfl
  · exact BitVec.eq_of_toNat_eq (by omega)
  · omega
  · rfl

theorem aluOp_rotl (a b : W64) : aluOp .rotl a b = a <<< (b.toNat % 64) ||| a >>> ((64 - b.toNat % 64) % 64) := by
  rw [aluOp, BitVec.rotateLeft_def, Nat.mod_mod]
  obtain h0 | h0 : b.toNat % 64 = 0 ∨ (64 - b.toNat % 64) % 64 = 64 - b.toNat % 64 := by omega
  · have hz : a >>> 64 = 0 := BitVec.ushiftRight_eq_zero le_rfl
    simp [h0, hz]
  · rw [h0]

/-- The value of each row of the two-register instructions. -/
theorem aluOp_aluRows : ∀ r ∈ aluRows, ∀ a b, aluOp r.2.1 a b = r.2.2 a b := by
  simp only [aluRows, List.forall_mem_cons]
  exact ⟨fun _ _ => rfl, fun _ _ => rfl, fun _ _ => rfl, aluOp_mulh, aluOp_mulhu, aluOp_div, aluOp_divu, aluOp_rem, aluOp_remu,
    aluOp_min, aluOp_max, aluOp_minu, aluOp_maxu, fun _ _ => rfl, fun _ _ => rfl, fun _ _ => rfl, fun _ _ => rfl, fun _ _ => rfl,
    fun _ _ => rfl, fun _ _ => rfl, aluOp_rotl, List.forall_mem_nil _⟩

/-- Each row of the two-register instructions runs the shared row with its operation. -/
theorem exec_aluRows (c : Core) (s : State) : ∀ r ∈ aluRows, exec (r.1 c) s = .next (s.onMod (aluRow c.val r.2.1)) := by
  simp only [aluRows, List.forall_mem_cons, List.not_mem_nil, false_imp_iff, implies_true, and_true]
  and_intros <;> rfl

/-- Settles O1: the shared row writes the model's value, and that is the table's. -/
theorem aluRegisterRows : Obligations.AluRegisterRows := by
  unfold Obligations.AluRegisterRows
  intro r hr c s d a b h
  rw [← aluOp_aluRows r hr]
  exact ⟨_, exec_aluRows c s r hr, aluRow_step h⟩

/-! ## Values of Table 4.6 -/

/-- The immediate compares compute what the register compares do. -/
theorem cmpIRows_values : cmpIRows.map Prod.snd = cmpRows.map Prod.snd := rfl

/-- The value of each compare, of two registers or with an immediate. -/
theorem cmpHolds_of_mem : ∀ v ∈ cmpRows.map Prod.snd, ∀ a b, cmpHolds v.1 a b = v.2 a b := by
  simp only [cmpRows, List.map_cons, List.map_nil, List.forall_mem_cons]
  exact ⟨fun _ _ => rfl, fun _ _ => decide_not, fun _ _ => rfl, fun _ _ => rfl, fun _ _ => rfl, fun _ _ => rfl, List.forall_mem_nil _⟩

theorem cmpHolds_cmpRows {r} (hr : r ∈ cmpRows) (a b : W64) : cmpHolds r.2.1 a b = r.2.2 a b :=
  cmpHolds_of_mem _ (List.mem_map_of_mem hr) a b

theorem cmpHolds_cmpIRows {r} (hr : r ∈ cmpIRows) (a b : W64) : cmpHolds r.2.1 a b = r.2.2 a b :=
  cmpHolds_of_mem _ (cmpIRows_values ▸ List.mem_map_of_mem hr) a b

theorem predOp_predRows : ∀ r ∈ predRows, ∀ a b, predOp r.2.1 a b = r.2.2 a b := by
  simp only [predRows, List.forall_mem_cons]
  exact ⟨fun _ _ => rfl, fun _ _ => rfl, fun _ _ => rfl, fun _ _ => rfl, List.forall_mem_nil _⟩

/-- Each compare of two registers runs the shared row with its operation; so do the immediate compares and the predicate logic. -/
theorem exec_cmpRows (c : Core) (s : State) : ∀ r ∈ cmpRows, exec (r.1 c) s = .next (s.onMod (cmpRow c.val r.2.1)) := by
  simp only [cmpRows, List.forall_mem_cons, List.not_mem_nil, false_imp_iff, implies_true, and_true]
  and_intros <;> rfl

theorem exec_cmpIRows (c : Core) (s : State) : ∀ r ∈ cmpIRows, exec (r.1 c) s = .next (s.onMod (cmpIRow c.val r.2.1)) := by
  simp only [cmpIRows, List.forall_mem_cons, List.not_mem_nil, false_imp_iff, implies_true, and_true]
  and_intros <;> rfl

theorem exec_predRows (c : Core) (s : State) : ∀ r ∈ predRows, exec (r.1 c) s = .next (s.onMod (predRow c.val r.2.1)) := by
  simp only [predRows, List.forall_mem_cons, List.not_mem_nil, false_imp_iff, implies_true, and_true]
  and_intros <;> rfl

theorem exec_pnot (c : Core) (s : State) : exec (.pnot c) s = .next (s.onMod (pnotRow c.val)) := rfl

/-- Settles O3: the shared rows write the model's value, and that is the table's; the immediate is sign-extended first. -/
theorem predicateRows : Obligations.PredicateRows := by
  unfold Obligations.PredicateRows
  refine ⟨?_, ?_, ?_, fun c s pd pa h => ⟨_, exec_pnot c s, pnotRow_step h⟩⟩
  · intro r hr c s pd a b h
    rw [← cmpHolds_cmpRows hr]
    exact ⟨_, exec_cmpRows c s r hr, cmpRow_step h⟩
  · intro r hr c s pd a imm h
    rw [← cmpHolds_cmpIRows hr, ← sext32_toNat]
    exact ⟨_, exec_cmpIRows c s r hr, cmpIRow_step h⟩
  · intro r hr c s pd pa pb h
    rw [← predOp_predRows r hr]
    exact ⟨_, exec_predRows c s r hr, predRow_step h⟩

end Sys2Proof.Machine
end

section
/-!
PROOFS. The metrology unit among the rest (R462), obligation O57.

The idea: a command is a change of the metrology unit alone or a change of the module alone, and `ofMetrology` says which of the two.
-/
namespace Sys2Proof.Machine

/-- The dozen commands that reach the metrology unit: its records and seals (R459, R460, R464, R465), its frame (R467), its SMBus (R466). -/
theorem exec_eq_onMdm {i : Instr} (h : ofMetrology i = true) (s : State) : ∃ f, exec i s = .next (s.onMdm f) := by
  cases i with
  | meterPeriodicRecord x => exact ⟨mdmPeriodic x, rfl⟩
  | meterPowerUpRecord x => exact ⟨mdmPowerUp x, rfl⟩
  | meterPowerDownRecord x => exact ⟨mdmPowerDown x, rfl⟩
  | mdmCaseOpen x => exact ⟨mdmOpen x, rfl⟩
  | mdmReseal x => exact ⟨mdmReseal x, rfl⟩
  | mdmFirmwareChange x ver crc => exact ⟨mdmFirmware x ver crc, rfl⟩
  | meterFrameSend => exact ⟨mdmSend, rfl⟩
  | mdmReadRecord seq ok => exact ⟨mdmRead ok (mdmRecordOf seq.toNat), rfl⟩
  | mdmReadLatest ok => exact ⟨mdmRead ok mdmLatest, rfl⟩
  | mdmReadLog n ok => exact ⟨mdmRead ok (mdmLogOf n), rfl⟩
  | mdmReadCertificate n ok => exact ⟨mdmRead ok (mdmCertOf n), rfl⟩
  | mdmIdentify ok => exact ⟨mdmRead ok mdmIdent, rfl⟩
  | _ => cases h

/-- Every other command is a change of the module, as its own row gives it: the witness is read off the row. -/
theorem exec_eq_onMod {i : Instr} (h : ofMetrology i = false) (s : State) : ∃ f, exec i s = .next (s.onMod f) := by
  cases i with
  | meterPeriodicRecord | meterPowerUpRecord | meterPowerDownRecord | mdmCaseOpen | mdmReseal | mdmFirmwareChange | meterFrameSend
  | mdmReadRecord | mdmReadLatest | mdmReadLog | mdmReadCertificate | mdmIdentify => cases h
  | _ => exact ⟨_, rfl⟩

/-- Settles O57: a change of one of the two units leaves the other unit and the queue. -/
theorem queueAndMetrologyIsolated : Obligations.QueueAndMetrologyIsolated := by
  unfold Obligations.QueueAndMetrologyIsolated
  intro i s
  cases h : ofMetrology i with
  | true =>
    obtain ⟨f, hf⟩ := exec_eq_onMdm h s
    exact ⟨_, hf, onMdm_pending s f, onMdm_mod s f⟩
  | false =>
    obtain ⟨f, hf⟩ := exec_eq_onMod h s
    exact ⟨_, hf, onMod_pending s f, onMod_mdm s f⟩

end Sys2Proof.Machine
end
